-- ==== Sys2Proof/Word.lean ====
section
/-! DEFINITION. The byte of the two serial lines and the index types of the LW740 (spec/00_scope.md, section 5.2). -/

namespace Sys2Proof

/-- One byte of a Rise Bus frame (R192). -/
abbrev Byte := BitVec 8

/-- A node slot, 0 to 127 (R1). -/
abbrev Slot := Fin 128

/-- A wall segment, 0 to 31 (R60). -/
abbrev SegmentIx := Fin 32

/-- A feed descriptor, 0 to 63 (R81). -/
abbrev DescriptorIx := Fin 64

/-- A limit monitor, 0 to 7 (R142). -/
abbrev MonitorIx := Fin 8

/-- A height marker, 0 to 23 (R149). -/
abbrev MarkerIx := Fin 24

/-- A forwarding agent, 0 to 15 (R181). -/
abbrev AgentIx := Fin 16

/-- A relay slot, 0 to 3 (R188). -/
abbrev RelayIx := Fin 4

/-- A parameter of the Parameter Record, 0 to 31 (R161). -/
abbrev ParamIx := Fin 32

end Sys2Proof
end

