-- ==== Sys2Proof/Config.lean ====
section
/-! DEFINITION. What the manual fixes for the part as numbers, and the values it leaves open (opaque constants). -/

namespace Sys2Proof.Config

/-- Greatest value of a saturating four-byte counter, of the pour clock and of the cycle number (R64, R41). -/
def max32 : Nat := 4294967295

/-- Greatest height a 24-bit height holds (R61). -/
def maxHeight : Nat := 16777215

/-- Units of the rate remainder in one tm (R51). -/
def rateUnit : Nat := 3600000

/-- Time an uncollected relay result is kept, in ms (R190). -/
def relayKeepMs : Nat := 30000

/-- Places of the reply queue that replies may fill; the one after them is kept for OVERFLOW (R179). -/
def replyPlaces : Nat := 15

/-- Capacity of the forward queue (R183). -/
def forwardPlaces : Nat := 32

/-- Capacity of the staged edit list (R159). -/
def stagedPlaces : Nat := 32

/-- Capacity of a placement queue (R66). -/
def layerPlaces : Nat := 16

/-- Capacity of a deferred list (R83). -/
def deferredPlaces : Nat := 8

/-- Largest payload of a frame (R192). -/
def maxPayload : Nat := 240

/-- The longest gap between two bytes of a frame on the ring, in microseconds (R193). -/
def ringGapUs : Nat := 2000

/-- The longest gap between two bytes of a frame on the console line, in microseconds (R193). -/
def consoleGapUs : Nat := 5000

/-- Bytes left for whole entries in one BEACON frame (R196). -/
def beaconEntryBytes : Nat := 234

/-- FREE VALUE (notes/assumptions/5.md). Whether channel B is taken before channel A where one event is a decision
point of both channels: R84 states the outcome of either order and fixes none. -/
opaque channelBFirst : Nat → Bool

/-- FREE VALUE (notes/assumptions/6.md). The credited time of a CLIMB computation that finds no rate clock start:
R50 says there is none such and R51 gives no value for it. -/
opaque unstatedCredit : Nat → Nat

/-- FREE VALUE (notes/assumptions/8.md). The four bytes of a time field whose distance from now does not fit them. -/
opaque timeFieldOverflow : Int → BitVec 32

/-- FREE VALUE (notes/assumptions/9.md). The two bytes that READ of monitor state sends for an absent last value. -/
opaque absentLastValue : BitVec 16

/-- FREE VALUE (notes/assumptions/9.md). The four bytes that READ of monitor state sends for an absent judged at. -/
opaque absentJudgedAt : BitVec 32

end Sys2Proof.Config
end

