-- ==== Sys2Proof/Syntax.lean ====
section
/-! DEFINITION. The commands and events of the LW740: one constructor for each row of spec/opcode_table.json. -/

namespace Sys2Proof

/-- The two feed channels (R83). -/
inductive Channel where
  | a
  | b
  deriving DecidableEq, Repr

/-- The two lines on which the part receives (R193). -/
inductive Line where
  | ring
  | console
  deriving DecidableEq, Repr

/-- One byte as it comes in on a line, and the gap before it: the time since the end of the byte that came in before it,
in microseconds (R193). -/
structure RxByte where
  value : Byte
  gap : Nat
  deriving DecidableEq, Repr

/-- The bytes of one frame as a receiver collected them on a line, from the start byte on (R193). -/
structure RxFrame where
  bytes : List RxByte
  deriving DecidableEq, Repr

/-- What stands in a Rise Bus envelope (section 11.1). -/
structure Envelope where
  address : Byte
  kind : Byte
  payload : List Byte
  deriving DecidableEq, Repr

/-- What a receiver makes of the bytes after a start byte (R193): it still collects, it discards for a gap or for the
length byte, or it has the whole frame. -/
inductive Collected where
  | more
  | gap (taken : List RxByte)
  | badLength (taken : List RxByte)
  | full (taken : List RxByte) (rest : List RxByte)
  deriving DecidableEq, Repr

/-- The steps of the part.
Console commands carry the sequence number and the argument bytes of their COMMAND frame (R157, R195).
Ring replies carry the address and the payload of the frame (R194).
Timer expiries carry the channel or the relay slot whose timer it is. -/
inductive Instr where
  /-- POWER_ON (R176). -/
  | powerOn
  /-- RESET_PIN_ASSERT (R197). -/
  | resetPinAssert
  /-- POUR_CLOCK_TICK (R64). -/
  | pourClockTick
  /-- CONSOLE_FRAME_REJECT (R177): the frame as collected. -/
  | consoleFrameReject (frame : RxFrame)
  /-- STATUS (R173). -/
  | status (seq : Byte) (args : List Byte)
  /-- READ (R162). -/
  | read (seq : Byte) (args : List Byte)
  /-- WRITE (R163, R164). -/
  | write (seq : Byte) (args : List Byte)
  /-- DISCARD (R165). -/
  | discard (seq : Byte) (args : List Byte)
  /-- COMMIT (R166, R167). -/
  | commit (seq : Byte) (args : List Byte)
  /-- START (R113). -/
  | start (seq : Byte) (args : List Byte)
  /-- STOP (R114). -/
  | stop (seq : Byte) (args : List Byte)
  /-- HOLD (R115). -/
  | hold (seq : Byte) (args : List Byte)
  /-- RELEASE (R116). -/
  | release (seq : Byte) (args : List Byte)
  /-- SET RATE (R171). -/
  | setRate (seq : Byte) (args : List Byte)
  /-- ACK (R132). -/
  | ack (seq : Byte) (args : List Byte)
  /-- POLL CONDITION (R136). -/
  | pollCondition (seq : Byte) (args : List Byte)
  /-- MASK (R134). -/
  | mask (seq : Byte) (args : List Byte)
  /-- FEED START (R100). -/
  | feedStart (seq : Byte) (args : List Byte)
  /-- FEED STOP (R101). -/
  | feedStop (seq : Byte) (args : List Byte)
  /-- PLACE (R71). -/
  | place (seq : Byte) (args : List Byte)
  /-- RELAY (R188). -/
  | relay (seq : Byte) (args : List Byte)
  /-- SET USER (R172). -/
  | setUser (seq : Byte) (args : List Byte)
  /-- RESTART (R174). -/
  | restart (seq : Byte) (args : List Byte)
  /-- SILENCE_EXPIRY (R178). -/
  | silenceExpiry
  /-- SWEEP_START (R12). -/
  | sweepStart
  /-- SWEEP_POLL (R13). -/
  | sweepPoll
  /-- OUTLET_POLL (R19). -/
  | outletPoll
  /-- DEMAND (R23). -/
  | demand
  /-- GO_BROADCAST (R26). -/
  | goBroadcast
  /-- GO_SENT (R26). -/
  | goSent
  /-- OPEN_EXCHANGE (R87). -/
  | openExchange
  /-- CLOSE_EXCHANGE (R92). -/
  | closeExchange
  /-- RELAY_EXCHANGE (R189). -/
  | relayExchange
  /-- RING_REPORT (R3): address and payload of a REPORT frame. -/
  | ringReport (address : Byte) (payload : List Byte)
  /-- DEMAND_ACK (R23): address and payload of an ACK frame. -/
  | demandAck (address : Byte) (payload : List Byte)
  /-- OPEN_ACK (R88): address and payload of an ACK frame. -/
  | openAck (address : Byte) (payload : List Byte)
  /-- CLOSE_ACK (R92): address and payload of an ACK frame. -/
  | closeAck (address : Byte) (payload : List Byte)
  /-- RING_RELAY_BACK (R189): address and payload of a RELAY_BACK frame. -/
  | ringRelayBack (address : Byte) (payload : List Byte)
  /-- RING_FRAME_DISCARD (R6): the frame as collected. -/
  | ringFrameDiscard (frame : RxFrame)
  /-- REPLY_WINDOW_EXPIRY (R6). -/
  | replyWindowExpiry
  /-- STROKE_WINDOW_EXPIRY (R28). -/
  | strokeWindowExpiry
  /-- DWELL_EXPIRY (R91). -/
  | dwellExpiry (ch : Channel)
  /-- PAUSE_EXPIRY (R96). -/
  | pauseExpiry (ch : Channel)
  /-- BLOCK_TIMER_EXPIRY (R86). -/
  | blockTimerExpiry (ch : Channel)
  /-- RELAY_RESULT_EXPIRY (R190). -/
  | relayResultExpiry (slot : RelayIx)
  /-- DISPATCH_RESULT_ARRIVAL (R22). -/
  | dispatchResultArrival
  /-- PLACEMENT_RESULT_ARRIVAL (R73). -/
  | placementResultArrival
  /-- MARKER_RESULT_ARRIVAL (R150). -/
  | markerResultArrival
  /-- FEED_RESULT_ARRIVAL (R86). -/
  | feedResultArrival
  /-- BEACON_BUILD (R185). -/
  | beaconBuild
  /-- SPREAD_SWITCH_ARRIVAL (R112). -/
  | spreadSwitchArrival
  /-- DISPATCH_MODE_ARRIVAL (R27). -/
  | dispatchModeArrival
  /-- FEED_MODE_ARRIVAL (R102). -/
  | feedModeArrival
  /-- RELAY_MODE_ARRIVAL (R118). -/
  | relayModeArrival
  /-- CONSOLE_SEND (R180). -/
  | consoleSend
  /-- UNKNOWN_COMMAND (R158): sequence number, command code and argument bytes. -/
  | unknownCommand (seq : Byte) (code : Byte) (args : List Byte)
  /-- SWEEP_MODE_ARRIVAL (R16). -/
  | sweepModeArrival
  /-- RATE_CLOCK_MODE_ARRIVAL (R50). -/
  | rateClockModeArrival
  /-- SILENCE_MODE_ARRIVAL (R178). -/
  | silenceModeArrival
  /-- REQUEST_FRAME_SENT (R6). -/
  | requestFrameSent
  /-- CONSOLE_FRAME_SENT (R187). -/
  | consoleFrameSent
  /-- POWER_LOSS (R176). -/
  | powerLoss
  deriving DecidableEq, Repr

end Sys2Proof
end

