-- ==== Sys2Proof/Machine/Wire.lean ====
section
/-! DEFINITION. The Rise Bus on the wire: byte order, CRC, envelope and reception (chapter 11). -/

namespace Sys2Proof.Machine

open Sys2Proof

/-! ## Numbers as bytes, high byte first (chapter 11) -/

/-- One byte. -/
def u8 (n : Nat) : Byte := BitVec.ofNat 8 n

/-- Two bytes, high byte first. -/
def u16 (n : Nat) : List Byte := [u8 (n / 256), u8 n]

/-- Three bytes, high byte first. -/
def u24 (n : Nat) : List Byte := [u8 (n / 65536), u8 (n / 256), u8 n]

/-- Four bytes, high byte first. -/
def u32 (n : Nat) : List Byte := [u8 (n / 16777216), u8 (n / 65536), u8 (n / 256), u8 n]

/-- A signed number in two bytes, two's complement. -/
def i16 (x : Int) : List Byte := u16 (BitVec.ofInt 16 x).toNat

/-- A signed number in four bytes, two's complement. -/
def i32 (x : Int) : List Byte := u32 (BitVec.ofInt 32 x).toNat

/-- The number that bytes spell, high byte first. -/
def natOfBytes (bs : List Byte) : Nat := bs.foldl (fun n b => n * 256 + b.toNat) 0

/-- The signed number that two bytes spell. -/
def intOfBytes16 (bs : List Byte) : Int := (BitVec.ofNat 16 (natOfBytes bs)).toInt

/-! ## CRC (R192) -/

/-- One bit of the CRC division by x^16 + x^12 + x^5 + 1. -/
def crcBit (crc : BitVec 16) : BitVec 16 :=
  if crc.msb then (crc <<< 1) ^^^ 0x1021#16 else crc <<< 1

/-- One byte into the CRC, most significant bit first. -/
def crcByte (crc : BitVec 16) (b : Byte) : BitVec 16 :=
  Nat.repeat crcBit 8 (crc ^^^ (b.setWidth 16 <<< 8))

/-- The CRC of a run of bytes: initial value 0xFFFF, no final inversion (R192). -/
def crc16 (bs : List Byte) : BitVec 16 := bs.foldl crcByte 0xFFFF#16

/-! ## Envelope (section 11.1) -/

/-- The start byte. -/
def startByte : Byte := 0xA5

/-- The bytes under the CRC: address, kind, length, payload (R192). -/
def envelopeBody (e : Envelope) : List Byte := e.address :: e.kind :: u8 e.payload.length :: e.payload

/-- The frame of an envelope as the part sends it (R192). -/
def envelopeFrame (e : Envelope) : List Byte := startByte :: envelopeBody e ++ u16 (crc16 (envelopeBody e)).toNat

/-- Kind codes of the frames (R192). -/
def kindPoll : Byte := 0x01
/-- REPORT. -/
def kindReport : Byte := 0x02
/-- DEMAND. -/
def kindDemand : Byte := 0x03
/-- ACK. -/
def kindAck : Byte := 0x04
/-- GO. -/
def kindGo : Byte := 0x05
/-- OPEN. -/
def kindOpen : Byte := 0x06
/-- CLOSE. -/
def kindClose : Byte := 0x07
/-- RELAY. -/
def kindRelay : Byte := 0x08
/-- RELAY_BACK. -/
def kindRelayBack : Byte := 0x09
/-- COMMAND. -/
def kindCommand : Byte := 0x21
/-- REPLY. -/
def kindReply : Byte := 0x22
/-- BEACON. -/
def kindBeacon : Byte := 0x23
/-- FORWARD. -/
def kindForward : Byte := 0x24

/-! ## Reception (R193) -/

/-- The longest gap that a line allows between two bytes of a frame, in microseconds (R193). -/
def gapLimit : Line → Nat
  | .ring => Config.ringGapUs
  | .console => Config.consoleGapUs

/-- Whether the gap before a byte is longer than a line allows inside a frame (R193). -/
def lateByte (line : Line) (b : RxByte) : Bool := decide (gapLimit line < b.gap)

/-- The bytes of a frame that came in with no gap between them. -/
def gapless (bs : List Byte) : RxFrame := { bytes := bs.map fun b => { value := b, gap := 0 } }

/-- The envelope of a frame collected on a line that passes the reception checks of R193: start byte, length, no gap, CRC.
The gap before the start byte lies between frames and does not count. -/
def frameEnvelope (line : Line) (f : RxFrame) : Option Envelope :=
  match f.bytes.tail.any (lateByte line), f.bytes.map RxByte.value with
  | false, start :: address :: kind :: length :: rest =>
    if start = startByte ∧ length.toNat ≤ Config.maxPayload ∧ rest.length = length.toNat + 2 then
      let e : Envelope := { address := address, kind := kind, payload := rest.take length.toNat }
      if rest.drop length.toNat = u16 (crc16 (envelopeBody e)).toNat then some e else none
    else none
  | _, _ => none

/-- What the receiver of a line makes of the bytes that follow a start byte (R193). -/
def collect (line : Line) (rest : List RxByte) : Collected :=
  let header := rest.take 3
  if header.any (lateByte line) then .gap (header.takeWhile fun b => !lateByte line b)
  else match header with
    | [_, _, length] =>
      if length.value.toNat > Config.maxPayload then .badLength header
      else
        let whole := rest.take (3 + length.value.toNat + 2)
        if whole.any (lateByte line) then .gap (whole.takeWhile fun b => !lateByte line b)
        else if whole.length < 3 + length.value.toNat + 2 then .more
        else .full whole (rest.drop whole.length)
    | _ => .more

/-- The frames the receiver of a line collects from the bytes that come in, in order (R193). It hunts for the start byte.
After a discard for length or gap it hunts on from the byte after that start byte; after a whole frame, good CRC or
bad, from the byte after its CRC. The number bounds the bytes hunted through. -/
def receive (line : Line) : Nat → List RxByte → List RxFrame
  | 0, _ => []
  | _ + 1, [] => []
  | fuel + 1, b :: rest =>
    if b.value ≠ startByte then receive line fuel rest
    else match collect line rest with
      | .more => []
      | .gap taken => { bytes := b :: taken } :: receive line fuel rest
      | .badLength taken => { bytes := b :: taken } :: receive line fuel rest
      | .full taken rest' => { bytes := b :: taken } :: receive line fuel rest'

/-- The frames in a whole run of bytes received on a line (R193). -/
def receiveAll (line : Line) (bytes : List RxByte) : List RxFrame := receive line bytes.length bytes

/-- Whether a console-line frame is valid: reception checks, address 0, kind COMMAND, at least two payload bytes
(R177). -/
def frameConsoleValid (f : RxFrame) : Bool :=
  match frameEnvelope .console f with
  | some e => e.address == 0 && e.kind == kindCommand && decide (2 ≤ e.payload.length)
  | none => false

end Sys2Proof.Machine
end

