-- ==== Sys2Proof/Decode.lean ====
section
/-! DEFINITION. Which step a frame on the console line is, the command frame of a command, and the step that a word of the
opcode table spells. -/

namespace Sys2Proof

open Sys2Proof.Machine

/-! ## Words of the opcode table -/

/-- No row of spec/opcode_table.json gives bits, so no word spells a step. -/
def decodeTableWord (_nbits _w : Nat) : Option Instr := none

/-! ## Command frames (R157, R158, R177, R195) -/

/-- The step that a command code makes with its sequence number and argument bytes (R158, R195). -/
def commandStep (seq code : Byte) (args : List Byte) : Instr :=
  match code.toNat with
  | 1 => .status seq args
  | 2 => .read seq args
  | 3 => .write seq args
  | 4 => .discard seq args
  | 5 => .commit seq args
  | 6 => .start seq args
  | 7 => .stop seq args
  | 8 => .hold seq args
  | 9 => .release seq args
  | 10 => .setRate seq args
  | 11 => .ack seq args
  | 12 => .pollCondition seq args
  | 13 => .mask seq args
  | 14 => .feedStart seq args
  | 15 => .feedStop seq args
  | 16 => .place seq args
  | 17 => .relay seq args
  | 18 => .setUser seq args
  | 19 => .restart seq args
  | _ => .unknownCommand seq code args

/-- The step that a frame collected on the console line is: the command of a valid frame, else a rejection (R177). -/
def decodeConsole (f : RxFrame) : Instr :=
  match frameEnvelope .console f with
  | some e =>
    match e.payload with
    | seq :: code :: args =>
      if e.address = 0 ∧ e.kind = kindCommand then commandStep seq code args else .consoleFrameReject f
    | _ => .consoleFrameReject f
  | none => .consoleFrameReject f

/-- Sequence number, command code and arguments of a console command; none for every other step (R195). -/
def Instr.command : Instr → Option (Byte × Byte × List Byte)
  | .status seq args => some (seq, 0x01, args)
  | .read seq args => some (seq, 0x02, args)
  | .write seq args => some (seq, 0x03, args)
  | .discard seq args => some (seq, 0x04, args)
  | .commit seq args => some (seq, 0x05, args)
  | .start seq args => some (seq, 0x06, args)
  | .stop seq args => some (seq, 0x07, args)
  | .hold seq args => some (seq, 0x08, args)
  | .release seq args => some (seq, 0x09, args)
  | .setRate seq args => some (seq, 0x0A, args)
  | .ack seq args => some (seq, 0x0B, args)
  | .pollCondition seq args => some (seq, 0x0C, args)
  | .mask seq args => some (seq, 0x0D, args)
  | .feedStart seq args => some (seq, 0x0E, args)
  | .feedStop seq args => some (seq, 0x0F, args)
  | .place seq args => some (seq, 0x10, args)
  | .relay seq args => some (seq, 0x11, args)
  | .setUser seq args => some (seq, 0x12, args)
  | .restart seq args => some (seq, 0x13, args)
  | .unknownCommand seq code args => some (seq, code, args)
  | .powerOn => none
  | .resetPinAssert => none
  | .pourClockTick => none
  | .consoleFrameReject _ => none
  | .silenceExpiry => none
  | .sweepStart => none
  | .sweepPoll => none
  | .outletPoll => none
  | .demand => none
  | .goBroadcast => none
  | .goSent => none
  | .openExchange => none
  | .closeExchange => none
  | .relayExchange => none
  | .ringReport _ _ => none
  | .demandAck _ _ => none
  | .openAck _ _ => none
  | .closeAck _ _ => none
  | .ringRelayBack _ _ => none
  | .ringFrameDiscard _ => none
  | .replyWindowExpiry => none
  | .strokeWindowExpiry => none
  | .dwellExpiry _ => none
  | .pauseExpiry _ => none
  | .blockTimerExpiry _ => none
  | .relayResultExpiry _ => none
  | .dispatchResultArrival => none
  | .placementResultArrival => none
  | .markerResultArrival => none
  | .feedResultArrival => none
  | .beaconBuild => none
  | .spreadSwitchArrival => none
  | .dispatchModeArrival => none
  | .feedModeArrival => none
  | .relayModeArrival => none
  | .consoleSend => none
  | .sweepModeArrival => none
  | .rateClockModeArrival => none
  | .silenceModeArrival => none
  | .requestFrameSent => none
  | .consoleFrameSent => none
  | .powerLoss => none

/-- The COMMAND frame of a console command, as the console sends it (R192, R195). -/
def encodeConsole (i : Instr) : Option (List Byte) :=
  i.command.map fun c => envelopeFrame { address := 0, kind := kindCommand, payload := c.1 :: c.2.1 :: c.2.2 }

end Sys2Proof
end

