-- ==== Sys2Proof/Machine/State.lean ====
section
/-! DEFINITION. The state of the LW740, block by block, and its value at POWER_ON. -/

namespace Sys2Proof.Machine

open Sys2Proof

/-! ## Tables -/

/-- A table of `n` entries, or `n` live records. -/
abbrev Table (α : Type) (n : Nat) := Vector α n

/-- The entry at an index. -/
def Table.read {α : Type} {n : Nat} (t : Table α n) (i : Fin n) : α := t[i]

/-- The table with one entry replaced. -/
def Table.write {α : Type} {n : Nat} (t : Table α n) (i : Fin n) (x : α) : Table α n := t.set i x

/-- The table whose entry at `i` is `f i`. -/
def Table.tabulate {α : Type} {n : Nat} (f : Fin n → α) : Table α n := Vector.ofFn f

/-- The table with the same entry everywhere. -/
def Table.const {α : Type} (n : Nat) (x : α) : Table α n := Vector.replicate n x

/-! ## Power and lines -/

/-- Supply, reset pin and driver enables (R176, R197). -/
structure Power where
  supply : Bool
  resetPinLow : Bool
  ringDriver : Bool
  consoleDriver : Bool
  deriving DecidableEq, Repr

/-! ## The jack ring -/

/-- What a node is (R1). -/
inductive NodeKind where
  | jack
  | outlet
  | sensor
  deriving DecidableEq, Repr

/-- The state of a node record (R2). -/
inductive NodeState where
  | active
  | stale
  | lost
  | faulted
  | disabled
  deriving DecidableEq, Repr

/-- An entry of the Node Table (R1). -/
structure NodeEntry where
  enabled : Bool
  address : Nat
  kind : NodeKind
  strokeMax : Option Nat
  zero : Option Int
  deriving DecidableEq, Repr

/-- The content of a REPORT frame, by kind of slot (R2). -/
inductive Report where
  | jack (height : Nat) (goTag : Nat) (fault : Bool)
  | outlet (ready : Bool) (ended : Bool) (fault : Bool) (delivered : Nat) (tag : Nat)
  | sensor (value : Int) (fault : Bool)
  deriving DecidableEq, Repr

/-- A live node record (R2). `lastExchangeEnd` is the end of the latest poll, OPEN or CLOSE exchange with the slot,
from which R19 counts the poll due time. -/
structure NodeRecord where
  state : NodeState
  missCount : Nat
  lastReport : Option Report
  previousHeight : Option Nat
  shortCounter : Nat
  pollDue : Option Nat
  lastExchangeEnd : Option Nat
  deriving DecidableEq, Repr

/-- A stroke expectation (R29). -/
structure Expectation where
  tag : Nat
  demand : Nat
  confirmed : Bool
  deriving DecidableEq, Repr

/-- The sweep context (R11). -/
structure Sweep where
  running : Bool
  dueAt : Nat
  startedAt : Option Nat
  polled : List Slot
  cursor : Option Slot
  replies : List Slot
  deriving DecidableEq, Repr

/-- What an exchange on the ring is for (R20). `closeOutlet` with `stray` belongs to no opening (R88, R103). -/
inductive ExchangeKind where
  | sweepPoll (slot : Slot)
  | outletPoll (slot : Slot)
  | demand (slot : Slot)
  | go
  | openOutlet (ch : Channel) (slot : Slot) (tag : Nat)
  | closeOutlet (ch : Channel) (slot : Slot) (tag : Nat) (stray : Bool)
  | relay (ix : RelayIx) (slot : Slot) (tag : Nat)
  deriving DecidableEq, Repr

/-- Whether the request frame is on the line or its reply window is open (R6). -/
inductive ExchangePhase where
  | sending
  | window (endsAt : Nat)
  deriving DecidableEq, Repr

/-- The exchange on the ring (R6, R20): the frame sent, whether this attempt is the retry, and whether RESTART has
made its result void (R18). -/
structure Exchange where
  kind : ExchangeKind
  address : Nat
  frame : List Byte
  retry : Bool
  phase : ExchangePhase
  discarded : Bool
  deriving DecidableEq, Repr

/-- State of the dispatch record (R21). -/
inductive DispatchState where
  | idle
  | demanding
  | goReady
  | window
  deriving DecidableEq, Repr

/-- Outcome of a dispatch entry (R21). -/
inductive DemandOutcome where
  | pending
  | acked
  | unconfirmed
  deriving DecidableEq, Repr

/-- One entry of the dispatch record (R21). -/
structure DispatchEntry where
  slot : Slot
  demand : Nat
  outcome : DemandOutcome
  deriving DecidableEq, Repr

/-- The dispatch record (R21). -/
structure Dispatch where
  state : DispatchState
  tag : Option Nat
  entries : List DispatchEntry
  cursor : Option Slot
  windowEndsAt : Option Nat
  deriving DecidableEq, Repr

/-! ## Rise mode and computation -/

/-- The rise mode (R108). -/
inductive RiseMode where
  | idle
  | climb
  | trim
  | hold
  | halt
  deriving DecidableEq, Repr

/-- The term that set the common step (R56). -/
inductive Binding where
  | rate
  | fill
  | set
  | cap
  | none
  deriving DecidableEq, Repr

/-- An entry of the error list (R46). -/
structure SlotError where
  slot : Slot
  error : Int
  deriving DecidableEq, Repr

/-- An entry of the demand list (R57). -/
structure SlotDemand where
  slot : Slot
  demand : Nat
  deriving DecidableEq, Repr

/-- The cycle result (R58). -/
structure CycleResult where
  cycleNumber : Nat
  time : Nat
  stepMode : RiseMode
  n : Nat
  hRef : Option Int
  bottom : Option Int
  previousHRef : Option Int
  spread : Nat
  errors : List SlotError
  sReq : Nat
  remainder : Nat
  aFill : Option Int
  aSet : Option Int
  s : Nat
  binding : Binding
  demands : List SlotDemand
  deriving DecidableEq, Repr

/-- What the Level Unit keeps (section 3.1, R40). -/
structure LevelUnit where
  cycleNumber : Nat
  remainder : Nat
  rateClock : Option Nat
  latest : Option CycleResult
  deriving DecidableEq, Repr

/-! ## Wall segments -/

/-- An entry of the Segment Table (R60). -/
structure SegmentEntry where
  enabled : Bool
  area : Nat
  startTop : Nat
  deriving DecidableEq, Repr

/-- Source of a layer record (R65). -/
inductive LayerSource where
  | a
  | b
  | manual
  deriving DecidableEq, Repr

/-- A layer record (R65). -/
structure Layer where
  top : Nat
  placedAt : Nat
  litres : Nat
  source : LayerSource
  descriptor : Option DescriptorIx
  greenExited : Bool
  deriving DecidableEq, Repr

/-- The live state of a segment (R61); the queue is oldest first. -/
structure SegmentLive where
  top : Nat
  base : Nat
  remainder : Nat
  placedTotal : Nat
  claim : Option Channel
  queue : List Layer
  deriving DecidableEq, Repr

/-- Answer of the Placement Store to the feed (R78). -/
inductive Acceptance where
  | accepts
  | full
  | noReference
  deriving DecidableEq, Repr

/-! ## Feed channels -/

/-- An entry of the Feed Descriptor Table (R81); `next` absent is END. -/
structure DescriptorEntry where
  enabled : Bool
  segment : SegmentIx
  outlet : Slot
  litres : Nat
  next : Option DescriptorIx
  pauseAfter : Bool
  mark : Bool
  deriving DecidableEq, Repr

/-- State of a channel (R83). -/
inductive ChannelState where
  | idle
  | wait
  | opened
  | closing
  | paused
  | done
  | stopped
  deriving DecidableEq, Repr

/-- Why CLOSE was asked for (R83). -/
inductive CloseCause where
  | dwell
  | full
  | notReady
  | void
  | stop
  | halt
  deriving DecidableEq, Repr

/-- Why a waiting channel cannot open (R83). -/
inductive BlockReason where
  | none
  | notReady
  | segmentFull
  | segmentBusy
  | outletBusy
  | noRef
  deriving DecidableEq, Repr

/-- What follows a pause (R83). -/
inductive PauseKind where
  | resume
  | after
  deriving DecidableEq, Repr

/-- A channel's working copy of a descriptor (R83). -/
structure WorkingCopy where
  segment : SegmentIx
  outlet : Slot
  litres : Nat
  deriving DecidableEq, Repr

/-- The end of a pause and what follows it (R83). -/
structure Pause where
  endsAt : Nat
  kind : PauseKind
  deriving DecidableEq, Repr

/-- A channel context (R83). -/
structure ChannelContext where
  state : ChannelState
  current : Option DescriptorIx
  working : Option WorkingCopy
  delivered : Nat
  tag : Nat
  openConfirmed : Bool
  closeCause : Option CloseCause
  closeSent : Bool
  void : Bool
  blockReason : BlockReason
  blockedSince : Option Nat
  blockTimer : Option Nat
  dwellEndsAt : Option Nat
  pause : Option Pause
  deferred : List DescriptorIx
  deriving DecidableEq, Repr

/-- An OPEN or CLOSE exchange that waits for the ring (R20, rank 3). A stray CLOSE belongs to no channel (R88, R103);
`channel` then only orders exchanges that began to wait at the same moment. -/
structure FeedExchange where
  isOpen : Bool
  channel : Channel
  slot : Slot
  tag : Nat
  litres : Nat
  stray : Bool
  since : Nat
  deriving DecidableEq, Repr

/-- The Feed Chain Engine (R81 to R84), the exchanges it has queued, and the latest cycle result that has reached it. -/
structure Feed where
  descriptors : Table DescriptorEntry 64
  channelA : ChannelContext
  channelB : ChannelContext
  outletClaims : Table (Option Channel) 128
  tagCounter : Nat
  note : Option DescriptorIx
  waiting : List FeedExchange
  seen : Option CycleResult
  deriving DecidableEq, Repr

/-! ## Conditions -/

/-- The eighteen conditions, in the order of their numbers (R124). -/
inductive Cond where
  | ringDown
  | levelLimit
  | jackSlip
  | greenExit
  | quorum
  | jackLost
  | consoleSilent
  | monitorHold
  | jackOver
  | markerHold
  | manualHold
  | jackShort
  | feedFault
  | feedShort
  | feedJam
  | monitorNote
  | cycleLate
  | nodeLost
  deriving DecidableEq, Repr

/-- Class of a condition (R124). -/
inductive CondClass where
  | halt
  | hold
  | note
  deriving DecidableEq, Repr

/-- Kind of a condition (R124). -/
inductive CondKind where
  | level
  | momentary
  deriving DecidableEq, Repr

/-- State of a condition record (R125). -/
inductive CondState where
  | idle
  | raised
  | standing
  | uncleared
  deriving DecidableEq, Repr

/-- The live fields of a condition record (R125); `detail` is the index it holds. -/
structure CondRecord where
  state : CondState
  source : Bool
  detail : Option Nat
  count : Nat
  deriving DecidableEq, Repr

/-- The Condition Unit: records and report mask (R125, R134). -/
structure Conditions where
  records : Table CondRecord 18
  masked : Table Bool 18
  deriving DecidableEq, Repr

/-! ## Limit monitors and height markers -/

/-- Direction of a limit monitor (R142). -/
inductive Direction where
  | rising
  | falling
  deriving DecidableEq, Repr

/-- Class of a limit monitor (R142). -/
inductive MonitorClass where
  | hold
  | note
  deriving DecidableEq, Repr

/-- An entry of the Limit Monitor Table (R142). -/
structure MonitorEntry where
  enabled : Bool
  sensor : Slot
  direction : Direction
  levels : Table Int 4
  select : Fin 4
  hysteresis : Nat
  cls : MonitorClass
  deriving DecidableEq, Repr

/-- Why a monitor is TRIPPED (R143). -/
inductive TripCause where
  | value
  | sensorLost
  | sensorFaulted
  | sensorAbsent
  deriving DecidableEq, Repr

/-- A monitor record (R143). -/
structure MonitorRecord where
  tripped : Bool
  cause : Option TripCause
  lastValue : Option Int
  judgedAt : Option Nat
  deriving DecidableEq, Repr

/-- The limit monitors. -/
structure Monitors where
  entries : Table MonitorEntry 8
  records : Table MonitorRecord 8
  deriving DecidableEq, Repr

/-- Action of a marker with its argument (R149). -/
inductive MarkerAction where
  | hold
  | rate (value : Nat)
  | feedStop (ch : Channel)
  deriving DecidableEq, Repr

/-- An entry of the Marker Table (R149). -/
structure MarkerEntry where
  enabled : Bool
  height : Nat
  action : MarkerAction
  deriving DecidableEq, Repr

/-- The height markers: entries, SPENT flags and the latest fired marker (R149). -/
structure Markers where
  entries : Table MarkerEntry 24
  spent : Table Bool 24
  latest : Option MarkerIx
  deriving DecidableEq, Repr

/-! ## Command Unit -/

/-- The Parameter Record, by parameter index (R161). -/
structure Params where
  values : Table Nat 32
  deriving DecidableEq, Repr

/-- Kind of slot an agent takes reports from (R181). -/
inductive MatchKind where
  | any
  | jack
  | outlet
  | sensor
  deriving DecidableEq, Repr

/-- Form of a FORWARD record (R181). -/
inductive ForwardForm where
  | full
  | compact
  deriving DecidableEq, Repr

/-- An entry of the Forwarding Table (R181). -/
structure AgentEntry where
  enabled : Bool
  matchKind : MatchKind
  low : Slot
  high : Slot
  everyN : Nat
  form : ForwardForm
  rank : Fin 4
  deriving DecidableEq, Repr

/-- A staged edit: the table, the index and the complete entry (R159). -/
inductive Edit where
  | node (i : Slot) (entry : NodeEntry)
  | segment (i : SegmentIx) (entry : SegmentEntry)
  | descriptor (i : DescriptorIx) (entry : DescriptorEntry)
  | monitor (i : MonitorIx) (entry : MonitorEntry)
  | marker (i : MarkerIx) (entry : MarkerEntry)
  | agent (i : AgentIx) (entry : AgentEntry)
  | parameter (i : ParamIx) (value : Nat)
  deriving DecidableEq, Repr

/-- The start cause (R159). -/
inductive StartCause where
  | powerOn
  | restart
  deriving DecidableEq, Repr

/-- The four user words (R172). -/
structure UserWords where
  w0 : Nat
  w1 : Nat
  w2 : Nat
  w3 : Nat
  deriving DecidableEq, Repr

/-- The Command Unit but for the Parameter Record (R159). -/
structure CommandUnit where
  staged : List Edit
  commitPending : Bool
  commitSeq : Option Byte
  startCause : StartCause
  user : UserWords
  deriving DecidableEq, Repr

/-! ## Console traffic -/

/-- Outcome of a command (R158). -/
inductive OutcomeCode where
  | ok
  | unknown
  | malformed
  | busy
  | full
  | invalid
  | notReady
  | notNow
  | conflict
  | pending
  | noSuch
  deriving DecidableEq, Repr

/-- A piece of a reply's result fields: bytes as they stand, or a moment, which is sent as a distance from the moment
the frame is built (R192). -/
inductive Field where
  | bytes (bs : List Byte)
  | time (t : Option Nat)
  deriving DecidableEq, Repr

/-- A record of the reply queue (R179). -/
inductive ReplyRecord where
  | reply (seq : Byte) (code : Byte) (outcome : OutcomeCode) (fields : List Field)
  | commitDone (seq : Byte) (edits : Nat) (cycle : Nat)
  | overflow (lost : Nat)
  deriving DecidableEq, Repr

/-- Content of a FORWARD record (R182); a COMPACT value absent is no-data. -/
inductive ForwardContent where
  | full (state : NodeState) (clock : Nat) (report : Report)
  | compact (value : Option Int)
  deriving DecidableEq, Repr

/-- A FORWARD record (R182). -/
structure ForwardRecord where
  agent : AgentIx
  rank : Fin 4
  slot : Slot
  kind : NodeKind
  content : ForwardContent
  deriving DecidableEq, Repr

/-- The Forwarding Table and its live counters (R181). -/
structure Agents where
  entries : Table AgentEntry 16
  counters : Table Nat 16
  drops : Table Nat 16
  deriving DecidableEq, Repr

/-- One segment's line of the segment summary (R79). -/
structure SegmentSummary where
  segment : SegmentIx
  top : Nat
  queueLength : Nat
  lowestUnset : Option Nat
  deriving DecidableEq, Repr

/-- An entry of a beacon (R185, R196). -/
inductive BeaconEntry where
  | head (start : Bool) (cycle : Nat) (receptionErrors : Nat) (relayDiscards : Nat)
  | cycle (result : CycleResult) (clock : Nat) (marker : Option MarkerIx) (note : Option DescriptorIx)
  | conditions (top : Option Cond) (reported : List Cond)
  | wall (summary : SegmentSummary)
  | jack (slot : Slot) (error : Option Int) (demand : Nat) (state : NodeState)
  | user (words : UserWords)
  | finish
  deriving DecidableEq, Repr

/-- A built beacon (R185). -/
structure Beacon where
  cycle : Nat
  start : Bool
  entries : List BeaconEntry
  deriving DecidableEq, Repr

/-- The beacon being sent: what is left of it and the number of its next entry (R187). -/
structure BeaconSending where
  cycle : Nat
  start : Bool
  nextEntry : Nat
  rest : List BeaconEntry
  deriving DecidableEq, Repr

/-- What the frame on the console line is; for a BEACON frame whether it is the first, whether it is the last, and
whether its beacon carries START (R187). -/
inductive TxKind where
  | reply
  | beacon (first : Bool) (last : Bool) (start : Bool)
  | forward
  deriving DecidableEq, Repr

/-- The frame being sent on the console line (R180). -/
structure ConsoleTx where
  kind : TxKind
  frame : List Byte
  deriving DecidableEq, Repr

/-- The silence timer (R178); its expiry time is `latestValid` plus `silence_ms`. -/
structure Silence where
  latestValid : Nat
  evaluated : Bool
  deriving DecidableEq, Repr

/-- The Console Port and the Beacon Builder's outputs (chapter 10). `forwardHeld` says that a head of the forward queue has
not fitted the budget since its latest refill (R180). -/
structure Console where
  receptionErrors : Nat
  silence : Silence
  replies : List ReplyRecord
  forward : List ForwardRecord
  budget : Nat
  forwardHeld : Bool
  unsent : Option Beacon
  sending : Option BeaconSending
  startFlag : Bool
  tx : Option ConsoleTx
  deriving DecidableEq, Repr

/-- State of an occupied relay slot (R188). -/
inductive RelayState where
  | queued
  | inFlight
  | done
  | failed
  deriving DecidableEq, Repr

/-- An occupied relay slot (R188). -/
structure RelaySlot where
  tag : Nat
  target : Slot
  payload : List Byte
  state : RelayState
  queuedAt : Nat
  result : Option (List Byte)
  completion : Option Nat
  deriving DecidableEq, Repr

/-- The Relay Unit (R188, R190). -/
structure Relays where
  slots : Table (Option RelaySlot) 4
  discards : Nat
  deriving DecidableEq, Repr

/-! ## Hand-offs under way -/

/-- A change of rise mode on its way to a block (R108). The cause that R108 and R109 give a change is the event that
makes it; that no field holds it is the model's choice (DESIGN CHOICE, notes/assumptions/43.md). -/
structure ModeChange where
  old : RiseMode
  new : RiseMode
  moment : Nat
  deriving DecidableEq, Repr

/-- A switch between CLIMB and TRIM on its way to the Rise Mode Controller (R112). -/
structure SpreadSwitch where
  leaves : RiseMode
  enters : RiseMode
  deriving DecidableEq, Repr

/-- The cycle results and mode changes that have been handed to a block and have not reached it, oldest first
(R58, R108, R112). `retirements` are the results that were under way to the Placement Store at a RESTART: they still
retire there (R77) and become no latest result (R40). -/
structure Transit where
  dispatchResults : List CycleResult
  retirements : List CycleResult
  placementResults : List CycleResult
  markerResults : List CycleResult
  feedResults : List CycleResult
  spreadSwitches : List SpreadSwitch
  sweepModes : List ModeChange
  dispatchModes : List ModeChange
  rateModes : List ModeChange
  feedModes : List ModeChange
  silenceModes : List ModeChange
  relayModes : List ModeChange
  deriving DecidableEq, Repr

/-- What the Beacon Builder holds for one computation (R185): its result, the pour clock at it, the segment summary and
the latest fired marker once they are in hand. -/
structure BeaconJob where
  result : CycleResult
  clock : Nat
  summary : Option (List SegmentSummary)
  marker : Option (Option MarkerIx)
  deriving DecidableEq, Repr

/-- The exchange or the sweep that the ring serves next (R20). -/
inductive Grant where
  | sweepStart
  | sweepPoll (slot : Slot)
  | demand (entry : DispatchEntry)
  | go
  | feed (x : FeedExchange)
  | outletPoll (slot : Slot)
  | relay (ix : RelayIx)
  deriving DecidableEq, Repr

/-- What a commit does to a node's record (R8). -/
inductive NodeChange where
  | disabled
  | fresh
  | kept
  deriving DecidableEq, Repr

/-! ## The machine -/

/-- The whole part. `now` is the millisecond time base of its timers, `free` indexes the free values (Config) and
`pending` is the queue of the commands that wait: these three are the model's own. -/
structure State where
  power : Power
  now : Nat
  free : Nat
  pending : List Instr
  nodes : Table NodeEntry 128
  records : Table NodeRecord 128
  expectations : Table (Option Expectation) 128
  sweep : Sweep
  ring : Option Exchange
  dispatch : Dispatch
  mode : RiseMode
  level : LevelUnit
  segments : Table SegmentEntry 32
  walls : Table SegmentLive 32
  pourClock : Nat
  placementSeen : Option CycleResult
  feed : Feed
  conditions : Conditions
  monitors : Monitors
  markers : Markers
  command : CommandUnit
  params : Params
  agents : Agents
  console : Console
  relays : Relays
  transit : Transit
  jobs : List BeaconJob
  deriving DecidableEq, Repr

/-- Faults. The LW740 stops at no command: the type has no constructor, so no step of the model faults. This is safe:
nothing is hidden behind a stop. -/
inductive Fault where
  deriving DecidableEq, Repr

/-- Refusals. -/
inductive Refusal where
  /-- Raised by exec's arm of a command that has no meaning yet; safe, since the run stops there. -/
  | notModelled (mnemonic : String)
  deriving DecidableEq, Repr

/-! ## Values at POWER_ON -/

/-- A Node Table entry at POWER_ON (R1). -/
def NodeEntry.initial : NodeEntry :=
  { enabled := false, address := 1, kind := .sensor, strokeMax := none, zero := none }

/-- The DISABLED form of a node record (R2). -/
def NodeRecord.disabledForm : NodeRecord :=
  { state := .disabled, missCount := 0, lastReport := none, previousHeight := none, shortCounter := 0,
    pollDue := none, lastExchangeEnd := none }

/-- The record of a newly enabled slot (R8). -/
def NodeRecord.fresh : NodeRecord := { NodeRecord.disabledForm with state := .active }

/-- The dispatch record in IDLE (R21). -/
def Dispatch.idle : Dispatch :=
  { state := .idle, tag := none, entries := [], cursor := none, windowEndsAt := none }

/-- The Level Unit after either reset (R40). -/
def LevelUnit.initial : LevelUnit :=
  { cycleNumber := 0, remainder := 0, rateClock := none, latest := none }

/-- A Segment Table entry at POWER_ON (R60). -/
def SegmentEntry.initial : SegmentEntry := { enabled := false, area := 100, startTop := 0 }

/-- A segment's live state at POWER_ON (R62). -/
def SegmentLive.initial : SegmentLive :=
  { top := 0, base := 0, remainder := 0, placedTotal := 0, claim := none, queue := [] }

/-- A Feed Descriptor Table entry at POWER_ON (R81). -/
def DescriptorEntry.initial : DescriptorEntry :=
  { enabled := false, segment := 0, outlet := 0, litres := 1, next := none, pauseAfter := false, mark := false }

/-- A channel context at POWER_ON (R83). -/
def ChannelContext.initial : ChannelContext :=
  { state := .idle, current := none, working := none, delivered := 0, tag := 0, openConfirmed := false,
    closeCause := none, closeSent := false, void := false, blockReason := .none, blockedSince := none,
    blockTimer := none, dwellEndsAt := none, pause := none, deferred := [] }

/-- The Feed Chain Engine at POWER_ON (R81, R83, R84). -/
def Feed.initial : Feed :=
  { descriptors := Table.const 64 DescriptorEntry.initial, channelA := ChannelContext.initial,
    channelB := ChannelContext.initial, outletClaims := Table.const 128 none, tagCounter := 0, note := none,
    waiting := [], seen := none }

/-- A condition record after either reset (R125, R140). -/
def CondRecord.initial : CondRecord := { state := .idle, source := false, detail := none, count := 0 }

/-- The Condition Unit after either reset (R125, R134, R140). -/
def Conditions.initial : Conditions :=
  { records := Table.const 18 CondRecord.initial, masked := Table.const 18 false }

/-- A Limit Monitor Table entry at POWER_ON (R142). -/
def MonitorEntry.initial : MonitorEntry :=
  { enabled := false, sensor := 0, direction := .rising, levels := Table.const 4 0, select := 0, hysteresis := 0,
    cls := .note }

/-- A monitor record at POWER_ON (R143). -/
def MonitorRecord.initial : MonitorRecord :=
  { tripped := false, cause := none, lastValue := none, judgedAt := none }

/-- A Marker Table entry at POWER_ON (R149). -/
def MarkerEntry.initial : MarkerEntry := { enabled := false, height := 0, action := .hold }

/-- A Forwarding Table entry at POWER_ON (R181). -/
def AgentEntry.initial : AgentEntry :=
  { enabled := false, matchKind := .any, low := 0, high := 127, everyN := 1, form := .full, rank := 3 }

/-- The Parameter Record at POWER_ON, in the order of the indices (R161). -/
def Params.initial : Params :=
  { values := #v[20000, 8000, 10000, 8, 3, 1000, 10000, 3, 8, 250, 3000, 0, 150, 80, 400, 20, 30, 30, 3, 12000, 3000,
      500, 14400, 90, 20, 120, 2000, 1, 1, 1, 1, 1] }

/-- The Command Unit at POWER_ON (R159). -/
def CommandUnit.initial : CommandUnit :=
  { staged := [], commitPending := false, commitSeq := none, startCause := .powerOn,
    user := { w0 := 0, w1 := 0, w2 := 0, w3 := 0 } }

/-- Nothing on its way to any block. -/
def Transit.initial : Transit :=
  { dispatchResults := [], retirements := [], placementResults := [], markerResults := [], feedResults := [], spreadSwitches := [],
    sweepModes := [], dispatchModes := [], rateModes := [], feedModes := [], silenceModes := [], relayModes := [] }

/-- Console traffic at POWER_ON taken at `now` (R177 to R187). -/
def Console.initial (now : Nat) : Console :=
  { receptionErrors := 0, silence := { latestValid := now, evaluated := false }, replies := [], forward := [],
    budget := 0, forwardHeld := false, unsent := none, sending := none, startFlag := true, tx := none }

/-- The part right after POWER_ON taken at the moment `now` (R176), with `pending` as the queue of waiting commands and
`free` as the index of the free values. -/
def State.powerOn (now free : Nat) (pending : List Instr) : State :=
  { power := { supply := true, resetPinLow := false, ringDriver := false, consoleDriver := true }
    now := now
    free := free
    pending := pending
    nodes := Table.const 128 NodeEntry.initial
    records := Table.const 128 NodeRecord.disabledForm
    expectations := Table.const 128 none
    sweep := { running := false, dueAt := now, startedAt := none, polled := [], cursor := none, replies := [] }
    ring := none
    dispatch := Dispatch.idle
    mode := .idle
    level := LevelUnit.initial
    segments := Table.const 32 SegmentEntry.initial
    walls := Table.const 32 SegmentLive.initial
    pourClock := 0
    placementSeen := none
    feed := Feed.initial
    conditions := Conditions.initial
    monitors := { entries := Table.const 8 MonitorEntry.initial, records := Table.const 8 MonitorRecord.initial }
    markers := { entries := Table.const 24 MarkerEntry.initial, spent := Table.const 24 false, latest := none }
    command := CommandUnit.initial
    params := Params.initial
    agents := { entries := Table.const 16 AgentEntry.initial, counters := Table.const 16 0,
                drops := Table.const 16 0 }
    console := Console.initial now
    relays := { slots := Table.const 4 none, discards := 0 }
    transit := Transit.initial
    jobs := [] }

/-- The part right after reset: POWER_ON at time 0 with no command waiting. -/
def State.reset : State := State.powerOn 0 0 []

end Sys2Proof.Machine
end

