-- ==== Sys2Proof/Machine/Ops.lean ====
section
/-! DEFINITION. The named operations over the state: one update per block, the indexed reads and writes of the tables,
the parameters by name, and the reply queue. -/

namespace Sys2Proof.Machine

open Sys2Proof

/-! ## One update per block -/

/-- The state with `power` replaced. -/
def State.withPower (s : State) (x : Power) : State := { s with power := x }

/-- The state with `now` replaced. -/
def State.withNow (s : State) (x : Nat) : State := { s with now := x }

/-- The state with `free` replaced. -/
def State.withFree (s : State) (x : Nat) : State := { s with free := x }

/-- The state with `pending` replaced. -/
def State.withPending (s : State) (x : List Instr) : State := { s with pending := x }

/-- The state with `nodes` replaced. -/
def State.withNodes (s : State) (x : Table NodeEntry 128) : State := { s with nodes := x }

/-- The state with `records` replaced. -/
def State.withRecords (s : State) (x : Table NodeRecord 128) : State := { s with records := x }

/-- The state with `expectations` replaced. -/
def State.withExpectations (s : State) (x : Table (Option Expectation) 128) : State := { s with expectations := x }

/-- The state with `sweep` replaced. -/
def State.withSweep (s : State) (x : Sweep) : State := { s with sweep := x }

/-- The state with `ring` replaced. -/
def State.withRing (s : State) (x : Option Exchange) : State := { s with ring := x }

/-- The state with `dispatch` replaced. -/
def State.withDispatch (s : State) (x : Dispatch) : State := { s with dispatch := x }

/-- The state with `mode` replaced. -/
def State.withMode (s : State) (x : RiseMode) : State := { s with mode := x }

/-- The state with `level` replaced. -/
def State.withLevel (s : State) (x : LevelUnit) : State := { s with level := x }

/-- The state with `segments` replaced. -/
def State.withSegments (s : State) (x : Table SegmentEntry 32) : State := { s with segments := x }

/-- The state with `walls` replaced. -/
def State.withWalls (s : State) (x : Table SegmentLive 32) : State := { s with walls := x }

/-- The state with `pourClock` replaced. -/
def State.withPourClock (s : State) (x : Nat) : State := { s with pourClock := x }

/-- The state with `placementSeen` replaced. -/
def State.withPlacementSeen (s : State) (x : Option CycleResult) : State := { s with placementSeen := x }

/-- The state with `feed` replaced. -/
def State.withFeed (s : State) (x : Feed) : State := { s with feed := x }

/-- The state with `conditions` replaced. -/
def State.withConditions (s : State) (x : Conditions) : State := { s with conditions := x }

/-- The state with `monitors` replaced. -/
def State.withMonitors (s : State) (x : Monitors) : State := { s with monitors := x }

/-- The state with `markers` replaced. -/
def State.withMarkers (s : State) (x : Markers) : State := { s with markers := x }

/-- The state with `command` replaced. -/
def State.withCommand (s : State) (x : CommandUnit) : State := { s with command := x }

/-- The state with `params` replaced. -/
def State.withParams (s : State) (x : Params) : State := { s with params := x }

/-- The state with `agents` replaced. -/
def State.withAgents (s : State) (x : Agents) : State := { s with agents := x }

/-- The state with `console` replaced. -/
def State.withConsole (s : State) (x : Console) : State := { s with console := x }

/-- The state with `relays` replaced. -/
def State.withRelays (s : State) (x : Relays) : State := { s with relays := x }

/-- The state with `transit` replaced. -/
def State.withTransit (s : State) (x : Transit) : State := { s with transit := x }

/-- The state with `jobs` replaced. -/
def State.withJobs (s : State) (x : List BeaconJob) : State := { s with jobs := x }

/-! ## Counters -/

/-- A saturating sum (section 5.3). -/
def satAdd (limit a b : Nat) : Nat := min limit (a + b)

/-- A value clamped to a range (section 5.3). -/
def clampInt (low high x : Int) : Int := max low (min high x)

/-! ## Indexed state -/

/-- All the slots, ascending. -/
def allSlots : List Slot := List.finRange 128

/-- All the segments, ascending. -/
def allSegments : List SegmentIx := List.finRange 32

/-- The Node Table entry of a slot (R1). -/
def State.node (s : State) (i : Slot) : NodeEntry := s.nodes.read i

/-- The node record of a slot (R2). -/
def State.record (s : State) (i : Slot) : NodeRecord := s.records.read i

/-- The state with a slot's node record replaced. -/
def State.setRecord (s : State) (i : Slot) (r : NodeRecord) : State := s.withRecords (s.records.write i r)

/-- The stroke expectation of a slot (R29). -/
def State.expectation (s : State) (i : Slot) : Option Expectation := s.expectations.read i

/-- The state with a slot's stroke expectation replaced. -/
def State.setExpectation (s : State) (i : Slot) (e : Option Expectation) : State :=
  s.withExpectations (s.expectations.write i e)

/-- The Segment Table entry of a segment (R60). -/
def State.segment (s : State) (k : SegmentIx) : SegmentEntry := s.segments.read k

/-- The live state of a segment (R61). -/
def State.wall (s : State) (k : SegmentIx) : SegmentLive := s.walls.read k

/-- The state with a segment's live state replaced. -/
def State.setWall (s : State) (k : SegmentIx) (w : SegmentLive) : State := s.withWalls (s.walls.write k w)

/-- The descriptor entry at an index (R81). -/
def State.descriptor (s : State) (d : DescriptorIx) : DescriptorEntry := s.feed.descriptors.read d

/-- The other channel. -/
def otherChannel : Channel → Channel
  | .a => .b
  | .b => .a

/-- The context of a channel (R83). -/
def Feed.channel (f : Feed) : Channel → ChannelContext
  | .a => f.channelA
  | .b => f.channelB

/-- The feed with a channel's context replaced. -/
def Feed.setChannel (f : Feed) (c : Channel) (x : ChannelContext) : Feed :=
  match c with
  | .a => { f with channelA := x }
  | .b => { f with channelB := x }

/-- The context of a channel (R83). -/
def State.channel (s : State) (c : Channel) : ChannelContext := s.feed.channel c

/-- The state with a channel's context replaced. -/
def State.setChannel (s : State) (c : Channel) (x : ChannelContext) : State := s.withFeed (s.feed.setChannel c x)

/-! ## The Parameter Record by name (R161) -/

/-- The value of a parameter. -/
def Params.value (p : Params) (i : ParamIx) : Nat := p.values.read i

/-- The Parameter Record with one value replaced. -/
def Params.set (p : Params) (i : ParamIx) (v : Nat) : Params := { values := p.values.write i v }

/-- `cycle_ms`. -/
def Params.cycleMs (p : Params) : Nat := p.value 0

/-- `stroke_ms`. -/
def Params.strokeMs (p : Params) : Nat := p.value 1

/-- `idle_ms`. -/
def Params.idleMs (p : Params) : Nat := p.value 2

/-- `reply_window_ms`. -/
def Params.replyWindowMs (p : Params) : Nat := p.value 3

/-- `miss_limit`. -/
def Params.missLimit (p : Params) : Nat := p.value 4

/-- `outlet_poll_ms`. -/
def Params.outletPollMs (p : Params) : Nat := p.value 5

/-- `silence_ms`. -/
def Params.silenceMs (p : Params) : Nat := p.value 6

/-- `min_jacks`. -/
def Params.minJacks (p : Params) : Nat := p.value 7

/-- `gain`. -/
def Params.gain (p : Params) : Nat := p.value 8

/-- `s_max`. -/
def Params.sMax (p : Params) : Nat := p.value 9

/-- `rate_max`. -/
def Params.rateMax (p : Params) : Nat := p.value 10

/-- `rate_req`. -/
def Params.rateReq (p : Params) : Nat := p.value 11

/-- `trim_band`. -/
def Params.trimBand (p : Params) : Nat := p.value 12

/-- `trim_exit`. -/
def Params.trimExit (p : Params) : Nat := p.value 13

/-- `halt_band`. -/
def Params.haltBand (p : Params) : Nat := p.value 14

/-- `slip_tol`. -/
def Params.slipTol (p : Params) : Nat := p.value 15

/-- `over_tol`. -/
def Params.overTol (p : Params) : Nat := p.value 16

/-- `short_tol`. -/
def Params.shortTol (p : Params) : Nat := p.value 17

/-- `short_limit`. -/
def Params.shortLimit (p : Params) : Nat := p.value 18

/-- `form_height`. -/
def Params.formHeight (p : Params) : Nat := p.value 19

/-- `max_void`. -/
def Params.maxVoid (p : Params) : Nat := p.value 20

/-- `freeboard`. -/
def Params.freeboard (p : Params) : Nat := p.value 21

/-- `set_age_s`. -/
def Params.setAgeS (p : Params) : Nat := p.value 22

/-- `dwell_s`. -/
def Params.dwellS (p : Params) : Nat := p.value 23

/-- `pause_s`. -/
def Params.pauseS (p : Params) : Nat := p.value 24

/-- `block_s`. -/
def Params.blockS (p : Params) : Nat := p.value 25

/-- `fwd_budget`. -/
def Params.fwdBudget (p : Params) : Nat := p.value 26

/-- Whether the CYCLE section of the beacon is enabled. PRESUMED, unsafe: of the two values of a section enable 1 is yes
(R161, R192, notes/assumptions/41.md), here and in the four that follow. -/
def Params.cycleSection (p : Params) : Bool := p.value 27 == 1

/-- Whether the CONDITIONS section of the beacon is enabled. -/
def Params.conditionsSection (p : Params) : Bool := p.value 28 == 1

/-- Whether the SEGMENTS section of the beacon is enabled. -/
def Params.segmentsSection (p : Params) : Bool := p.value 29 == 1

/-- Whether the JACKS section of the beacon is enabled. -/
def Params.jacksSection (p : Params) : Bool := p.value 30 == 1

/-- Whether the USER section of the beacon is enabled. -/
def Params.userSection (p : Params) : Bool := p.value 31 == 1

/-- `rate_req` written by SET RATE or a RATE marker: clamped to the `rate_max` in force (R49). -/
def State.writeRate (s : State) (rate : Nat) : State :=
  s.withParams (s.params.set 11 (min rate s.params.rateMax))

/-! ## Power -/

/-- Whether the part runs: supplied, and its reset pin not held low (R197). -/
def State.running (s : State) : Bool := s.power.supply && !s.power.resetPinLow

/-- An event at the part: while the part is unpowered or held (R197) nothing happens in it. -/
def State.whenRunning (s : State) (f : State → State) : State := if s.running then f s else s

/-! ## The reply queue (R179) -/

/-- Whether a record of the reply queue is an OVERFLOW. -/
def ReplyRecord.isOverflow : ReplyRecord → Bool
  | .overflow _ => true
  | _ => false

/-- The OVERFLOW record with one more loss counted; another record is left as it is. -/
def ReplyRecord.countLoss : ReplyRecord → ReplyRecord
  | .overflow lost => .overflow (satAdd 255 lost 1)
  | r => r

/-- A reply or COMMIT_DONE joins the queue, or is counted as lost (R179). -/
def enqueueReply (queue : List ReplyRecord) (r : ReplyRecord) : List ReplyRecord :=
  if queue.any ReplyRecord.isOverflow then queue.map ReplyRecord.countLoss
  else if queue.length < Config.replyPlaces then queue ++ [r]
  else queue ++ [.overflow 1]

/-- The state after a reply or COMMIT_DONE has been added (R179). -/
def State.addReply (s : State) (r : ReplyRecord) : State :=
  s.withConsole { s.console with replies := enqueueReply s.console.replies r }

/-! ## Free values -/

/-- One event that is a decision point of both channels: the order of the two is free (R84). -/
def State.bothChannels (s : State) (f : Channel → State → State) : State :=
  let first : Channel := if Config.channelBFirst s.free then .b else .a
  f (otherChannel first) (f first (s.withFree (s.free + 1)))

end Sys2Proof.Machine
end

