-- ==== Sys2Proof/Machine/Flags.lean ====
section
/-! DEFINITION. The condition records, the report mask and the rise mode they move (chapters 6 and 7). -/

namespace Sys2Proof.Machine

open Sys2Proof

/-! ## The fixed fields of a condition (R124) -/

/-- Number of a condition, which is its priority. -/
def Cond.num : Cond → Fin 18
  | .ringDown => 0
  | .levelLimit => 1
  | .jackSlip => 2
  | .greenExit => 3
  | .quorum => 4
  | .jackLost => 5
  | .consoleSilent => 6
  | .monitorHold => 7
  | .jackOver => 8
  | .markerHold => 9
  | .manualHold => 10
  | .jackShort => 11
  | .feedFault => 12
  | .feedShort => 13
  | .feedJam => 14
  | .monitorNote => 15
  | .cycleLate => 16
  | .nodeLost => 17

/-- The conditions in ascending number. -/
def Cond.all : List Cond :=
  [.ringDown, .levelLimit, .jackSlip, .greenExit, .quorum, .jackLost, .consoleSilent, .monitorHold, .jackOver,
   .markerHold, .manualHold, .jackShort, .feedFault, .feedShort, .feedJam, .monitorNote, .cycleLate, .nodeLost]

/-- The condition of a number. -/
def Cond.ofNum (n : Nat) : Option Cond := Cond.all[n]?

/-- Class of a condition. -/
def Cond.cls : Cond → CondClass
  | .ringDown | .levelLimit | .jackSlip => .halt
  | .greenExit | .quorum | .jackLost | .consoleSilent | .monitorHold | .jackOver | .markerHold | .manualHold => .hold
  | .jackShort | .feedFault | .feedShort | .feedJam | .monitorNote | .cycleLate | .nodeLost => .note

/-- Kind of a condition. -/
def Cond.kind : Cond → CondKind
  | .jackSlip | .greenExit | .jackOver | .markerHold | .feedFault | .feedShort | .cycleLate => .momentary
  | .ringDown | .levelLimit | .quorum | .jackLost | .consoleSilent | .monitorHold | .manualHold | .jackShort
  | .feedJam | .monitorNote | .nodeLost => .level

/-- Whether a condition holds a detail. -/
def Cond.hasDetail : Cond → Bool
  | .ringDown | .levelLimit | .quorum | .consoleSilent | .manualHold | .cycleLate => false
  | .jackSlip | .greenExit | .jackLost | .monitorHold | .jackOver | .markerHold | .jackShort | .feedFault | .feedShort
  | .feedJam | .monitorNote | .nodeLost => true

/-! ## Records -/

/-- The record of a condition. -/
def State.condition (s : State) (c : Cond) : CondRecord := s.conditions.records.read c.num

/-- The state with a condition's record replaced. -/
def State.setCondition (s : State) (c : Cond) (r : CondRecord) : State :=
  s.withConditions { s.conditions with records := s.conditions.records.write c.num r }

/-- Whether a condition is IDLE. -/
def State.quiet (s : State) (c : Cond) : Bool := (s.condition c).state == .idle

/-- Whether every HALT-class condition is IDLE (R113). -/
def State.haltQuiet (s : State) : Bool := Cond.all.all fun c => c.cls != .halt || s.quiet c

/-- Whether every HOLD-class condition is IDLE (R113). -/
def State.holdQuiet (s : State) : Bool := Cond.all.all fun c => c.cls != .hold || s.quiet c

/-! ## The rise mode -/

/-- The mode as the Rise Mode Controller takes a change of it (R108): the change is handed to the six blocks that act
on it. -/
def State.changeMode (s : State) (new : RiseMode) : State :=
  if s.mode = new then s
  else
    let m : ModeChange := { old := s.mode, new := new, moment := s.now }
    let t := s.transit
    (s.withMode new).withTransit
      { t with sweepModes := t.sweepModes ++ [m], dispatchModes := t.dispatchModes ++ [m],
               rateModes := t.rateModes ++ [m], feedModes := t.feedModes ++ [m],
               silenceModes := t.silenceModes ++ [m], relayModes := t.relayModes ++ [m] }

/-- The mode a hold ends in: CLIMB or TRIM by the spread of the latest cycle result (R111). -/
def State.resumeMode (s : State) : RiseMode :=
  match s.level.latest with
  | some r => if r.spread ≤ s.params.trimBand then .climb else .trim
  | none => .climb

/-- A condition has left IDLE (R109, R110, R133). -/
def State.conditionLeft (s : State) (c : Cond) : State :=
  match c.cls, s.mode with
  | .halt, .climb => s.changeMode .halt
  | .halt, .trim => s.changeMode .halt
  | .halt, .hold => s.changeMode .halt
  | .hold, .climb => s.changeMode .hold
  | .hold, .trim => s.changeMode .hold
  | _, _ => s

/-- A condition has returned to IDLE (R111, R133). -/
def State.conditionReturned (s : State) (c : Cond) : State :=
  if c.cls = .hold ∧ s.mode = .hold ∧ s.haltQuiet ∧ s.holdQuiet then s.changeMode s.resumeMode else s

/-! ## Raises, clears and acknowledgement -/

/-- A record after a raise (R128, R129, R130). -/
def CondRecord.raised (r : CondRecord) (c : Cond) (detail : Option Nat) : CondRecord :=
  { state := match c.kind with
      | .level => .raised
      | .momentary => .uncleared
    source := match c.kind with
      | .level => true
      | .momentary => false
    detail := if c.hasDetail then detail else r.detail
    count := satAdd 255 r.count 1 }

/-- A raise of either kind (R128), handed to the Rise Mode Controller if the condition leaves IDLE (R133). -/
def State.raise (s : State) (c : Cond) (detail : Option Nat) : State :=
  let r := s.condition c
  let s' := s.setCondition c (r.raised c detail)
  if r.state = .idle then s'.conditionLeft c else s'

/-- A record after a clear of its source (R129). -/
def CondRecord.cleared (r : CondRecord) : CondRecord :=
  { r with source := false,
           state := match r.state with
             | .raised => .uncleared
             | .standing => .idle
             | .uncleared => .uncleared
             | .idle => .idle }

/-- A clear of a LEVEL condition's source (R129). -/
def State.clear (s : State) (c : Cond) : State :=
  let r := s.condition c
  let s' := s.setCondition c r.cleared
  if r.state = .standing then s'.conditionReturned c else s'

/-- An evaluation of a LEVEL source (R126). -/
def State.evaluate (s : State) (c : Cond) (active : Bool) (detail : Option Nat) : State :=
  match (s.condition c).source, active with
  | false, true => s.raise c detail
  | true, false => s.clear c
  | true, true => s
  | false, false => s

/-- The state of a condition after ACK (R129, R130, R132). -/
def CondState.acknowledged : CondState → CondState
  | .idle => .idle
  | .raised => .standing
  | .standing => .standing
  | .uncleared => .idle

/-- ACK of a condition that is not IDLE (R132). -/
def State.acknowledge (s : State) (c : Cond) : State :=
  let r := s.condition c
  let s' := s.setCondition c { r with state := r.state.acknowledged }
  if r.state = .uncleared then s'.conditionReturned c else s'

/-- RELEASE: MANUAL_HOLD goes to IDLE from any state (R116, R131). -/
def State.releaseManual (s : State) : State :=
  let r := s.condition .manualHold
  let s' := s.setCondition .manualHold { r with state := .idle, source := false }
  if r.state = .idle then s' else s'.conditionReturned .manualHold

/-! ## Reporting (R134, R135) -/

/-- Whether a condition is masked. -/
def State.isMasked (s : State) (c : Cond) : Bool := s.conditions.masked.read c.num

/-- The reported set: the conditions that are not IDLE and are unmasked, ascending. -/
def State.reportedSet (s : State) : List Cond := Cond.all.filter fun c => !s.quiet c && !s.isMasked c

/-- The top condition. -/
def State.topCondition (s : State) : Option Cond := s.reportedSet.head?

/-- A condition set as its 24-bit field: bit n stands for condition n (R195). -/
def condSet (cs : List Cond) : Nat := (cs.map fun c => 2 ^ c.num.val).sum

end Sys2Proof.Machine
end

