-- ==== Sys2Proof/Machine/Operands.lean ====
section
/-! DEFINITION. Operand forms: how fields are read from argument bytes and written into payload bytes (R163, R192,
R195). -/

namespace Sys2Proof.Machine

open Sys2Proof

/-! ## Codes of enumerated fields, in the order of their values (R192) -/

/-- Node kind: JACK 0, OUTLET 1, SENSOR 2. -/
def NodeKind.code : NodeKind → Byte
  | .jack => 0
  | .outlet => 1
  | .sensor => 2

/-- Node state (R2). -/
def NodeState.code : NodeState → Byte
  | .active => 0
  | .stale => 1
  | .lost => 2
  | .faulted => 3
  | .disabled => 4

/-- Rise mode: IDLE 0, CLIMB 1, TRIM 2, HOLD 3, HALT 4. -/
def RiseMode.code : RiseMode → Byte
  | .idle => 0
  | .climb => 1
  | .trim => 2
  | .hold => 3
  | .halt => 4

/-- Binding (R58). -/
def Binding.code : Binding → Byte
  | .rate => 0
  | .fill => 1
  | .set => 2
  | .cap => 3
  | .none => 4

/-- Channel: A 0, B 1. -/
def channelCode : Channel → Byte
  | .a => 0
  | .b => 1

/-- A claim: none 0, A 1, B 2 (R61). -/
def claimCode : Option Channel → Byte
  | none => 0
  | some .a => 1
  | some .b => 2

/-- Source of a layer record (R65). -/
def LayerSource.code : LayerSource → Byte
  | .a => 0
  | .b => 1
  | .manual => 2

/-- Channel state (R83). -/
def ChannelState.code : ChannelState → Byte
  | .idle => 0
  | .wait => 1
  | .opened => 2
  | .closing => 3
  | .paused => 4
  | .done => 5
  | .stopped => 6

/-- Close cause, 255 when absent (R83). -/
def closeCauseCode : Option CloseCause → Byte
  | none => 255
  | some .dwell => 0
  | some .full => 1
  | some .notReady => 2
  | some .void => 3
  | some .stop => 4
  | some .halt => 5

/-- Block reason (R83). -/
def BlockReason.code : BlockReason → Byte
  | .none => 0
  | .notReady => 1
  | .segmentFull => 2
  | .segmentBusy => 3
  | .outletBusy => 4
  | .noRef => 5

/-- Pause kind (R83). -/
def PauseKind.code : PauseKind → Byte
  | .resume => 0
  | .after => 1

/-- Condition class (R124). PRESUMED, unsafe: numbered in the order HALT, HOLD, NOTE (notes/assumptions/18.md). -/
def CondClass.code : CondClass → Byte
  | .halt => 0
  | .hold => 1
  | .note => 2

/-- Condition kind (R124). PRESUMED, unsafe: numbered in the order LEVEL, MOMENTARY (notes/assumptions/18.md). -/
def CondKind.code : CondKind → Byte
  | .level => 0
  | .momentary => 1

/-- Condition state (R125). -/
def CondState.code : CondState → Byte
  | .idle => 0
  | .raised => 1
  | .standing => 2
  | .uncleared => 3

/-- Source field of a condition record: active 0, inactive 1 (R125). -/
def sourceCode (active : Bool) : Byte := if active then 0 else 1

/-- Monitor direction (R142). -/
def Direction.code : Direction → Byte
  | .rising => 0
  | .falling => 1

/-- Monitor class: HOLD 0, NOTE 1 (R142). -/
def MonitorClass.code : MonitorClass → Byte
  | .hold => 0
  | .note => 1

/-- Trip cause, 255 when absent (R143). -/
def tripCauseCode : Option TripCause → Byte
  | none => 255
  | some .value => 0
  | some .sensorLost => 1
  | some .sensorFaulted => 2
  | some .sensorAbsent => 3

/-- Start cause (R159). -/
def StartCause.code : StartCause → Byte
  | .powerOn => 0
  | .restart => 1

/-- Match kind of an agent (R181). -/
def MatchKind.code : MatchKind → Byte
  | .any => 0
  | .jack => 1
  | .outlet => 2
  | .sensor => 3

/-- Form of a FORWARD record (R181). -/
def ForwardForm.code : ForwardForm → Byte
  | .full => 0
  | .compact => 1

/-- Relay state (R188). -/
def RelayState.code : RelayState → Byte
  | .queued => 0
  | .inFlight => 1
  | .done => 2
  | .failed => 3

/-- Outcome codes 0 to 10 (R195). -/
def OutcomeCode.code : OutcomeCode → Byte
  | .ok => 0
  | .unknown => 1
  | .malformed => 2
  | .busy => 3
  | .full => 4
  | .invalid => 5
  | .notReady => 6
  | .notNow => 7
  | .conflict => 8
  | .pending => 9
  | .noSuch => 10

/-! ## Writing fields (R192) -/

/-- A yes/no field: 0 or 1 (R192). PRESUMED, unsafe: 1 is yes and 0 is no (notes/assumptions/41.md). -/
def yesNoByte (b : Bool) : Byte := if b then 1 else 0

/-- An optional index, 255 when absent. -/
def optIndex {n : Nat} : Option (Fin n) → Byte
  | none => 255
  | some i => u8 i.val

/-- The absent value of a signed four-byte field (R186, R192). -/
def absent32 : Int := -2147483648

/-- A signed tm value in four bytes, or absent. -/
def optTm (x : Option Int) : List Byte := i32 (x.getD absent32)

/-- An unsigned tm value in four bytes, or absent. -/
def optHeight (x : Option Nat) : List Byte := optTm (x.map Int.ofNat)

/-- A value of a signed 16-bit field that carries no-data (R186). -/
def noData16 : Int := -32768

/-- A JACKS error or a COMPACT value: no-data when absent, cut to −32,767 and 32,767 (R186). -/
def optSigned16 : Option Int → List Byte
  | none => i16 noData16
  | some x => i16 (clampInt (-32767) 32767 x)

/-- A time field: a signed distance in ms from the moment the frame is built (R192). A distance that four bytes do not
hold is a free value. -/
def timeBytes (now : Nat) : Option Nat → List Byte
  | none => i32 absent32
  | some t =>
    let d : Int := (t : Int) - now
    if absent32 < d ∧ d ≤ 2147483647 then i32 d else u32 (Config.timeFieldOverflow d).toNat

/-- The bytes of a result field in a frame built at `now`. -/
def Field.encode (now : Nat) : Field → List Byte
  | .bytes bs => bs
  | .time t => timeBytes now t

/-- A list of bytes: one count byte, then the entries (R192). -/
def listBytes (bs : List Byte) : List Byte := u8 bs.length :: bs

/-! ## Reading arguments (R158, R163) -/

/-- A yes/no argument: 0 or 1 (R192). PRESUMED, unsafe: 1 is yes and 0 is no (notes/assumptions/41.md). -/
def yesNo? (b : Byte) : Option Bool := if b = 0 then some false else if b = 1 then some true else none

/-- An index argument below `n`. -/
def index? (n : Nat) (b : Byte) : Option (Fin n) := if h : b.toNat < n then some ⟨b.toNat, h⟩ else none

/-- An index argument below `n`, or 255 for none. -/
def optIndex? (n : Nat) (b : Byte) : Option (Option (Fin n)) :=
  if b = 255 then some none else (index? n b).map some

/-- A number within its stated range. -/
def ranged? (low high v : Nat) : Option Nat := if low ≤ v ∧ v ≤ high then some v else none

/-- A channel argument: 0 for A, 1 for B. -/
def channel? (b : Byte) : Option Channel := if b = 0 then some .a else if b = 1 then some .b else none

/-- A node kind argument. -/
def nodeKind? (b : Byte) : Option NodeKind :=
  if b = 0 then some .jack else if b = 1 then some .outlet else if b = 2 then some .sensor else none

/-- A monitor direction argument. -/
def direction? (b : Byte) : Option Direction := if b = 0 then some .rising else if b = 1 then some .falling else none

/-- A monitor class argument. -/
def monitorClass? (b : Byte) : Option MonitorClass := if b = 0 then some .hold else if b = 1 then some .note else none

/-- A match kind argument. -/
def matchKind? (b : Byte) : Option MatchKind :=
  if b = 0 then some .any else if b = 1 then some .jack else if b = 2 then some .outlet
  else if b = 3 then some .sensor else none

/-- A forward form argument. -/
def forwardForm? (b : Byte) : Option ForwardForm := if b = 0 then some .full else if b = 1 then some .compact else none

/-! ## WRITE entry fields (R163, R195) -/

/-- Fields of a NODE entry: 7 bytes for a JACK, 3 otherwise (R1, R195). -/
def parseNode : List Byte → Option NodeEntry
  | enabled :: address :: kind :: rest => do
    let en ← yesNo? enabled
    let ad ← ranged? 1 200 address.toNat
    let k ← nodeKind? kind
    match k, rest with
    | .jack, [m1, m0, z1, z0] =>
      let m ← ranged? 10 300 (natOfBytes [m1, m0])
      pure { enabled := en, address := ad, kind := .jack, strokeMax := some m, zero := some (intOfBytes16 [z1, z0]) }
    | .outlet, [] => pure { enabled := en, address := ad, kind := .outlet, strokeMax := none, zero := none }
    | .sensor, [] => pure { enabled := en, address := ad, kind := .sensor, strokeMax := none, zero := none }
    | _, _ => none
  | _ => none

/-- Fields of a SEGMENT entry (R60, R195). -/
def parseSegment : List Byte → Option SegmentEntry
  | [enabled, a3, a2, a1, a0, t3, t2, t1, t0] => do
    let en ← yesNo? enabled
    let area ← ranged? 100 200000 (natOfBytes [a3, a2, a1, a0])
    let top ← ranged? 0 Config.maxHeight (natOfBytes [t3, t2, t1, t0])
    pure { enabled := en, area := area, startTop := top }
  | _ => none

/-- Fields of a DESCRIPTOR entry (R81, R195). Flag bits above bit 1 are ignored (notes/assumptions/25.md). -/
def parseDescriptor : List Byte → Option DescriptorEntry
  | [enabled, seg, outlet, l1, l0, next, flags] => do
    let en ← yesNo? enabled
    let k ← index? 32 seg
    let o ← index? 128 outlet
    let l ← ranged? 1 4000 (natOfBytes [l1, l0])
    let nx ← optIndex? 64 next
    pure { enabled := en, segment := k, outlet := o, litres := l, next := nx,
           pauseAfter := flags.getLsbD 0, mark := flags.getLsbD 1 }
  | _ => none

/-- Fields of a MONITOR entry (R142, R195). -/
def parseMonitor : List Byte → Option MonitorEntry
  | [enabled, sensor, dir, a1, a0, b1, b0, c1, c0, d1, d0, select, h1, h0, cls] => do
    let en ← yesNo? enabled
    let i ← index? 128 sensor
    let dr ← direction? dir
    let sel ← index? 4 select
    let hy ← ranged? 0 1000 (natOfBytes [h1, h0])
    let cl ← monitorClass? cls
    pure { enabled := en, sensor := i, direction := dr,
           levels := #v[intOfBytes16 [a1, a0], intOfBytes16 [b1, b0], intOfBytes16 [c1, c0], intOfBytes16 [d1, d0]],
           select := sel, hysteresis := hy, cls := cl }
  | _ => none

/-- Fields of a MARKER entry: 6 bytes for HOLD, 8 for RATE, 7 for FEED_STOP (R149, R163, R195). -/
def parseMarker : List Byte → Option MarkerEntry
  | enabled :: h3 :: h2 :: h1 :: h0 :: action :: rest => do
    let en ← yesNo? enabled
    let height ← ranged? 0 Config.maxHeight (natOfBytes [h3, h2, h1, h0])
    let act ← match action.toNat, rest with
      | 0, [] => some MarkerAction.hold
      | 1, [r1, r0] => (ranged? 0 6000 (natOfBytes [r1, r0])).map MarkerAction.rate
      | 2, [c] => (channel? c).map MarkerAction.feedStop
      | _, _ => none
    pure { enabled := en, height := height, action := act }
  | _ => none

/-- Fields of an AGENT entry (R163, R181, R195). -/
def parseAgent : List Byte → Option AgentEntry
  | [enabled, kind, low, high, every, form, rank] => do
    let en ← yesNo? enabled
    let k ← matchKind? kind
    let lo ← index? 128 low
    let hi ← index? 128 high
    let n ← ranged? 1 255 every.toNat
    let f ← forwardForm? form
    let r ← index? 4 rank
    if lo ≤ hi then
      pure { enabled := en, matchKind := k, low := lo, high := hi, everyN := n, form := f, rank := r }
    else none
  | _ => none

/-- The range of a parameter at WRITE; `rate_req` has none (R161). -/
def paramRange (i : ParamIx) : Option (Nat × Nat) :=
  Table.read (#v[some (5000, 120000), some (2000, 60000), some (2000, 60000), some (2, 50), some (1, 15), some (200, 5000),
      some (1000, 60000), some (3, 128), some (0, 16), some (0, 250), some (0, 6000), none,
      some (10, 2000), some (0, 1999), some (11, 5000), some (1, 100), some (1, 250), some (1, 250),
      some (1, 15), some (6000, 20000), some (500, 10000), some (0, 10000), some (600, 86400), some (5, 600),
      some (0, 600), some (10, 3600), some (0, 8000), some (0, 1), some (0, 1), some (0, 1),
      some (0, 1), some (0, 1)] : Table (Option (Nat × Nat)) 32) i

/-- The bytes of a quantity whose range ends at a value: one up to 255, two up to 65,535, four beyond (R192). -/
def quantityBytes (last v : Nat) : List Byte := if last ≤ 255 then [u8 v] else if last ≤ 65535 then u16 v else u32 v

/-- The bytes of a parameter as READ sends it: a quantity by the end of its range, a section enable as one yes/no byte
(R161, R192, R195). DEDUCED, unsafe: `rate_req`, which has no range at WRITE, has the width of `rate_max`, its bound
(R49, notes/assumptions/18.md). -/
def paramBytes (i : ParamIx) (v : Nat) : List Byte :=
  match paramRange i with
  | some (_, last) => quantityBytes last v
  | none => quantityBytes 6000 v

/-- The value of a PARAMETER edit (R161, R163, R195). -/
def parseParam (i : ParamIx) : List Byte → Option Nat
  | [v3, v2, v1, v0] => do
    let (low, high) ← paramRange i
    ranged? low high (natOfBytes [v3, v2, v1, v0])
  | _ => none

/-- The edit that WRITE's arguments spell: table code, index, entry fields (R160, R163, R195). -/
def parseEdit : List Byte → Option Edit
  | table :: index :: fields =>
    match table.toNat with
    | 0 => do pure (.node (← index? 128 index) (← parseNode fields))
    | 1 => do pure (.segment (← index? 32 index) (← parseSegment fields))
    | 2 => do pure (.descriptor (← index? 64 index) (← parseDescriptor fields))
    | 3 => do pure (.monitor (← index? 8 index) (← parseMonitor fields))
    | 4 => do pure (.marker (← index? 24 index) (← parseMarker fields))
    | 5 => do pure (.agent (← index? 16 index) (← parseAgent fields))
    | 6 => do
      let i ← index? 32 index
      pure (.parameter i (← parseParam i fields))
    | _ => none
  | _ => none

/-- The table code and index an edit names (R160, R195). -/
def Edit.key : Edit → Nat × Nat
  | .node i _ => (0, i.val)
  | .segment i _ => (1, i.val)
  | .descriptor i _ => (2, i.val)
  | .monitor i _ => (3, i.val)
  | .marker i _ => (4, i.val)
  | .agent i _ => (5, i.val)
  | .parameter i _ => (6, i.val)

/-! ## Ring report payloads (R194) -/

/-- The content of a REPORT payload for a slot of a kind, where its length is the kind's (R194). -/
def parseReport (kind : NodeKind) (payload : List Byte) : Option Report :=
  match kind, payload with
  | .jack, [h2, h1, h0, tag, flags] => some (.jack (natOfBytes [h2, h1, h0]) tag.toNat (flags.getLsbD 0))
  | .outlet, [flags, d1, d0, tag] =>
    some (.outlet (flags.getLsbD 1) (flags.getLsbD 2) (flags.getLsbD 0) (natOfBytes [d1, d0]) tag.toNat)
  | .sensor, [v1, v0, flags] => some (.sensor (intOfBytes16 [v1, v0]) (flags.getLsbD 0))
  | _, _ => none

/-- The REPORT payload of a content, unnamed flag bits 0 (R194, R196). -/
def reportPayload : Report → List Byte
  | .jack height tag fault => u24 height ++ [u8 tag, yesNoByte fault]
  | .outlet ready ended fault delivered tag =>
    u8 (fault.toNat + 2 * ready.toNat + 4 * ended.toNat) :: (u16 delivered ++ [u8 tag])
  | .sensor value fault => i16 value ++ [yesNoByte fault]

/-- Whether a report carries the fault flag (R2). -/
def Report.fault : Report → Bool
  | .jack _ _ f => f
  | .outlet _ _ f _ _ => f
  | .sensor _ f => f

end Sys2Proof.Machine
end

