-- ==== Sys2Proof/Machine/Forward.lean ====
section
/-! DEFINITION. The Forwarding Unit: agents, FORWARD records and the forward queue (section 10.4). -/

namespace Sys2Proof.Machine

open Sys2Proof

/-- Whether an agent's match kind admits a kind of slot (R181). -/
def MatchKind.admits : MatchKind → NodeKind → Bool
  | .any, _ => true
  | .jack, .jack => true
  | .outlet, .outlet => true
  | .sensor, .sensor => true
  | .jack, _ => false
  | .outlet, _ => false
  | .sensor, _ => false

/-- Whether an agent takes the reports of a slot of a kind (R182). -/
def AgentEntry.takes (e : AgentEntry) (slot : Slot) (kind : NodeKind) : Bool :=
  e.enabled && e.matchKind.admits kind && decide (e.low ≤ slot) && decide (slot ≤ e.high)

/-- The agent that takes a report: the lowest index that matches (R182). -/
def State.takingAgent (s : State) (slot : Slot) (kind : NodeKind) : Option AgentIx :=
  (List.finRange 16).find? fun i => (s.agents.entries.read i).takes slot kind

/-- The COMPACT value of a report; `previous` is the previous height as R3 handed it to stroke verification (R182). -/
def compactValue (previous : Option Nat) : Report → Option Int
  | .jack height _ _ => previous.map fun p => (height : Int) - p
  | .outlet _ _ _ delivered _ => some delivered
  | .sensor value _ => some value

/-- One more report sacrificed of an agent (R183). -/
def Agents.countDrop (a : Agents) (i : AgentIx) : Agents :=
  { a with drops := a.drops.write i (satAdd 65535 (a.drops.read i) 1) }

/-- A record placed by rank: after every record of equal or higher rank, before every record of lower (R183). -/
def placeByRank (queue : List ForwardRecord) (r : ForwardRecord) : List ForwardRecord :=
  queue.takeWhile (fun q => decide (q.rank ≤ r.rank)) ++ r :: queue.dropWhile (fun q => decide (q.rank ≤ r.rank))

/-- The payload of a FORWARD frame (R196). -/
def ForwardRecord.payload (r : ForwardRecord) : List Byte :=
  match r.content with
  | .full state clock report =>
    [u8 r.agent.val, u8 r.rank.val, u8 r.slot.val, r.kind.code, ForwardForm.full.code, state.code] ++ u32 clock
      ++ reportPayload report
  | .compact value =>
    [u8 r.agent.val, u8 r.rank.val, u8 r.slot.val, r.kind.code, ForwardForm.compact.code] ++ optSigned16 value

/-- A frame of the console line (R192). -/
def consoleFrame (kind : Byte) (payload : List Byte) : List Byte :=
  envelopeFrame { address := 0, kind := kind, payload := payload }

/-- The FORWARD frame of a record (R196). -/
def ForwardRecord.frame (r : ForwardRecord) : List Byte := consoleFrame kindForward r.payload

/-- Whether the frame of the record at the head of the forward queue is longer than the budget (R180). -/
def Console.headTooLong (c : Console) : Bool :=
  match c.forward with
  | [] => false
  | r :: _ => decide (c.budget < r.frame.length)

/-- The console traffic after its forward queue or its budget has changed: a head that does not fit the budget holds every
FORWARD frame until the next refill (R180). DEDUCED, unsafe: the head is judged at each such change, also while another
frame is on the line (notes/assumptions/40.md). -/
def Console.judgeHead (c : Console) : Console := { c with forwardHeld := c.forwardHeld || c.headTooLong }

/-- The console traffic after its budget has been refilled (R184). -/
def Console.refilled (c : Console) (budget : Nat) : Console :=
  { c with budget := budget, forwardHeld := false }.judgeHead

/-- The state with its forward queue replaced. -/
def State.withForward (s : State) (q : List ForwardRecord) : State :=
  s.withConsole { s.console with forward := q }.judgeHead

/-- A FORWARD record reaches the forward queue (R183). The queue is ordered by rank and arrival, so its last record is
the newest of the lowest rank present. -/
def State.enqueueForward (s : State) (r : ForwardRecord) : State :=
  let queue := s.console.forward
  if queue.length < Config.forwardPlaces then
    s.withForward (placeByRank queue r)
  else match queue.getLast? with
    | some last =>
      if r.rank < last.rank then
        (s.withForward (placeByRank queue.dropLast r)).withAgents (s.agents.countDrop last.agent)
      else s.withAgents (s.agents.countDrop r.agent)
    | none => s.withAgents (s.agents.countDrop r.agent)

/-- A valid report is offered to the agents (R182). -/
def State.offerReport (s : State) (slot : Slot) (kind : NodeKind) (previous : Option Nat) (report : Report) : State :=
  match s.takingAgent slot kind with
  | none => s
  | some i =>
    let e := s.agents.entries.read i
    let count := s.agents.counters.read i + 1
    if count = e.everyN then
      let content : ForwardContent := match e.form with
        | .full => .full (s.record slot).state s.pourClock report
        | .compact => .compact (compactValue previous report)
      (s.withAgents { s.agents with counters := s.agents.counters.write i 0 }).enqueueForward
        { agent := i, rank := e.rank, slot := slot, kind := kind, content := content }
    else s.withAgents { s.agents with counters := s.agents.counters.write i count }

end Sys2Proof.Machine
end

