-- ==== Sys2Proof/Machine/Placement.lean ====
section
/-! DEFINITION. The Placement Store: placements, layer records, retirement, green exits and acceptance (chapter 4). -/

namespace Sys2Proof.Machine

open Sys2Proof

/-! ## Layer records -/

/-- Whether a layer record is unset at a pour clock (R72). -/
def Layer.unset (l : Layer) (clock setAge : Nat) : Bool := decide (clock - l.placedAt < setAge)

/-- The records of a queue with their bottoms: the top of the record before, or the base (R65). -/
def withBottoms : Nat → List Layer → List (Nat × Layer)
  | _, [] => []
  | base, l :: ls => (base, l) :: withBottoms l.top ls

/-- The bottom of the oldest unset record (R54, R72). -/
def SegmentLive.lowestUnset (w : SegmentLive) (clock setAge : Nat) : Option Nat :=
  ((withBottoms w.base w.queue).find? fun p => p.2.unset clock setAge).map Prod.fst

/-! ## Volume into height (R67, R68) -/

/-- The volume a placement has to turn into height, in hundred-thousandths of a litre (R67). -/
def SegmentLive.numerator (w : SegmentLive) (v : Nat) : Nat := v * 100000 + w.remainder

/-- The height gained by a placement, cut at the greatest height (R67). -/
def SegmentLive.gain (w : SegmentLive) (area v : Nat) : Nat :=
  min (w.numerator v / area) (Config.maxHeight - w.top)

/-- The new youngest record of a placement of `v` litres (R67). -/
def newLayer (top clock v : Nat) (source : LayerSource) (descriptor : Option DescriptorIx) : Layer :=
  { top := top, placedAt := clock, litres := v, source := source, descriptor := descriptor, greenExited := false }

/-- The youngest record with a placement merged into it (R68). -/
def Layer.merged (l : Layer) (gain clock v : Nat) (source : LayerSource) : Layer :=
  { l with top := l.top + gain, litres := satAdd Config.max32 l.litres v, placedAt := clock, descriptor := none,
           source := source }

/-- A queue after a placement that gained height (R67, R68). -/
def placeLayer (queue : List Layer) (top gain clock v : Nat) (source : LayerSource)
    (descriptor : Option DescriptorIx) : List Layer :=
  if queue.length < Config.layerPlaces then queue ++ [newLayer (top + gain) clock v source descriptor]
  else match queue.getLast? with
    | some l => queue.dropLast ++ [l.merged gain clock v source]
    | none => queue

/-- A segment's live state after a placement into it (R67, R68). -/
def SegmentLive.placed (w : SegmentLive) (area v clock : Nat) (source : LayerSource)
    (descriptor : Option DescriptorIx) : SegmentLive :=
  let gain := w.gain area v
  { w with
    remainder := w.numerator v % area
    placedTotal := satAdd Config.max32 w.placedTotal v
    top := w.top + gain
    queue := if gain = 0 then w.queue else placeLayer w.queue w.top gain clock v source descriptor }

/-! ## Green exits -/

/-- A record with the green-exited flag. -/
def Layer.flagged (l : Layer) : Layer := { l with greenExited := true }

/-- Whether a record is found green: unset, not flagged, bottom below B (R69, R74). -/
def foundGreen (b : Int) (clock setAge bottom : Nat) (l : Layer) : Bool :=
  l.unset clock setAge && !l.greenExited && decide ((bottom : Int) < b)

/-- GREEN_EXIT raised `n` times for a segment (R75). -/
def State.raiseGreen (s : State) (k : SegmentIx) (n : Nat) : State :=
  Nat.repeat (fun (t : State) => t.raise .greenExit (some k.val)) n s

/-- The check of a placement's record against the B that has reached the Placement Store (R69, R77). -/
def State.checkYoungest (s : State) (k : SegmentIx) : State :=
  let w := s.wall k
  match s.placementSeen.bind CycleResult.bottom, (withBottoms w.base w.queue).getLast? with
  | some b, some (bottom, l) =>
    if foundGreen b s.pourClock s.params.setAgeS bottom l then
      (s.setWall k { w with queue := w.queue.dropLast ++ [l.flagged] }).raiseGreen k 1
    else s
  | _, _ => s

/-- A placement taken whole by the Placement Store (R67 to R70). A placement into a segment that is not enabled is
discarded. -/
def State.takePlacement (s : State) (k : SegmentIx) (v : Nat) (source : LayerSource)
    (descriptor : Option DescriptorIx) : State :=
  let e := s.segment k
  if e.enabled then
    let w := s.wall k
    let s' := s.setWall k (w.placed e.area v s.pourClock source descriptor)
    if w.gain e.area v = 0 then s' else s'.checkYoungest k
  else s

/-- Retirement of a queue from its old end: the new base, the records left, and how many GREEN_EXIT raises (R73). -/
def retire (b : Int) (clock setAge : Nat) : Nat → List Layer → Nat × List Layer × Nat
  | base, [] => (base, [], 0)
  | base, l :: ls =>
    if (l.top : Int) ≤ b then
      let r := retire b clock setAge l.top ls
      (r.1, r.2.1, r.2.2 + if l.unset clock setAge && !l.greenExited then 1 else 0)
    else (base, l :: ls, 0)

/-- The records left after retirement with the flag on every one found green (R74). -/
def flagGreen (b : Int) (clock setAge base : Nat) (queue : List Layer) : List Layer :=
  (withBottoms base queue).map fun p => if foundGreen b clock setAge p.1 p.2 then p.2.flagged else p.2

/-- How many of the records left are found green (R74). -/
def countGreen (b : Int) (clock setAge base : Nat) (queue : List Layer) : Nat :=
  (withBottoms base queue).countP fun p => foundGreen b clock setAge p.1 p.2

/-- One enabled segment acts on a cycle result's B: retirement, then the check of what is left (R73, R74). -/
def State.retireSegment (b : Int) (s : State) (k : SegmentIx) : State :=
  if (s.segment k).enabled then
    let w := s.wall k
    let clock := s.pourClock
    let setAge := s.params.setAgeS
    let r := retire b clock setAge w.base w.queue
    (s.setWall k { w with base := r.1, queue := flagGreen b clock setAge r.1 r.2.1 }).raiseGreen k
      (r.2.2 + countGreen b clock setAge r.1 r.2.1)
  else s

/-- Every enabled segment acts on a cycle result, ascending (R73 to R75). -/
def State.retireAll (s : State) (r : CycleResult) : State :=
  match r.bottom with
  | some b => allSegments.foldl (State.retireSegment b) s
  | none => s

/-- The segment summary (R79). -/
def State.segmentSummary (s : State) : List SegmentSummary :=
  (allSegments.filter fun k => (s.segment k).enabled).map fun k =>
    { segment := k, top := (s.wall k).top, queueLength := (s.wall k).queue.length,
      lowestUnset := (s.wall k).lowestUnset s.pourClock s.params.setAgeS }

/-! ## Acceptance (R78) -/

/-- The Placement Store's answer for a segment, by the latest cycle result that has reached it (R78, R77). -/
def State.acceptance (s : State) (k : SegmentIx) : Acceptance :=
  match s.placementSeen.bind CycleResult.hRef with
  | none => .noReference
  | some h =>
    if (s.segment k).enabled ∧ ((s.wall k).top : Int) < h - s.params.freeboard then .accepts else .full

/-! ## Commits (R63) -/

/-- A segment's live state after a commit changed its entry from `old` to `new` (R63); the claim is left. -/
def SegmentLive.committed (w : SegmentLive) (old new : SegmentEntry) : SegmentLive :=
  if new.enabled && (!old.enabled || decide (old.area ≠ new.area) || decide (old.startTop ≠ new.startTop)) then
    { w with top := new.startTop, base := new.startTop, remainder := 0, placedTotal := 0, queue := [] }
  else w

/-- The live states at a commit application; `old` is the table before it. -/
def State.commitWalls (s : State) (old : Table SegmentEntry 32) : State :=
  s.withWalls (Table.tabulate fun k => (s.wall k).committed (old.read k) (s.segment k))

end Sys2Proof.Machine
end

