-- ==== Sys2Proof/Machine/Console.lean ====
section
/-! DEFINITION. The Console Port and the Beacon Builder: silence timer, replies, sending, beacons (chapter 10, R195,
R196). -/

namespace Sys2Proof.Machine

open Sys2Proof

/-! ## Reception and the silence timer (R177, R178) -/

/-- A frame that is not valid on the console line is counted (R177). -/
def State.rejectFrame (s : State) (f : RxFrame) : State :=
  if frameConsoleValid f then s
  else s.withConsole { s.console with receptionErrors := satAdd 65535 s.console.receptionErrors 1 }

/-- A valid frame restarts the silence timer and clears an active CONSOLE_SILENT source (R178). -/
def State.silenceReset (s : State) : State :=
  (s.withConsole { s.console with silence := { s.console.silence with latestValid := s.now } }).evaluate
    .consoleSilent false none

/-- The expiry time of the silence timer (R178). -/
def State.silenceEnds (s : State) : Nat := s.console.silence.latestValid + s.params.silenceMs

/-- Whether a mode is one in which the silence timer is evaluated (R178). -/
def RiseMode.evaluatesSilence : RiseMode → Bool
  | .climb => true
  | .trim => true
  | .hold => true
  | .idle => false
  | .halt => false

/-- The expiry time is reached (R178). -/
def State.silenceExpiry (s : State) : State :=
  if s.silenceEnds ≤ s.now ∧ s.console.silence.evaluated ∧ s.mode.evaluatesSilence ∧
      !(s.condition .consoleSilent).source then
    s.evaluate .consoleSilent true none
  else s

/-- The silence timer after a change of rise mode (R178). -/
def Silence.afterMode (x : Silence) (m : ModeChange) : Silence :=
  if m.new.evaluatesSilence then
    if m.old.evaluatesSilence then x else { latestValid := max x.latestValid m.moment, evaluated := true }
  else { x with evaluated := false }

/-- A change of rise mode reaches the Console Port (R178). -/
def State.silenceMode (s : State) (m : ModeChange) : State :=
  s.withConsole { s.console with silence := s.console.silence.afterMode m }

/-! ## Reply frames (R195) -/

/-- The bytes of result fields in a frame built at `now`. -/
def encodeFields (now : Nat) (fs : List Field) : List Byte := (fs.map (Field.encode now)).flatten

/-- The payload of a REPLY frame built at `now` (R195). -/
def ReplyRecord.payload (now : Nat) : ReplyRecord → List Byte
  | .reply seq code outcome fields => 0 :: seq :: code :: outcome.code :: encodeFields now fields
  | .commitDone seq edits cycle => 1 :: seq :: u8 edits :: u32 cycle
  | .overflow lost => [2, u8 lost]

/-! ## Beacons (R185 to R187, R196) -/

/-- The bytes of a beacon entry (R196). -/
def BeaconEntry.encode : BeaconEntry → List Byte
  | .head start number errors discards => [0, 0xB1, yesNoByte start] ++ u32 number ++ u16 errors ++ u16 discards
  | .cycle r clock marker note =>
    [1, r.stepMode.code] ++ optTm r.hRef ++ optTm r.bottom ++ u16 r.s ++ u16 r.sReq ++ [r.binding.code]
      ++ u32 r.spread ++ u32 r.remainder ++ optTm r.aFill ++ optTm r.aSet ++ u32 clock
      ++ [optIndex marker, optIndex note]
  | .conditions top reported => [2, optIndex (top.map Cond.num)] ++ u24 (condSet reported)
  | .wall x => [3, u8 x.segment.val] ++ u32 x.top ++ [u8 x.queueLength] ++ optHeight x.lowestUnset
  | .jack slot error demand state => [4, u8 slot.val] ++ optSigned16 error ++ u16 demand ++ [state.code]
  | .user w => [5] ++ u16 w.w0 ++ u16 w.w1 ++ u16 w.w2 ++ u16 w.w3
  | .finish => [6, 0xBE]

/-- The error of a slot in a cycle result; absent when it is not a participant (R185). -/
def CycleResult.errorOf (r : CycleResult) (i : Slot) : Option Int :=
  (r.errors.find? fun e => decide (e.slot = i)).map SlotError.error

/-- The demand of a slot in a cycle result; 0 when it is not a participant (R185). -/
def CycleResult.demandOf (r : CycleResult) (i : Slot) : Nat :=
  ((r.demands.find? fun d => decide (d.slot = i)).map SlotDemand.demand).getD 0

/-- The JACKS entries: the enabled JACK slots, ascending (R185). -/
def State.jackEntries (s : State) (r : CycleResult) : List BeaconEntry :=
  (allSlots.filter fun i => (s.node i).enabled && decide ((s.node i).kind = .jack)).map fun i =>
    .jack i (r.errorOf i) (r.demandOf i) (s.record i).state

/-- A section that is built where it is enabled. -/
def sectionIf (enabled : Bool) (es : List BeaconEntry) : List BeaconEntry := if enabled then es else []

/-- The entries of a beacon built now (R185). -/
def State.beaconEntries (s : State) (j : BeaconJob) (summary : List SegmentSummary) (marker : Option MarkerIx) :
    List BeaconEntry :=
  let p := s.params
  [.head s.console.startFlag j.result.cycleNumber s.console.receptionErrors s.relays.discards]
    ++ sectionIf p.cycleSection [.cycle j.result j.clock marker s.feed.note]
    ++ sectionIf p.conditionsSection [.conditions s.topCondition s.reportedSet]
    ++ sectionIf p.segmentsSection (summary.map BeaconEntry.wall)
    ++ sectionIf p.jacksSection (s.jackEntries j.result)
    ++ sectionIf p.userSection [.user s.command.user]
    ++ [.finish]

/-- The Beacon Builder builds the beacon of its oldest computation once the summary and the marker are in hand; the
beacon replaces an unsent one (R185, R187). -/
def State.buildBeacon (s : State) : State :=
  match s.jobs with
  | [] => s
  | j :: js =>
    match j.summary, j.marker with
    | some summary, some marker =>
      let beacon : Beacon := { cycle := j.result.cycleNumber, start := s.console.startFlag,
                               entries := s.beaconEntries j summary marker }
      (s.withConsole { s.console with unsent := some beacon }).withJobs js
    | _, _ => s

/-- As many whole entries as fit in a number of bytes, and the rest (R187). -/
def fillFrame : Nat → List BeaconEntry → List BeaconEntry × List BeaconEntry
  | _, [] => ([], [])
  | room, e :: es =>
    if e.encode.length ≤ room then
      let r := fillFrame (room - e.encode.length) es
      (e :: r.1, r.2)
    else ([], e :: es)

/-- The payload of a BEACON frame (R196). -/
def beaconPayload (cycle first : Nat) (es : List BeaconEntry) : List Byte :=
  u32 cycle ++ u16 first ++ (es.map BeaconEntry.encode).flatten

/-- A beacon as its sending begins (R187). -/
def Beacon.sending (b : Beacon) : BeaconSending :=
  { cycle := b.cycle, start := b.start, nextEntry := 0, rest := b.entries }

/-! ## Sending (R180, R184, R187) -/

/-- A frame begins on the console line. -/
def State.transmit (s : State) (kind : TxKind) (frame : List Byte) : State :=
  s.withConsole { s.console with tx := some { kind := kind, frame := frame } }

/-- The oldest reply leaves the queue and its frame begins. -/
def State.sendReply (s : State) (r : ReplyRecord) (rest : List ReplyRecord) : State :=
  (s.withConsole { s.console with replies := rest }).transmit .reply (consoleFrame kindReply (r.payload s.now))

/-- The next frame of a beacon begins. -/
def State.sendBeacon (s : State) (b : BeaconSending) : State :=
  let f := fillFrame Config.beaconEntryBytes b.rest
  let left : BeaconSending := { b with nextEntry := b.nextEntry + f.1.length, rest := f.2 }
  (s.withConsole { s.console with sending := some left }).transmit
    (.beacon (b.nextEntry == 0) f.2.isEmpty b.start)
    (consoleFrame kindBeacon (beaconPayload b.cycle b.nextEntry f.1))

/-- The record at the head of the forward queue begins to leave, if its frame fits the budget and no head has failed to
fit since the latest refill; the record behind it is judged against the budget that is left (R180, R184). -/
def State.sendForward (s : State) (r : ForwardRecord) (rest : List ForwardRecord) : State :=
  let frame := r.frame
  if s.console.forwardHeld = false ∧ frame.length ≤ s.console.budget then
    (s.withConsole { s.console with forward := rest, budget := s.console.budget - frame.length }.judgeHead).transmit
      .forward frame
  else s

/-- The transmitter is free and begins the next frame (R180). -/
def State.consoleSend (s : State) : State :=
  match s.console.tx, s.console.replies, s.console.sending, s.console.unsent, s.console.forward with
  | some _, _, _, _, _ => s
  | none, r :: rs, _, _, _ => s.sendReply r rs
  | none, [], some b, _, _ => s.sendBeacon b
  | none, [], none, some b, _ => (s.withConsole { s.console with unsent := none }).sendBeacon b.sending
  | none, [], none, none, r :: rs => s.sendForward r rs
  | none, [], none, none, [] => s

/-- The console traffic after the frame on the line has ended (R185, R187). -/
def Console.frameSent (c : Console) : Console :=
  match c.tx with
  | none => c
  | some t =>
    match t.kind with
    | .reply => { c with tx := none }
    | .forward => { c with tx := none }
    | .beacon first last start =>
      { c with tx := none, startFlag := c.startFlag && !(first && start),
               sending := if last then none else c.sending }

/-- A console frame finishes sending. -/
def State.consoleFrameSent (s : State) : State := s.withConsole s.console.frameSent

end Sys2Proof.Machine
end

