-- ==== Sys2Proof/Machine/Feed.lean ====
section
/-! DEFINITION. The Feed Chain Engine: claims, open tests, openings, back-off and jams (chapter 5). -/

namespace Sys2Proof.Machine

open Sys2Proof

/-! ## Claims and exchanges (R84, R19) -/

/-- Whether an outlet is ready for an opening (R86, check 6). -/
def State.outletReady (s : State) (slot : Slot) : Bool :=
  let r := s.record slot
  decide (r.state = .active) && match r.lastReport with
    | some (.outlet ready _ fault _ _) => ready && !fault
    | _ => false

/-- The feed channel that holds an outlet (R84). -/
def State.outletClaim (s : State) (slot : Slot) : Option Channel := s.feed.outletClaims.read slot

/-- The state with an outlet's claim replaced. -/
def State.setOutletClaim (s : State) (slot : Slot) (c : Option Channel) : State :=
  s.withFeed { s.feed with outletClaims := s.feed.outletClaims.write slot c }

/-- The state with a segment's claim replaced. -/
def State.setSegmentClaim (s : State) (k : SegmentIx) (c : Option Channel) : State :=
  s.setWall k { s.wall k with claim := c }

/-- The poll due time counted from the latest exchange with a slot (R19). -/
def State.nextPollDue (s : State) (slot : Slot) : Nat :=
  ((s.record slot).lastExchangeEnd.getD s.now) + s.params.outletPollMs

/-- A channel takes the claims on a segment and an outlet, whose outlet polls begin (R84, R19). -/
def State.takeClaims (s : State) (c : Channel) (w : WorkingCopy) : State :=
  let s' := (s.setSegmentClaim w.segment (some c)).setOutletClaim w.outlet (some c)
  s'.setRecord w.outlet { s'.record w.outlet with pollDue := some (s.nextPollDue w.outlet) }

/-- A channel's claims on a segment and an outlet end, and the outlet polls with them (R84, R19). A claim of the other
channel is left. -/
def State.dropClaims (s : State) (c : Channel) (w : WorkingCopy) : State :=
  let s' := if (s.wall w.segment).claim = some c then s.setSegmentClaim w.segment none else s
  if s'.outletClaim w.outlet = some c then
    (s'.setOutletClaim w.outlet none).setRecord w.outlet { s'.record w.outlet with pollDue := none }
  else s'

/-- An OPEN or CLOSE exchange begins to wait for the ring (R20). -/
def State.queueExchange (s : State) (x : FeedExchange) : State :=
  s.withFeed { s.feed with waiting := s.feed.waiting ++ [x] }

/-- A channel's own waiting exchanges are withdrawn; stray CLOSEs stay (R95, R103, R105). -/
def State.withdrawExchanges (s : State) (c : Channel) : State :=
  s.withFeed { s.feed with waiting := s.feed.waiting.filter fun x => decide (x.channel ≠ c) || x.stray }

/-- The CLOSE exchange of a channel's latest opening. -/
def State.closeOf (s : State) (c : Channel) (w : WorkingCopy) (stray : Bool) : FeedExchange :=
  { isOpen := false, channel := c, slot := w.outlet, tag := (s.channel c).tag, litres := 0, stray := stray,
    since := s.now }

/-! ## The open test (R86, R87) -/

/-- What checks 2 to 6 of the open test find for a channel's working copy (R86). -/
def State.blockFor (s : State) (c : Channel) (w : WorkingCopy) : BlockReason :=
  match s.acceptance w.segment with
  | .noReference => .noRef
  | .full => .segmentFull
  | .accepts =>
    if (s.wall w.segment).claim = some (otherChannel c) then .segmentBusy
    else if s.outletClaim w.outlet = some (otherChannel c) then .outletBusy
    else if !s.outletReady w.outlet then .notReady
    else .none

/-- A channel opens (R87). -/
def State.openChannel (s : State) (c : Channel) (w : WorkingCopy) : State :=
  let s1 := s.takeClaims c w
  let tag := (s1.feed.tagCounter + 1) % 256
  let s2 := s1.withFeed { s1.feed with tagCounter := tag }
  let s3 := s2.setChannel c
    { s2.channel c with state := .opened, tag := tag, delivered := 0, openConfirmed := false, closeSent := false,
                        closeCause := none, blockReason := .none, blockedSince := none, blockTimer := none }
  s3.queueExchange { isOpen := true, channel := c, slot := w.outlet, tag := tag, litres := w.litres, stray := false,
                     since := s.now }

/-- A failed check is recorded as the block reason; the block's start is kept while the reason stays (R86). -/
def State.recordBlock (s : State) (c : Channel) (r : BlockReason) : State :=
  let x := s.channel c
  if x.blockReason = r then s
  else s.setChannel c { x with blockReason := r, blockedSince := some s.now,
                               blockTimer := some (s.now + s.params.blockS * 1000) }

/-- Checks 2 to 6 of the open test with their outcome, for a channel whose wait has just begun: no deferral can be
allowed yet, since the block begins now and `block_s` is at least 10 s (R86, R98, R106). -/
def State.firstTest (s : State) (c : Channel) : State :=
  match (s.channel c).working with
  | some w =>
    match s.blockFor c w with
    | .none => s.openChannel c w
    | r => s.recordBlock c r
  | none => s

/-! ## Loading and choosing (R85, R97) -/

/-- A channel with its block forgotten. -/
def ChannelContext.unblocked (x : ChannelContext) : ChannelContext :=
  { x with blockReason := .none, blockedSince := none, blockTimer := none }

/-- A channel loads a descriptor and enters WAIT (R85). That delivered becomes 0 here, and does not stay at the litres of
the latest opening until the next one (R83, R93), is the model's choice between the two rules (DESIGN CHOICE,
notes/assumptions/42.md). -/
def State.loadDescriptor (s : State) (c : Channel) (d : DescriptorIx) : State :=
  let e := s.descriptor d
  s.setChannel c
    { (s.channel c).unblocked with
      state := .wait, current := some d,
      working := some { segment := e.segment, outlet := e.outlet, litres := e.litres },
      delivered := 0, closeCause := none, dwellEndsAt := none, pause := none, closeSent := false, void := false }

/-- A channel loads a descriptor and makes its open test at once (R85). -/
def State.loadAndTest (s : State) (c : Channel) (d : DescriptorIx) : State := (s.loadDescriptor c d).firstTest c

/-- The deferred list examined from oldest to youngest: what is left of it and the descriptor picked (R97, step 1). -/
def State.examineDeferred (s : State) : List DescriptorIx → List DescriptorIx × Option DescriptorIx
  | [] => ([], none)
  | d :: ds =>
    let e := s.descriptor d
    if !e.enabled then s.examineDeferred ds
    else if s.acceptance e.segment = .accepts ∧ (s.wall e.segment).claim = none then (ds, some d)
    else
      let r := s.examineDeferred ds
      (d :: r.1, r.2)

/-- The descriptor that follows a finished one in its chain; none at END (R82). -/
def State.chainNext (s : State) (d : Option DescriptorIx) : Option DescriptorIx :=
  match d with
  | none => none
  | some d =>
    let e := s.descriptor d
    if e.enabled then
      match e.next with
      | some n => if (s.descriptor n).enabled then some n else none
      | none => none
    else none

/-- A channel chooses its next work (R97). -/
def State.chooseNext (s : State) (c : Channel) : State :=
  let x := s.channel c
  let found := s.examineDeferred x.deferred
  let y : ChannelContext := { x.unblocked with working := none, pause := none, deferred := found.1 }
  match found.2 with
  | some d => (s.setChannel c y).loadAndTest c d
  | none =>
    match s.chainNext x.current with
    | some d => (s.setChannel c y).loadAndTest c d
    | none =>
      match found.1 with
      | d :: ds => (s.setChannel c { y with deferred := ds }).loadAndTest c d
      | [] => s.setChannel c { y with state := .done, current := none }

/-- A channel enters PAUSED (R96). -/
def State.enterPause (s : State) (c : Channel) (kind : PauseKind) : State :=
  s.setChannel c { (s.channel c).unblocked with
    state := .paused, pause := some { endsAt := s.now + s.params.pauseS * 1000, kind := kind } }

/-- A descriptor is finished (R97): feed note, pause after it, or the next work at once. A pause of 0 s ends in the
same event (R96). -/
def State.finishDescriptor (s : State) (c : Channel) : State :=
  match (s.channel c).current with
  | none => s.chooseNext c
  | some d =>
    let e := s.descriptor d
    let s' := if e.mark then s.withFeed { s.feed with note := some d } else s
    if e.pauseAfter ∧ s.params.pauseS ≠ 0 then s'.enterPause c .after else s'.chooseNext c

/-- A channel returns to WAIT with its working copy and tests (R85, R96). -/
def State.resumeWait (s : State) (c : Channel) : State :=
  (s.setChannel c { (s.channel c).unblocked with state := .wait, pause := none }).firstTest c

/-- A pause of a kind ends (R96). -/
def State.endPause (s : State) (c : Channel) (kind : PauseKind) : State :=
  match kind with
  | .after => s.chooseNext c
  | .resume => if (s.channel c).void then s.finishDescriptor c else s.resumeWait c

/-- A channel pauses before it takes up its descriptor again; a pause of 0 s ends in the same event (R96). -/
def State.pauseToResume (s : State) (c : Channel) : State :=
  if s.params.pauseS = 0 then s.endPause c .resume else s.enterPause c .resume

/-! ## Back-off and jams (R98, R99) -/

/-- Whether deferral is allowed for a channel (R98). -/
def State.deferralAllowed (s : State) (c : Channel) : Bool :=
  let x := s.channel c
  decide (x.blockReason = .segmentFull) &&
  (match x.blockedSince with
    | some t => decide (t + s.params.blockS * 1000 ≤ s.now)
    | none => false) &&
  (match s.feed.seen with
    | some r => decide (r.binding = .fill) ||
        (decide (s.mode = .hold) && match r.aFill with
          | some a => decide (a < s.params.sMax)
          | none => false)
    | none => false)

/-- Whether the deferred list can take the channel's descriptor: it is there, or there is room (R98). -/
def ChannelContext.canDefer (x : ChannelContext) (d : DescriptorIx) : Bool :=
  x.deferred.contains d || decide (x.deferred.length < Config.deferredPlaces)

/-- The deferral test after an open test that recorded SEGMENT_FULL (R98). -/
def State.deferralTest (s : State) (c : Channel) : State :=
  let x := s.channel c
  match x.current with
  | some d =>
    if s.deferralAllowed c && x.canDefer d then
      (s.setChannel c { x with working := none,
                               deferred := if x.deferred.contains d then x.deferred else x.deferred ++ [d] }).chooseNext c
    else s
  | none => s

/-- Whether a channel meets the jam test (R99). -/
def State.meetsJam (s : State) (c : Channel) : Bool :=
  let x := s.channel c
  decide (x.state = .wait) && decide (x.blockReason ≠ .none) &&
  (match x.blockTimer with
    | some t => decide (t ≤ s.now)
    | none => false) &&
  (!s.deferralAllowed c ||
    match x.current with
    | some d => !x.canDefer d
    | none => false)

/-- Evaluation of the FEED_JAM source; its detail is 0 for channel A, 1 for B (R99). -/
def State.evaluateJam (s : State) : State :=
  let a := s.meetsJam .a
  let b := s.meetsJam .b
  s.evaluate .feedJam (a || b) (some (if a then 0 else 1))

/-- The open test of a channel in WAIT (R86); no test is made in another state. -/
def State.openTest (s : State) (c : Channel) : State :=
  let x := s.channel c
  match x.state, x.working with
  | .wait, some w =>
    if x.void then (s.finishDescriptor c).evaluateJam
    else match s.blockFor c w with
      | .none => (s.openChannel c w).evaluateJam
      | r => ((s.recordBlock c r).deferralTest c).evaluateJam
  | _, _ => s

/-! ## Closing (R90, R92, R101) -/

/-- An OPEN channel asks for CLOSE (R92). -/
def State.askClose (s : State) (c : Channel) (cause : CloseCause) : State :=
  let x := s.channel c
  match x.state, x.working with
  | .opened, some w =>
    let s' := s.setChannel c { x with state := .closing, closeCause := some cause, closeSent := x.openConfirmed }
    (if x.openConfirmed then s'.queueExchange (s'.closeOf c w false) else s').evaluateJam
  | _, _ => s

/-- The provisional top of a channel's opening (R90). -/
def State.provisionalTop (s : State) (c : Channel) (w : WorkingCopy) : Nat :=
  let live := s.wall w.segment
  live.top + ((s.channel c).delivered * 100000 + live.remainder) / (s.segment w.segment).area

/-- The FULL test of a confirmed opening, by the latest cycle result that has reached the engine (R90). -/
def State.fullTest (s : State) (c : Channel) : State :=
  let x := s.channel c
  match x.state, x.working, s.feed.seen.bind CycleResult.hRef with
  | .opened, some w, some h =>
    if x.openConfirmed ∧ h - s.params.freeboard ≤ s.provisionalTop c w then s.askClose c .full else s
  | _, _, _ => s

/-- FEED STOP's effect on a channel, with cause STOP or HALT (R101, R102). -/
def State.stopChannel (s : State) (c : Channel) (cause : CloseCause) : State :=
  let x := s.channel c
  let t : State := match x.state with
    | .opened => s.askClose c cause
    | .closing => s.setChannel c { x with closeCause := some cause }
    | .wait => s.setChannel c { x.unblocked with state := .stopped }
    | .paused => s.setChannel c { x with state := .stopped, pause := none }
    | .idle => s
    | .done => s
    | .stopped => s
  t.evaluateJam

/-- The event that takes the rise mode from another mode to HALT acts on both channels as FEED STOP does, with cause HALT
(R102); `before` is the mode the event found. -/
def State.haltFeed (before : RiseMode) (s : State) : State :=
  if s.mode = .halt ∧ before ≠ .halt then s.bothChannels fun c t => t.stopChannel c .halt else s

/-! ## Decision points from other blocks (R86, R90) -/

/-- A channel releases its claims; the release is a decision point of the other channel (R84, R86). -/
def State.releaseClaims (s : State) (c : Channel) (w : WorkingCopy) : State :=
  (s.dropClaims c w).openTest (otherChannel c)

/-- One channel acts on a placement taken into a segment: a waiting channel tests, an open one that did not make the
placement makes its FULL test (R86, R90). -/
def State.segmentPlacedFor (k : SegmentIx) (maker : Option Channel) (c : Channel) (s : State) : State :=
  match (s.channel c).working with
  | some w =>
    if w.segment = k then
      if maker = some c then s.openTest c else (s.openTest c).fullTest c
    else s
  | none => s

/-- A placement into an enabled segment with the decision points it makes (R67 to R71, R86, R90). -/
def State.place (s : State) (k : SegmentIx) (v : Nat) (source : LayerSource) (descriptor : Option DescriptorIx)
    (maker : Option Channel) : State :=
  let s' := s.takePlacement k v source descriptor
  if (s.segment k).enabled then s'.bothChannels (State.segmentPlacedFor k maker) else s'

/-- The source of a channel's placements (R65). -/
def sourceOf : Channel → LayerSource
  | .a => .a
  | .b => .b

/-- The delivered litres of a channel's opening go to the Placement Store (R93, R95). -/
def State.placeDelivered (s : State) (c : Channel) (w : WorkingCopy) : State :=
  let x := s.channel c
  if x.delivered = 0 then s else s.place w.segment x.delivered (sourceOf c) x.current (some c)

/-! ## The end of an opening (R93 to R95, R105) -/

/-- The litres still to deliver after an opening, down to 0 (R93). -/
def ChannelContext.lowered (x : ChannelContext) : ChannelContext :=
  { x with working := x.working.map fun w => { w with litres := w.litres - x.delivered } }

/-- FEED_SHORT: the rest of the descriptor is dropped (R94). -/
def State.feedShort (s : State) (c : Channel) : State :=
  let x := s.channel c
  let s' := s.setChannel c { x with working := x.working.map fun w => { w with litres := 0 } }
  (s'.raise .feedShort (x.current.map Fin.val)).finishDescriptor c

/-- The next state of a channel whose opening is complete (R93, step 5). -/
def State.afterOpening (s : State) (c : Channel) : State :=
  let x := s.channel c
  let litres := (x.working.map WorkingCopy.litres).getD 0
  match x.closeCause, decide (litres = 0) with
  | some .stop, _ => s.setChannel c { x with state := .stopped }
  | some .halt, _ => s.setChannel c { x with state := .stopped }
  | _, true => s.finishDescriptor c
  | none, false => s.feedShort c
  | some .void, false => s.finishDescriptor c
  | some .dwell, false => s.pauseToResume c
  | some .full, false => s.pauseToResume c
  | some .notReady, false => s.pauseToResume c

/-- An END completes a channel's opening (R93). -/
def State.completeOpening (s : State) (c : Channel) (w : WorkingCopy) : State :=
  let s1 := (s.placeDelivered c w).releaseClaims c w
  ((s1.setChannel c { (s1.channel c).lowered with dwellEndsAt := none }).afterOpening c).evaluateJam

/-- A channel's opening ends as a fault (R95). -/
def State.openingFault (s : State) (c : Channel) (w : WorkingCopy) : State :=
  let s1 := s.placeDelivered c w
  let s2 := (s1.setChannel c { (s1.channel c).lowered with dwellEndsAt := none }).withdrawExchanges c
  let s3 := (s2.releaseClaims c w).raise .feedFault (some w.outlet.val)
  (s3.setChannel c { s3.channel c with state := .stopped }).evaluateJam

/-- A commit takes the outlet of an opening from the ring (R105). -/
def State.outletRemoved (s : State) (c : Channel) (w : WorkingCopy) : State :=
  let s1 := (s.withdrawExchanges c).releaseClaims c w
  let x : ChannelContext := { s1.channel c with dwellEndsAt := none }
  match x.closeCause with
  | some .stop => s1.setChannel c { x with state := .stopped }
  | some .halt => s1.setChannel c { x with state := .stopped }
  | _ => (s1.setChannel c x).finishDescriptor c

/-! ## Outlet reports and node states (R86, R89, R95) -/

/-- A channel in OPEN or CLOSING judges a report of its outlet (R89). -/
def State.judgeOutletReport (s : State) (c : Channel) (w : WorkingCopy) (ready ended fault : Bool)
    (delivered tag : Nat) : State :=
  let x := s.channel c
  if fault then s.openingFault c w
  else if tag ≠ x.tag then s
  else
    let s' := s.setChannel c { x with delivered := delivered }
    if ended then s'.completeOpening c w
    else if x.state = .opened ∧ x.openConfirmed then
      if ready then s'.fullTest c else s'.askClose c .notReady
    else s'

/-- One channel acts on a valid report of an outlet, by the state it was in when the report came (R86, R89). -/
def State.outletReportFor (before : State) (slot : Slot) (report : Report) (c : Channel) (s : State) : State :=
  let x := before.channel c
  match x.working, report with
  | some w, .outlet ready ended fault delivered tag =>
    if w.outlet = slot then
      match x.state with
      | .opened => s.judgeOutletReport c w ready ended fault delivered tag
      | .closing => s.judgeOutletReport c w ready ended fault delivered tag
      | .wait => s.openTest c
      | _ => s
    else s
  | _, _ => s

/-- A valid outlet report reaches the Feed Chain Engine (R9). -/
def State.outletReport (s : State) (slot : Slot) (report : Report) : State :=
  s.bothChannels (State.outletReportFor s slot report)

/-- One channel acts on a change of an outlet's node state that no report brought, by the state it was in (R86, R95).
`openMiss` says that the change came with the miss of an OPEN exchange, which R88 handles. -/
def State.outletStateFor (before : State) (slot : Slot) (openMiss : Bool) (c : Channel) (s : State) : State :=
  let x := before.channel c
  match x.working with
  | some w =>
    if w.outlet = slot then
      match x.state with
      | .wait => s.openTest c
      | .opened => if (s.record slot).state = .lost ∧ !openMiss then s.openingFault c w else s
      | .closing => if (s.record slot).state = .lost ∧ !openMiss then s.openingFault c w else s
      | _ => s
    else s
  | none => s

/-- A change of an outlet's node state reaches the Feed Chain Engine (R9). -/
def State.outletStateChanged (s : State) (slot : Slot) (openMiss : Bool) : State :=
  s.bothChannels (State.outletStateFor s slot openMiss)

/-! ## Results of OPEN and CLOSE exchanges (R88, R92) -/

/-- An OPEN exchange of an opening is acknowledged (R88). -/
def State.openAcked (s : State) (c : Channel) (tag : Nat) : State :=
  let x := s.channel c
  if x.tag ≠ tag ∨ x.openConfirmed then s
  else match x.state, x.working with
    | .opened, _ =>
      s.setChannel c { x with openConfirmed := true, dwellEndsAt := some (s.now + s.params.dwellS * 1000) }
    | .closing, some w =>
      let s' := s.setChannel c { x with openConfirmed := true, closeSent := true }
      s'.queueExchange (s'.closeOf c w false)
    | _, _ => s

/-- An OPEN exchange of an opening ends in a miss (R88). -/
def State.openMissed (s : State) (c : Channel) (tag : Nat) : State :=
  let x := s.channel c
  if x.tag ≠ tag ∨ x.openConfirmed then s
  else match x.state, x.working with
    | .opened, some w =>
      let s' := s.releaseClaims c w
      ((s'.queueExchange (s'.closeOf c w true)).resumeWait c).evaluateJam
    | .closing, some w =>
      let s1 := s.releaseClaims c w
      let s2 := s1.queueExchange (s1.closeOf c w true)
      match (s2.channel c).closeCause with
      | some .stop => (s2.setChannel c { s2.channel c with state := .stopped }).evaluateJam
      | some .halt => (s2.setChannel c { s2.channel c with state := .stopped }).evaluateJam
      | _ => (s2.finishDescriptor c).evaluateJam
    | _, _ => s

/-- A CLOSE exchange of an opening ends in a miss: it is queued again while the channel is still in CLOSING on that
opening (R92). -/
def State.closeMissed (s : State) (c : Channel) (tag : Nat) (stray : Bool) : State :=
  let x := s.channel c
  match x.state, x.working with
  | .closing, some w => if !stray ∧ x.tag = tag then s.queueExchange (s.closeOf c w false) else s
  | _, _ => s

/-! ## Arrivals (R86, R90, R99, R102) -/

/-- One channel acts on a cycle result, by the state it was in (R86, R90). -/
def State.feedResultFor (c : Channel) (s : State) : State := (s.openTest c).fullTest c

/-- A cycle result reaches the Feed Chain Engine (R86, R90, R99). -/
def State.feedResult (s : State) (r : CycleResult) : State :=
  ((s.withFeed { s.feed with seen := some r }).bothChannels State.feedResultFor).evaluateJam

/-- One channel acts on a change of rise mode (R86, R102). A change to HALT finds the channels stopped by the event that made
it; while the mode is HALT it stops them still. DEDUCED, unsafe: once the mode has left HALT it stops no channel that has been
started since, and makes open tests as every other change does (notes/assumptions/3.md). -/
def State.feedModeFor (m : ModeChange) (c : Channel) (s : State) : State :=
  if m.new = .halt ∧ s.mode = .halt then s.stopChannel c .halt else s.openTest c

/-- A change of rise mode reaches the Feed Chain Engine (R86, R99, R102). -/
def State.feedMode (s : State) (m : ModeChange) : State := (s.bothChannels (State.feedModeFor m)).evaluateJam

/-! ## Commits (R104 to R106) -/

/-- What a commit that changed a node's entry from `old` to `new` does to its record (R8). -/
def nodeChange (old new : NodeEntry) : NodeChange :=
  if old.enabled && !new.enabled then .disabled
  else if new.enabled && (!old.enabled || decide (old.address ≠ new.address) || decide (old.kind ≠ new.kind)) then .fresh
  else .kept

/-- Whether a commit took a working copy's segment (R104). -/
def State.segmentGone (s : State) (old : Table SegmentEntry 32) (w : WorkingCopy) : Bool :=
  (old.read w.segment).enabled && !(s.segment w.segment).enabled

/-- Whether a commit took a working copy's outlet (R104). -/
def State.outletGone (s : State) (old : Table NodeEntry 128) (w : WorkingCopy) : Bool :=
  decide (nodeChange (old.read w.outlet) (s.node w.outlet) ≠ .kept)

/-- A channel's void flag and block timer after a commit (R104, R106). -/
def State.commitContext (s : State) (nodes : Table NodeEntry 128) (segments : Table SegmentEntry 32)
    (x : ChannelContext) : ChannelContext :=
  let gone := match x.working with
    | some w => s.segmentGone segments w || s.outletGone nodes w
    | none => false
  { x with void := x.void || gone, blockTimer := x.blockedSince.map fun t => t + s.params.blockS * 1000 }

/-- One channel acts on a commit application, by the state it was in (R86, R104, R105). -/
def State.commitChannelFor (before : State) (nodes : Table NodeEntry 128) (segments : Table SegmentEntry 32)
    (c : Channel) (s : State) : State :=
  let x := before.channel c
  match x.working with
  | none => s
  | some w =>
    match x.state with
    | .wait => s.openTest c
    | .opened =>
      if s.outletGone nodes w then s.outletRemoved c w
      else if s.segmentGone segments w then s.askClose c .void
      else s
    | .closing => if s.outletGone nodes w then s.outletRemoved c w else s
    | _ => s

/-- The Feed Chain Engine at a commit application; `nodes` and `segments` are the tables before it (R104 to R106). A
waiting CLOSE for a slot that is no longer enabled is withdrawn, since the ring addresses enabled slots only (R1). -/
def State.commitFeed (s : State) (nodes : Table NodeEntry 128) (segments : Table SegmentEntry 32) : State :=
  let f := s.feed
  let s1 := s.withFeed
    { f with channelA := s.commitContext nodes segments f.channelA,
             channelB := s.commitContext nodes segments f.channelB }
  let s2 := s1.bothChannels (State.commitChannelFor s1 nodes segments)
  (s2.withFeed { s2.feed with waiting := s2.feed.waiting.filter fun x => (s2.node x.slot).enabled }).evaluateJam

end Sys2Proof.Machine
end

