-- ==== Sys2Proof/Machine/Marker.lean ====
section
/-! DEFINITION. Height markers: crossing, firing and the actions (sections 8.7 and 8.8). -/

namespace Sys2Proof.Machine

open Sys2Proof

/-- All the markers, ascending. -/
def allMarkers : List MarkerIx := List.finRange 24

/-- The table entry of a marker (R149). -/
def State.marker (s : State) (i : MarkerIx) : MarkerEntry := s.markers.entries.read i

/-- Whether a marker crosses at a cycle result (R150). -/
def State.crosses (s : State) (r : CycleResult) (i : MarkerIx) : Bool :=
  match r.previousHRef, r.hRef with
  | some p, some h =>
    (s.marker i).enabled && !s.markers.spent.read i &&
      decide (p < ((s.marker i).height : Int)) && decide (((s.marker i).height : Int) ≤ h)
  | _, _ => false

/-- A marker placed among markers in firing order: after every marker of lower height, and after the markers of equal
height that stand before it (R151). -/
def State.placeMarker (s : State) (i : MarkerIx) : List MarkerIx → List MarkerIx
  | [] => [i]
  | j :: js => if (s.marker i).height < (s.marker j).height then i :: j :: js else j :: s.placeMarker i js

/-- Markers in firing order: ascending height, then ascending index (R151). The list given is ascending in index. -/
def State.firingOrder (s : State) (ms : List MarkerIx) : List MarkerIx :=
  ms.foldl (fun sorted i => s.placeMarker i sorted) []

/-- A marker's action (R152 to R154). -/
def State.markerAction (s : State) (i : MarkerIx) : MarkerAction → State
  | .hold => s.raise .markerHold (some i.val)
  | .rate v => s.writeRate v
  | .feedStop c => s.stopChannel c .stop

/-- A marker fires (R151). -/
def State.fireMarker (s : State) (i : MarkerIx) : State :=
  (s.withMarkers { s.markers with spent := s.markers.spent.write i true, latest := some i }).markerAction i
    (s.marker i).action

/-- The markers that cross at a cycle result fire one after another (R150, R151). -/
def State.fireMarkers (s : State) (r : CycleResult) : State :=
  (s.firingOrder (allMarkers.filter (s.crosses r))).foldl State.fireMarker s

/-- The beacon jobs with the latest fired marker handed to the oldest that waits for one (R151, R185). -/
def handMarker (m : Option MarkerIx) : List BeaconJob → List BeaconJob
  | [] => []
  | j :: js =>
    match j.marker with
    | none => { j with marker := some m } :: js
    | some _ => j :: handMarker m js

/-- The beacon jobs with a segment summary handed to the oldest that waits for one (R79, R185). -/
def handSummary (x : List SegmentSummary) : List BeaconJob → List BeaconJob
  | [] => []
  | j :: js =>
    match j.summary with
    | none => { j with summary := some x } :: js
    | some _ => j :: handSummary x js

/-- A cycle result reaches the Monitor and Marker Unit (R150, R151). -/
def State.markerResult (s : State) (r : CycleResult) : State :=
  let s' := s.fireMarkers r
  s'.withJobs (handMarker s'.markers.latest s'.jobs)

/-- A cycle result reaches the Placement Store (R73, R74, R77, R79). -/
def State.placementResult (s : State) (r : CycleResult) : State :=
  let s' := (s.withPlacementSeen (some r)).retireAll r
  s'.withJobs (handSummary s'.segmentSummary s'.jobs)

end Sys2Proof.Machine
end

