-- ==== Sys2Proof/Machine/Monitor.lean ====
section
/-! DEFINITION. Limit monitors (sections 8.1 to 8.5). -/

namespace Sys2Proof.Machine

open Sys2Proof

/-- All the monitors, ascending. -/
def allMonitors : List MonitorIx := List.finRange 8

/-- The table entry of a monitor (R142). -/
def State.monitor (s : State) (i : MonitorIx) : MonitorEntry := s.monitors.entries.read i

/-- The record of a monitor (R143). -/
def State.monitorRecord (s : State) (i : MonitorIx) : MonitorRecord := s.monitors.records.read i

/-- The state with a monitor's record replaced. -/
def State.setMonitorRecord (s : State) (i : MonitorIx) (r : MonitorRecord) : State :=
  s.withMonitors { s.monitors with records := s.monitors.records.write i r }

/-- The level in force (R142). -/
def MonitorEntry.level (e : MonitorEntry) : Int := e.levels.read e.select

/-- Whether a value trips a monitor (R144). -/
def MonitorEntry.trips (e : MonitorEntry) (v : Int) : Bool :=
  match e.direction with
  | .rising => decide (e.level ≤ v)
  | .falling => decide (v ≤ e.level)

/-- Whether a value clears a monitor (R144); the sums are exact. -/
def MonitorEntry.clears (e : MonitorEntry) (v : Int) : Bool :=
  match e.direction with
  | .rising => decide (v < e.level - e.hysteresis)
  | .falling => decide (e.level + e.hysteresis < v)

/-- A monitor's record after a value has been judged at a pour clock (R144). In the hold band the state stays, and a
monitor that is TRIPPED has cause VALUE. -/
def MonitorRecord.judged (r : MonitorRecord) (e : MonitorEntry) (v : Int) (clock : Nat) : MonitorRecord :=
  let kept : MonitorRecord := { r with lastValue := some v, judgedAt := some clock }
  if e.trips v then { kept with tripped := true, cause := some .value }
  else if e.clears v then { kept with tripped := false, cause := none }
  else if r.tripped then { kept with cause := some .value }
  else kept

/-- A monitor's record after a failure of its sensor (R145). -/
def MonitorRecord.trippedFor (r : MonitorRecord) (c : TripCause) : MonitorRecord :=
  { r with tripped := true, cause := some c }

/-- The enabled monitors of a sensor slot, ascending. -/
def State.monitorsOf (s : State) (slot : Slot) : List MonitorIx :=
  allMonitors.filter fun i => (s.monitor i).enabled && decide ((s.monitor i).sensor = slot)

/-- The lowest enabled TRIPPED monitor of a class, where there is one (R147). -/
def State.trippedMonitor (s : State) (cls : MonitorClass) : Option MonitorIx :=
  allMonitors.find? fun i => (s.monitor i).enabled && decide ((s.monitor i).cls = cls) && (s.monitorRecord i).tripped

/-- Evaluation of the MONITOR_HOLD and MONITOR_NOTE sources (R147). -/
def State.evaluateMonitors (s : State) : State :=
  let hold := s.trippedMonitor .hold
  let note := s.trippedMonitor .note
  (s.evaluate .monitorHold hold.isSome (hold.map Fin.val)).evaluate .monitorNote note.isSome (note.map Fin.val)

/-- A sensor's value is judged by every enabled monitor on its slot, then the sources are evaluated (R144, R147). DESIGN
CHOICE, unsafe: a slot that no enabled monitor names hands no evaluation (notes/assumptions/36.md). -/
def State.judgeValue (s : State) (slot : Slot) (v : Int) : State :=
  match s.monitorsOf slot with
  | [] => s
  | ms =>
    (ms.foldl (fun (t : State) i => t.setMonitorRecord i ((t.monitorRecord i).judged (t.monitor i) v t.pourClock)) s).evaluateMonitors

/-- The trip cause that a sensor's node state gives, where it gives one (R145). -/
def NodeState.tripCause : NodeState → Option TripCause
  | .lost => some .sensorLost
  | .faulted => some .sensorFaulted
  | .disabled => some .sensorAbsent
  | .active => none
  | .stale => none

/-- A change of a sensor slot's node state reaches the monitors on it (R145, R147). DESIGN CHOICE, unsafe: where no enabled
monitor names the slot no evaluation is handed (notes/assumptions/36.md). -/
def State.sensorStateChanged (s : State) (slot : Slot) (new : NodeState) : State :=
  match s.monitorsOf slot with
  | [] => s
  | ms =>
    (ms.foldl (fun (t : State) i =>
      match new.tripCause with
      | some c => t.setMonitorRecord i ((t.monitorRecord i).trippedFor c)
      | none => t) s).evaluateMonitors

/-- The trip cause that the sensor tests at a commit find for a slot, where they find one (R145). -/
def State.sensorTest (s : State) (slot : Slot) : Option TripCause :=
  if !(s.node slot).enabled || decide ((s.node slot).kind ≠ .sensor) then some .sensorAbsent
  else (s.record slot).state.tripCause

/-- A monitor's record after a commit changed its entry from `old` to `new` (R146), before the sensor tests. -/
def MonitorRecord.committed (r : MonitorRecord) (old new : MonitorEntry) : MonitorRecord :=
  if !old.enabled && new.enabled then MonitorRecord.initial
  else if old.enabled && !new.enabled then { r with tripped := false, cause := none }
  else r

/-- The monitors at a commit application; `old` is the table before it (R145, R146, R147). -/
def State.commitMonitors (s : State) (old : Table MonitorEntry 8) : State :=
  let records : Table MonitorRecord 8 := Table.tabulate fun i =>
    let e := s.monitor i
    let r := (s.monitorRecord i).committed (old.read i) e
    if e.enabled then
      match s.sensorTest e.sensor with
      | some c => r.trippedFor c
      | none => r
    else r
  (s.withMonitors { s.monitors with records := records }).evaluateMonitors

end Sys2Proof.Machine
end

