-- ==== Sys2Proof/Machine/Relay.lean ====
section
/-! DEFINITION. The Relay Unit's slots (section 10.6). -/

namespace Sys2Proof.Machine

open Sys2Proof

/-- All the relay slots, ascending. -/
def allRelays : List RelayIx := List.finRange 4

/-- What a relay slot holds, if it is occupied (R188). -/
def State.relaySlot (s : State) (i : RelayIx) : Option RelaySlot := s.relays.slots.read i

/-- The state with a relay slot replaced. -/
def State.setRelaySlot (s : State) (i : RelayIx) (x : Option RelaySlot) : State :=
  s.withRelays { s.relays with slots := s.relays.slots.write i x }

/-- The occupied slot that carries a tag (R188). -/
def State.relayWithTag (s : State) (tag : Nat) : Option RelayIx :=
  allRelays.find? fun i => match s.relaySlot i with
    | some x => decide (x.tag = tag)
    | none => false

/-- The lowest free slot (R188). -/
def State.freeRelay (s : State) : Option RelayIx := allRelays.find? fun i => (s.relaySlot i).isNone

/-- Whether a slot is an enabled JACK slot. -/
def State.isJack (s : State) (i : Slot) : Bool := (s.node i).enabled && decide ((s.node i).kind = .jack)

/-- Whether the deck is moving: CLIMB or TRIM. -/
def RiseMode.climbing : RiseMode → Bool
  | .climb => true
  | .trim => true
  | .idle => false
  | .hold => false
  | .halt => false

/-- A relay slot that has failed at a moment (R189). -/
def RelaySlot.fail (x : RelaySlot) (moment : Nat) : RelaySlot :=
  { x with state := .failed, completion := some moment, result := none }

/-- The relay slots with every QUEUED one that a test picks made FAILED at a moment. -/
def State.failQueued (s : State) (moment : Nat) (test : RelaySlot → Bool) : State :=
  s.withRelays { s.relays with slots := Table.tabulate fun i => (s.relaySlot i).map fun x =>
    if x.state = .queued ∧ test x then x.fail moment else x }

/-- The relay slots at a commit application; `old` is the Node Table before it (R189). -/
def State.commitRelays (s : State) (old : Table NodeEntry 128) : State :=
  s.failQueued s.now fun x =>
    !(s.node x.target).enabled ||
    (s.mode.climbing && s.isJack x.target &&
      !((old.read x.target).enabled && decide ((old.read x.target).kind = .jack)))

/-- A change of rise mode is an entry to CLIMB or TRIM from IDLE or HOLD (R118). -/
def ModeChange.entersClimb (m : ModeChange) : Bool :=
  m.new.climbing && (decide (m.old = .idle) || decide (m.old = .hold))

/-- A change of rise mode reaches the Relay Unit: the relays to enabled jacks that were QUEUED at an entry to CLIMB or
TRIM fail, as of the moment of entry (R118). DEDUCED, unsafe: moments are compared in milliseconds, so a relay that was
queued in the millisecond of the entry fails too, even when the mode had left again before it was queued
(notes/assumptions/30.md). -/
def State.relayMode (s : State) (m : ModeChange) : State :=
  if m.entersClimb then s.failQueued m.moment fun x => s.isJack x.target && decide (x.queuedAt ≤ m.moment) else s

end Sys2Proof.Machine
end

