-- ==== Sys2Proof/Machine/Reads.lean ====
section
/-! DEFINITION. READ: the record that each target carries (R79, R137, R156, R162, R192, R195). The choices that R195
leaves to R192's general rules are in notes/assumptions/18.md. -/

namespace Sys2Proof.Machine

open Sys2Proof

/-- The bytes of fields that hold no time. -/
def plain (bs : List Byte) : List Field := [.bytes bs]

/-- A presence byte, then the value where there is one (R192). -/
def optBytes : Option (List Byte) → List Byte
  | none => [0]
  | some bs => 1 :: bs

/-! ## Table entries (R160) -/

/-- An optional field of a table entry that is carried only where it is present. -/
def carried : Option (List Byte) → List Byte
  | none => []
  | some bs => bs

/-- A NODE entry (R1). -/
def NodeEntry.encode (e : NodeEntry) : List Byte :=
  [yesNoByte e.enabled, u8 e.address, e.kind.code] ++ carried (e.strokeMax.map u16) ++ carried (e.zero.map i32)

/-- A SEGMENT entry (R60). -/
def SegmentEntry.encode (e : SegmentEntry) : List Byte := yesNoByte e.enabled :: (u32 e.area ++ u32 e.startTop)

/-- A DESCRIPTOR entry (R81). -/
def DescriptorEntry.encode (e : DescriptorEntry) : List Byte :=
  [yesNoByte e.enabled, u8 e.segment.val, u8 e.outlet.val] ++ u16 e.litres
    ++ [optIndex e.next, yesNoByte e.pauseAfter, yesNoByte e.mark]

/-- A MONITOR entry (R142). -/
def MonitorEntry.encode (e : MonitorEntry) : List Byte :=
  [yesNoByte e.enabled, u8 e.sensor.val, e.direction.code] ++ (e.levels.toList.map i16).flatten
    ++ [u8 e.select.val] ++ u16 e.hysteresis ++ [e.cls.code]

/-- A marker's action and argument (R149). -/
def MarkerAction.encode : MarkerAction → List Byte
  | .hold => [0]
  | .rate v => 1 :: u16 v
  | .feedStop c => [2, channelCode c]

/-- A MARKER entry (R149). -/
def MarkerEntry.encode (e : MarkerEntry) : List Byte := yesNoByte e.enabled :: (u32 e.height ++ e.action.encode)

/-- An AGENT entry (R181). -/
def AgentEntry.encode (e : AgentEntry) : List Byte :=
  [yesNoByte e.enabled, e.matchKind.code, u8 e.low.val, u8 e.high.val, u8 e.everyN, e.form.code, u8 e.rank.val]

/-! ## Live records -/

/-- The content of a last report (R2). PRESUMED, unsafe: the flags of an OUTLET are three yes/no bytes in R2's order
(notes/assumptions/18.md). -/
def Report.encode : Report → List Byte
  | .jack height tag fault => u32 height ++ [u8 tag, yesNoByte fault]
  | .outlet ready ended fault delivered tag =>
    [yesNoByte ready, yesNoByte ended, yesNoByte fault] ++ u16 delivered ++ [u8 tag]
  | .sensor value fault => i16 value ++ [yesNoByte fault]

/-- A stroke expectation (R29). -/
def Expectation.encode (e : Expectation) : List Byte := u8 e.tag :: (u16 e.demand ++ [if e.confirmed then 0 else 1])

/-- A node record with the slot's stroke expectation (R2, R30, R162). -/
def State.readRecord (s : State) (i : Slot) : List Field :=
  let r := s.record i
  [.bytes ([r.state.code, u8 r.missCount] ++ optBytes (r.lastReport.map Report.encode) ++ optHeight r.previousHeight
     ++ [u8 r.shortCounter]),
   .time r.pollDue,
   .bytes (optBytes ((s.expectation i).map Expectation.encode))]

/-- Segment state (R61, R79). -/
def SegmentLive.encode (w : SegmentLive) : List Byte :=
  u32 w.top ++ u32 w.base ++ u32 w.remainder ++ u32 w.placedTotal ++ [claimCode w.claim, u8 w.queue.length]

/-- A layer record read at a pour clock (R65, R79). -/
def Layer.encode (l : Layer) (bottom clock setAge : Nat) : List Byte :=
  u32 l.top ++ u32 bottom ++ u32 l.placedAt ++ u32 (clock - l.placedAt)
    ++ [if l.unset clock setAge then 0 else 1] ++ u32 l.litres
    ++ [l.source.code, optIndex l.descriptor, yesNoByte l.greenExited]

/-- A condition record (R137). -/
def State.readCondition (s : State) (c : Cond) : List Byte :=
  let r := s.condition c
  [u8 c.num.val, c.cls.code, c.kind.code, r.state.code, sourceCode r.source, u8 (r.detail.getD 255), u8 r.count,
   yesNoByte (s.isMasked c)]

/-- A working copy (R83). -/
def WorkingCopy.encode (w : WorkingCopy) : List Byte := [u8 w.segment.val, u8 w.outlet.val] ++ u16 w.litres

/-- The end and the kind of a pause (R83). -/
def pauseFields : Option Pause → List Field
  | none => [.bytes [0]]
  | some p => [.bytes [1], .time (some p.endsAt), .bytes [p.kind.code]]

/-- A channel context, every field of R83 in its order. -/
def ChannelContext.fields (x : ChannelContext) : List Field :=
  [.bytes ([x.state.code, optIndex x.current] ++ optBytes (x.working.map WorkingCopy.encode) ++ u16 x.delivered
     ++ [u8 x.tag, yesNoByte x.openConfirmed, closeCauseCode x.closeCause, yesNoByte x.closeSent, yesNoByte x.void,
         x.blockReason.code]),
   .time x.blockedSince, .time x.blockTimer, .time x.dwellEndsAt]
    ++ pauseFields x.pause ++ [.bytes (listBytes (x.deferred.map fun d => u8 d.val))]

/-- An occupied relay slot (R162, R188). -/
def RelaySlot.fields (x : RelaySlot) : List Field :=
  [.bytes ([u8 x.tag, u8 x.target.val, x.state.code] ++ optBytes (x.result.map listBytes)), .time x.completion]

/-- A monitor record with the level in force (R156). An absent last value or judged at is a free value. -/
def State.readMonitor (s : State) (i : MonitorIx) : List Byte :=
  let r := s.monitorRecord i
  [if r.tripped then 1 else 0, tripCauseCode r.cause]
    ++ (match r.lastValue with
        | some v => i16 v
        | none => u16 Config.absentLastValue.toNat)
    ++ (match r.judgedAt with
        | some t => u32 t
        | none => u32 Config.absentJudgedAt.toNat)
    ++ i16 (s.monitor i).level

/-- A marker's live state (R156): ARMED 0 or SPENT 1, and whether it is the latest fired. -/
def State.readMarker (s : State) (i : MarkerIx) : List Byte :=
  [if s.markers.spent.read i then 1 else 0, yesNoByte (decide (s.markers.latest = some i))]

/-- The scalar fields of a cycle result (R58). -/
def CycleResult.scalars (r : CycleResult) : List Field :=
  [.bytes (u32 r.cycleNumber), .time (some r.time),
   .bytes ([r.stepMode.code, u8 r.n] ++ optTm r.hRef ++ optTm r.bottom ++ optTm r.previousHRef ++ u32 r.spread
     ++ u16 r.sReq ++ u32 r.remainder ++ optTm r.aFill ++ optTm r.aSet ++ [u8 r.s, r.binding.code])]

/-- A participant entry: slot, error and demand (R195). -/
def participantBytes (e : SlotError) (d : SlotDemand) : List Byte := u8 e.slot.val :: (i32 e.error ++ u16 d.demand)

/-- How many participant entries of 7 bytes fit a reply beside its 4 leading bytes, the 3 echoed ones and the 42 of the
scalar fields (R192, R195). -/
def participantRoom : Nat := (Config.maxPayload - 4 - 3 - 42) / 7

/-- The cycle result from a participant position on (R162, R195). PRESUMED, unsafe: no count byte stands before the
participant entries (notes/assumptions/18.md). -/
def CycleResult.fields (r : CycleResult) (position : Nat) : List Field :=
  r.scalars ++
    plain ((List.zipWith participantBytes (r.errors.drop position) (r.demands.drop position)).take participantRoom).flatten

/-- An agent's counter and drop count (R181). -/
def State.readAgent (s : State) (i : AgentIx) : List Byte :=
  u8 (s.agents.counters.read i) :: u16 (s.agents.drops.read i)

/-! ## The target (R162) -/

/-- The target and index of a READ. -/
inductive ReadTarget where
  | node (i : Slot)
  | segment (i : SegmentIx)
  | descriptor (i : DescriptorIx)
  | monitor (i : MonitorIx)
  | marker (i : MarkerIx)
  | agent (i : AgentIx)
  | parameter (i : ParamIx)
  | record (i : Slot)
  | wall (i : SegmentIx)
  | layer (i : SegmentIx) (position : Fin 16)
  | condition (c : Cond)
  | channel (c : Channel)
  | relay (i : RelayIx)
  | monitorState (i : MonitorIx)
  | markerState (i : MarkerIx)
  | cycleResult (position : Slot)
  | agentCounters (i : AgentIx)
  deriving DecidableEq, Repr

/-- The target that READ's argument bytes name (R162, R195). -/
def readTarget? (target index second : Byte) : Option ReadTarget :=
  match target.toNat with
  | 0 => (index? 128 index).map .node
  | 1 => (index? 32 index).map .segment
  | 2 => (index? 64 index).map .descriptor
  | 3 => (index? 8 index).map .monitor
  | 4 => (index? 24 index).map .marker
  | 5 => (index? 16 index).map .agent
  | 6 => (index? 32 index).map .parameter
  | 7 => (index? 128 index).map .record
  | 8 => (index? 32 index).map .wall
  | 9 => (index? 32 index).bind fun k => (index? 16 second).map (.layer k)
  | 10 => (Cond.ofNum index.toNat).map .condition
  | 11 => (channel? index).map .channel
  | 12 => (index? 4 index).map .relay
  | 13 => (index? 8 index).map .monitorState
  | 14 => (index? 24 index).map .markerState
  | 15 => (index? 128 index).map .cycleResult
  | 16 => (index? 16 index).map .agentCounters
  | _ => none

/-- The record a target carries; none where it is answered NO_SUCH (R162). -/
def State.readFields (s : State) : ReadTarget → Option (List Field)
  | .node i => some (plain (s.node i).encode)
  | .segment i => some (plain (s.segment i).encode)
  | .descriptor i => some (plain (s.descriptor i).encode)
  | .monitor i => some (plain (s.monitor i).encode)
  | .marker i => some (plain (s.marker i).encode)
  | .agent i => some (plain (s.agents.entries.read i).encode)
  | .parameter i => some (plain (paramBytes i (s.params.value i)))
  | .record i => some (s.readRecord i)
  | .wall i => some (plain (s.wall i).encode)
  | .layer i p =>
    let w := s.wall i
    ((withBottoms w.base w.queue)[p.val]?).map fun x => plain (x.2.encode x.1 s.pourClock s.params.setAgeS)
  | .condition c => some (plain (s.readCondition c))
  | .channel c => some (s.channel c).fields
  | .relay i => (s.relaySlot i).map RelaySlot.fields
  | .monitorState i => some (plain (s.readMonitor i))
  | .markerState i => some (plain (s.readMarker i))
  | .cycleResult p => s.level.latest.map fun r => r.fields p.val
  | .agentCounters i => some (plain (s.readAgent i))

end Sys2Proof.Machine
end

