-- ==== Sys2Proof/Machine/Level.lean ====
section
/-! DEFINITION. The Level Unit: the computation of a cycle result (chapter 3). -/

namespace Sys2Proof.Machine

open Sys2Proof

/-! ## The rate clock (R50) -/

/-- The rate clock start after a change of rise mode has reached the Level Unit (R50). The switches between CLIMB and
TRIM come from a computation, which has set it already. -/
def rateClockAfter (clock : Option Nat) (m : ModeChange) : Option Nat :=
  match m.old, m.new with
  | .idle, .climb => some m.moment
  | .hold, .climb => some m.moment
  | .climb, .climb => clock
  | .climb, _ => none
  | _, _ => clock

/-! ## Participants, heights and errors (R43, R45, R46) -/

/-- The height of a JACK slot's last report. -/
def NodeRecord.height (r : NodeRecord) : Option Nat :=
  match r.lastReport with
  | some (.jack h _ _) => some h
  | _ => none

/-- Whether a slot takes part in the computation (R43). -/
def State.participates (s : State) (i : Slot) : Bool :=
  (s.node i).enabled && decide ((s.node i).kind = .jack) && decide ((s.record i).state = .active)
    && s.sweep.replies.contains i

/-- The participants, ascending (R43). -/
def State.participants (s : State) : List Slot := allSlots.filter s.participates

/-- The corrected height of a participant (R45). -/
def State.correctedHeight (s : State) (i : Slot) : Int :=
  (((s.record i).height.getD 0 : Nat) : Int) - (s.node i).zero.getD 0

/-- The reference height of corrected heights: the floor of their mean (R45). -/
def referenceHeight (cs : List Int) : Option Int :=
  match cs with
  | [] => none
  | cs => some (cs.sum / cs.length)

/-- The spread of errors: the greatest less the least, 0 when there is none (R46). -/
def spreadOf (es : List Int) : Nat :=
  match es with
  | [] => 0
  | e :: es => ((es.foldl max e) - (es.foldl min e)).toNat

/-! ## Tests (R44, R47, R48) -/

/-- Whether QUORUM's source is active for n participants (R44). -/
def State.quorumActive (s : State) (n : Nat) : Bool :=
  (decide (0 < n) && decide (n < s.params.minJacks)) ||
    (decide (n = 0) && allSlots.any fun i => (s.node i).enabled && decide ((s.node i).kind = .jack))

/-- The step mode that the spread test fixes from the mode read (R47). -/
def stepModeOf (p : Params) (mode : RiseMode) (n spread : Nat) : RiseMode :=
  if n = 0 then mode
  else match mode with
    | .climb => if spread > p.trimBand then .trim else .climb
    | .trim => if spread ≤ p.trimExit then .climb else .trim
    | m => m

/-! ## The requested step (R51, R52) -/

/-- The credited time of a CLIMB computation: time since the rate clock start, capped (R51). Without a start the value
is free. -/
def creditedTime (p : Params) (now free : Nat) (clock : Option Nat) : Nat :=
  match clock with
  | some t => min (now - t) (2 * p.cycleMs)
  | none => min (Config.unstatedCredit free) (2 * p.cycleMs)

/-- The numerator of the requested step (R51). -/
def rateNumerator (p : Params) (t remainder : Nat) : Nat := p.rateReq * t + remainder

/-! ## The gates (R53, R54) -/

/-- The least of a list. -/
def leastOf : List Int → Option Int
  | [] => none
  | x :: xs => some (xs.foldl min x)

/-- The enabled segments, ascending. -/
def State.enabledSegments (s : State) : List SegmentIx := allSegments.filter fun k => (s.segment k).enabled

/-- The fill gate against an H_ref (R53). -/
def State.fillGate (s : State) (h : Int) : Option Int :=
  leastOf (s.enabledSegments.map fun k => ((s.wall k).top : Int) + s.params.maxVoid - h)

/-- The set gate against a B (R54). -/
def State.setGate (s : State) (b : Int) : Option Int :=
  leastOf (s.enabledSegments.filterMap fun k =>
    ((s.wall k).lowestUnset s.pourClock s.params.setAgeS).map fun (u : Nat) => (u : Int) - b)

/-! ## The common step and its binding (R55, R56) -/

/-- The terms of the minimum in the order RATE, FILL, SET, CAP; an absent gate is left out (R55, R56). -/
def stepTerms (sReq : Nat) (aFill aSet : Option Int) (sMax : Nat) : List (Binding × Int) :=
  [(.rate, (sReq : Int))] ++ (aFill.map fun a => (Binding.fill, a)).toList
    ++ (aSet.map fun a => (Binding.set, a)).toList ++ [(.cap, (sMax : Int))]

/-- The first of the terms that gives the least value (R56). -/
def firstLeast : List (Binding × Int) → Option (Binding × Int)
  | [] => none
  | x :: xs =>
    match firstLeast xs with
    | none => some x
    | some y => if x.2 ≤ y.2 then some x else some y

/-- The common step (R43, R55). -/
def commonStep (n sReq : Nat) (aFill aSet : Option Int) (sMax : Nat) : Nat :=
  if n = 0 then 0
  else match firstLeast (stepTerms sReq aFill aSet sMax) with
    | some x => x.2.toNat
    | none => 0

/-- The binding of the common step (R56). -/
def bindingOf (n sReq : Nat) (aFill aSet : Option Int) (sMax : Nat) : Binding :=
  if n = 0 ∨ sReq = 0 then .none
  else match firstLeast (stepTerms sReq aFill aSet sMax) with
    | some x => x.1
    | none => .none

/-! ## Demands (R57) -/

/-- The correction of an error: gain × e / 16 rounded half away from zero (R57). -/
def correction (gain : Nat) (e : Int) : Int :=
  let x : Int := gain * e
  if 0 ≤ x then (x + 8) / 16 else -((8 - x) / 16)

/-- The demand of a participant in a step mode that makes demands (R57). -/
def demandOf (gain step strokeMax : Nat) (e : Int) : Nat :=
  (clampInt 0 strokeMax ((step : Int) - correction gain e)).toNat

/-- Whether a step mode makes demands (R57). -/
def RiseMode.makesDemands : RiseMode → Bool
  | .climb => true
  | .trim => true
  | .idle => false
  | .hold => false
  | .halt => false

/-! ## The computation (R41, R42, R58) -/

/-- The cycle result of a computation whose mode read at its start was `mode` and whose rate clock start was `clock`
(R42, stages 1, 2 and 4 to 6, with the step mode of stage 3). -/
def State.cycleResult (s : State) (mode : RiseMode) (clock : Option Nat) : CycleResult :=
  let p := s.params
  let parts := s.participants
  let n := parts.length
  let hRef := referenceHeight (parts.map s.correctedHeight)
  let bottom : Option Int := hRef.map fun (h : Int) => h - (p.formHeight : Int)
  let errors : List SlotError := match hRef with
    | some h => parts.map fun i => { slot := i, error := s.correctedHeight i - h }
    | none => []
  let spread := spreadOf (errors.map SlotError.error)
  let stepMode := stepModeOf p mode n spread
  let switched := decide (mode = .trim) && decide (stepMode = .climb)
  let climbing := decide (stepMode = .climb)
  let t := if switched then 0 else creditedTime p s.now s.free clock
  let carried := if switched then 0 else s.level.remainder
  let numerator := rateNumerator p t carried
  let sReq := if climbing then numerator / Config.rateUnit else 0
  let remainder := if climbing then numerator % Config.rateUnit else 0
  let aFill := hRef.bind s.fillGate
  let aSet := bottom.bind s.setGate
  let step := commonStep n sReq aFill aSet p.sMax
  { cycleNumber := (s.level.cycleNumber + 1) % (Config.max32 + 1)
    time := s.now
    stepMode := stepMode
    n := n
    hRef := hRef
    bottom := bottom
    previousHRef := s.level.latest.bind CycleResult.hRef
    spread := spread
    errors := errors
    sReq := sReq
    remainder := remainder
    aFill := aFill
    aSet := aSet
    s := step
    binding := bindingOf n sReq aFill aSet p.sMax
    demands := errors.map fun e =>
      { slot := e.slot,
        demand := if stepMode.makesDemands
          then demandOf p.gain step ((s.node e.slot).strokeMax.getD 0) e.error else 0 } }

/-- The sources and the switch that a computation hands on before it publishes (R42 stage 3, R44, R47, R48); a
LEVEL_LIMIT that takes the mode to HALT stops the feed channels at once (R102). DESIGN
CHOICE, unsafe: QUORUM before LEVEL_LIMIT (notes/assumptions/33.md). -/
def State.handTests (s : State) (mode : RiseMode) (r : CycleResult) : State :=
  let s1 := s.evaluate .quorum (s.quorumActive r.n) none
  let s2 := (s1.evaluate .levelLimit (decide (r.spread > s.params.haltBand)) none).haltFeed s.mode
  if r.stepMode = mode then s2
  else s2.withTransit { s2.transit with spreadSwitches := s2.transit.spreadSwitches ++ [{ leaves := mode, enters := r.stepMode }] }

/-- The Level Unit and the hand-offs at the end of a computation (R50, R58). The mode changes that the computation's
own tests have made in a CLIMB computation leave the rate clock start as it sets it (R50). -/
def State.publish (s : State) (r : CycleResult) : State :=
  let t := s.transit
  let climbing := decide (r.stepMode = .climb)
  let s1 := s.withLevel { cycleNumber := r.cycleNumber, remainder := r.remainder,
                          rateClock := if climbing then some s.now else none, latest := some r }
  let s2 := s1.withTransit
    { t with dispatchResults := t.dispatchResults ++ [r], placementResults := t.placementResults ++ [r],
             markerResults := t.markerResults ++ [r], feedResults := t.feedResults ++ [r],
             rateModes := if climbing then [] else t.rateModes }
  s2.withJobs (s.jobs ++ [{ result := r, clock := s.pourClock, summary := none, marker := none }])

/-- The computation at a sweep-complete event (R41, R42). The changes of mode that have not reached the Level Unit
reach it before the computation reads the rate clock start (R50). -/
def State.compute (s : State) : State :=
  let mode := s.mode
  let clock := s.transit.rateModes.foldl rateClockAfter s.level.rateClock
  let s1 := (s.withTransit { s.transit with rateModes := [] }).withFree (s.free + 1)
  let r := s.cycleResult mode clock
  (s1.handTests mode r).publish r

end Sys2Proof.Machine
end

