-- ==== Sys2Proof/Machine/Nodes.lean ====
section
/-! DEFINITION. Node records, the node condition sources, stroke verification and the sweep due time (chapters 1
and 2). -/

namespace Sys2Proof.Machine

open Sys2Proof

/-! ## Node condition sources (R10, R36) -/

/-- The lowest enabled JACK slot that is LOST or FAULTED (R10). -/
def State.lostJack (s : State) : Option Slot :=
  allSlots.find? fun i => (s.node i).enabled && decide ((s.node i).kind = .jack) &&
    (decide ((s.record i).state = .lost) || decide ((s.record i).state = .faulted))

/-- The lowest enabled OUTLET or SENSOR slot that is LOST (R10). -/
def State.lostNode (s : State) : Option Slot :=
  allSlots.find? fun i => (s.node i).enabled && decide ((s.node i).kind ≠ .jack) && decide ((s.record i).state = .lost)

/-- Evaluation of the JACK_LOST and NODE_LOST sources (R10). -/
def State.evaluateNodes (s : State) : State :=
  let jack := s.lostJack
  let node := s.lostNode
  (s.evaluate .jackLost jack.isSome (jack.map Fin.val)).evaluate .nodeLost node.isSome (node.map Fin.val)

/-- The lowest enabled JACK slot whose short counter has reached the limit (R36). -/
def State.shortJack (s : State) : Option Slot :=
  allSlots.find? fun i => (s.node i).enabled && decide ((s.node i).kind = .jack) &&
    decide (s.params.shortLimit ≤ (s.record i).shortCounter)

/-- Evaluation of the JACK_SHORT source (R36). -/
def State.evaluateShort (s : State) : State :=
  let jack := s.shortJack
  s.evaluate .jackShort jack.isSome (jack.map Fin.val)

/-! ## Records at the end of an exchange (R3 to R5) -/

/-- A record after a valid REPORT, before a JACK's height becomes its previous height (R3). -/
def NodeRecord.reported (r : NodeRecord) (report : Report) : NodeRecord :=
  { r with missCount := 0, lastReport := some report,
           state := if report.fault then .faulted else .active,
           previousHeight := if r.state = .lost then none else r.previousHeight }

/-- A record after a valid ACK (R4). -/
def NodeRecord.acked (r : NodeRecord) : NodeRecord :=
  { r with missCount := 0,
           state := match r.state with
             | .stale => .active
             | .lost => .active
             | .active => .active
             | .faulted => .faulted
             | .disabled => .disabled
           previousHeight := if r.state = .lost then none else r.previousHeight }

/-- A record after a miss under a `miss_limit` (R5). -/
def NodeRecord.missed (r : NodeRecord) (limit : Nat) : NodeRecord :=
  let count := satAdd 15 r.missCount 1
  if limit ≤ count then { r with missCount := count, state := .lost }
  else { r with missCount := count, state := .stale,
                previousHeight := if r.state = .lost then none else r.previousHeight }

/-- A record after a commit (R8). -/
def NodeRecord.committed (r : NodeRecord) : NodeChange → NodeRecord
  | .disabled => NodeRecord.disabledForm
  | .fresh => NodeRecord.fresh
  | .kept => r

/-- A record after RESTART: DISABLED records stay (R7). -/
def NodeRecord.restarted (r : NodeRecord) (enabled : Bool) : NodeRecord :=
  if enabled then { r with state := .active, missCount := 0, shortCounter := 0, previousHeight := none, pollDue := none }
  else r

/-! ## Stroke verification (R32 to R36) -/

/-- A slot's short counter takes a value; a change re-evaluates JACK_SHORT (R36). -/
def State.setShort (s : State) (i : Slot) (n : Nat) : State :=
  if (s.record i).shortCounter = n then s
  else (s.setRecord i { s.record i with shortCounter := n }).evaluateShort

/-- The standard check of an achieved stroke against an expected one (R33). -/
def State.standardCheck (s : State) (i : Slot) (achieved : Int) (expected : Nat) : State :=
  let p := s.params
  if achieved < -(p.slipTol : Int) then s.raise .jackSlip (some i.val)
  else if achieved > (expected : Int) + p.overTol then s.raise .jackOver (some i.val)
  else if 0 < expected ∧ achieved < (expected : Int) - p.shortTol then
    s.setShort i (satAdd 15 (s.record i).shortCounter 1)
  else s.setShort i 0

/-- The tolerant check of an achieved stroke against an unconfirmed demand (R34). -/
def State.tolerantCheck (s : State) (i : Slot) (achieved : Int) (d : Nat) : State :=
  let p := s.params
  if achieved < -(p.slipTol : Int) then s.raise .jackSlip (some i.val)
  else if achieved > (d : Int) + p.overTol then s.raise .jackOver (some i.val)
  else s

/-- Stroke verification of a jack's report against its previous height; the expectation is cleared (R31, R32). A
JACK_SLIP that takes the mode to HALT stops the feed channels in this event (R102). -/
def State.verifyStroke (s : State) (i : Slot) (height : Nat) (previous : Option Nat) : State :=
  let checked : State := match previous with
    | none => s
    | some p =>
      let achieved : Int := (height : Int) - p
      match s.expectation i with
      | none => s.standardCheck i achieved 0
      | some e => if e.confirmed then s.standardCheck i achieved e.demand else s.tolerantCheck i achieved e.demand
  (checked.setExpectation i none).haltFeed s.mode

/-! ## The due time (R16) -/

/-- The sweep period of the rise mode and parameters in force (R16). -/
def State.sweepPeriod (s : State) : Nat :=
  match s.mode with
  | .climb => s.params.cycleMs
  | .trim => s.params.cycleMs
  | .hold => s.params.cycleMs
  | .idle => s.params.idleMs
  | .halt => s.params.idleMs

/-- The due time recomputed from the latest sweep start; an instant already passed becomes the present one (R16). -/
def State.recomputeDue (s : State) : State :=
  match s.sweep.startedAt with
  | some t => s.withSweep { s.sweep with dueAt := max s.now (t + s.sweepPeriod) }
  | none => s

end Sys2Proof.Machine
end

