-- ==== Sys2Proof/Machine/Tables.lean ====
section
/-! DEFINITION. Staged edits, the checks of COMMIT and the application of a commit (chapter 9). -/

namespace Sys2Proof.Machine

open Sys2Proof

/-! ## Edits and prospective tables (R159, R166) -/

/-- The state with the active entry that an edit names replaced. -/
def State.applyEdit (s : State) : Edit → State
  | .node i e => s.withNodes (s.nodes.write i e)
  | .segment i e => s.withSegments (s.segments.write i e)
  | .descriptor i e => s.withFeed { s.feed with descriptors := s.feed.descriptors.write i e }
  | .monitor i e => s.withMonitors { s.monitors with entries := s.monitors.entries.write i e }
  | .marker i e => s.withMarkers { s.markers with entries := s.markers.entries.write i e }
  | .agent i e => s.withAgents { s.agents with entries := s.agents.entries.write i e }
  | .parameter i v => s.withParams (s.params.set i v)

/-- The active tables with every staged edit in place (R166). -/
def State.prospective (s : State) : State := s.command.staged.foldl State.applyEdit s

/-- The staged edit list after a WRITE that finds its place (R159, R164). -/
def stageEdit (staged : List Edit) (e : Edit) : List Edit :=
  if staged.any (fun x => x.key == e.key) then staged.map fun x => if x.key == e.key then e else x else staged ++ [e]

/-! ## The checks of COMMIT (R166) -/

/-- The lowest enabled slot whose address equals that of a lower enabled slot (R166, check 1). -/
def State.addressConflict (s : State) : Option Slot :=
  allSlots.find? fun i => (s.node i).enabled &&
    allSlots.any fun j => decide (j < i) && (s.node j).enabled && decide ((s.node j).address = (s.node i).address)

/-- The lowest enabled descriptor that does not name an enabled segment and an enabled OUTLET slot (R166, check 2). -/
def State.badDescriptor (s : State) : Option DescriptorIx :=
  (List.finRange 64).find? fun d =>
    let e := s.descriptor d
    e.enabled && !((s.segment e.segment).enabled && (s.node e.outlet).enabled
      && decide ((s.node e.outlet).kind = .outlet))

/-- The first parameter of the first relation that fails (R166, check 3). -/
def badRelation (p : Params) : Option ParamIx :=
  if ¬ p.trimExit < p.trimBand then some 13
  else if ¬ p.trimBand < p.haltBand then some 12
  else if ¬ p.strokeMs < p.cycleMs then some 1
  else if ¬ p.freeboard ≤ p.maxVoid then some 21
  else none

/-- Whether a staged edit changes the kind or the address of a slot that is an enabled JACK in the active table (R113,
R168). -/
def State.changesJack (s : State) (i : Slot) : Edit → Bool
  | .node j e => decide (j = i) && s.isJack i &&
      (decide (e.kind ≠ (s.node i).kind) || decide (e.address ≠ (s.node i).address))
  | _ => false

/-- Whether an edit leaves the slot it names enabled. -/
def Edit.keepsEnabled : Edit → Bool
  | .node _ e => e.enabled
  | _ => false

/-- Whether a staged edit re-addresses a jack: it changes the kind or address of an enabled JACK slot without disabling
it (R166, check 4). -/
def State.readdresses (s : State) (i : Slot) (e : Edit) : Bool := s.changesJack i e && e.keepsEnabled

/-- The lowest slot whose jack a staged edit re-addresses (R166, check 4). -/
def State.readdressedJack (s : State) : Option Slot :=
  allSlots.find? fun i => s.command.staged.any (s.readdresses i)

/-- The refusal of COMMIT with the table and index it names, if a check fails (R166). -/
def State.commitRefusal (s : State) : Option (OutcomeCode × Nat × Nat) :=
  let p := s.prospective
  match p.addressConflict, p.badDescriptor, badRelation p.params with
  | some i, _, _ => some (.conflict, 0, i.val)
  | none, some d, _ => some (.invalid, 2, d.val)
  | none, none, some q => some (.invalid, 6, q.val)
  | none, none, none =>
    if s.mode = .idle ∨ s.mode = .halt then none
    else s.readdressedJack.map fun i => (.notNow, 0, i.val)

/-! ## Application (R169, R170) -/

/-- What the commit does to a slot's record, from the Node Table before it. -/
def State.changeOf (s : State) (old : Table NodeEntry 128) (i : Slot) : NodeChange := nodeChange (old.read i) (s.node i)

/-- Node records and stroke expectations at a commit application (R8, R31). -/
def State.commitRecords (s : State) (old : Table NodeEntry 128) : State :=
  (s.withRecords (Table.tabulate fun i => (s.record i).committed (s.changeOf old i))).withExpectations
    (Table.tabulate fun i => if s.changeOf old i = .kept then s.expectation i else none)

/-- The due time at a commit application: recomputed when a period has changed (R16). -/
def State.commitDue (s : State) (old : Params) : State :=
  if s.params.cycleMs = old.cycleMs ∧ s.params.idleMs = old.idleMs then s else s.recomputeDue

/-- Whether an edit writes a marker. -/
def Edit.writesMarker (i : MarkerIx) : Edit → Bool
  | .marker j _ => decide (j = i)
  | _ => false

/-- Whether an edit writes an agent. -/
def Edit.writesAgent (i : AgentIx) : Edit → Bool
  | .agent j _ => decide (j = i)
  | _ => false

/-- Every written marker becomes ARMED (R155). -/
def State.commitMarkers (s : State) (edits : List Edit) : State :=
  let spent : Table Bool 24 := Table.tabulate fun i => s.markers.spent.read i && !edits.any (Edit.writesMarker i)
  s.withMarkers { s.markers with spent := spent }

/-- `rate_req` is lowered to a lowered `rate_max` (R49). -/
def State.commitRate (s : State) : State := s.withParams (s.params.set 11 (min s.params.rateReq s.params.rateMax))

/-- Every written agent's counter becomes 0 (R181). -/
def State.commitAgents (s : State) (edits : List Edit) : State :=
  let counters : Table Nat 16 := Table.tabulate fun i =>
    if edits.any (Edit.writesAgent i) then 0 else s.agents.counters.read i
  s.withAgents { s.agents with counters := counters }

/-- The staged list is emptied and COMMIT_DONE is added, with the number of the computation that is to come in the same
event (R170). -/
def State.commitDone (s : State) : State :=
  let s' := s.withCommand { s.command with staged := [], commitPending := false, commitSeq := none }
  s'.addReply (.commitDone (s.command.commitSeq.getD 0) s.command.staged.length
    ((s.level.cycleNumber + 1) % (Config.max32 + 1)))

/-- The staged edits replace the active entries, all together, and each block acts on the change (R169). DESIGN CHOICE,
unsafe: the order in which the blocks act and hand on their evaluations (R128), which R169 does not fix
(notes/assumptions/35.md). -/
def State.applyCommit (s : State) : State :=
  let edits := s.command.staged
  let t := s.prospective
  let t := (((t.commitRecords s.nodes).evaluateNodes).evaluateShort).commitDue s.params
  let t := t.commitWalls s.segments
  let t := t.commitFeed s.nodes s.segments
  let t := t.commitMonitors s.monitors.entries
  let t := ((t.commitMarkers edits).commitRate.commitAgents edits).commitRelays s.nodes
  t.commitDone

end Sys2Proof.Machine
end

