-- ==== Sys2Proof/Machine/Sweep.lean ====
section
/-! DEFINITION. The sweep context: start, advance and the sweep-complete event (section 1.4). -/

namespace Sys2Proof.Machine

open Sys2Proof

/-- Whether RING_DOWN's source is active for a polled set and a reply list (R15). -/
def ringDownActive (polled replies : List Slot) : Bool := !polled.isEmpty && replies.isEmpty

/-- Steps 3 and 4 of a sweep-complete event: the pending commit is applied, and the reply list is cut to the slots whose
records it left (R14). -/
def State.commitAtComplete (s : State) : State :=
  if s.command.commitPending then
    let t := s.applyCommit
    t.withSweep { t.sweep with replies := t.sweep.replies.filter fun i => decide (t.changeOf s.nodes i = .kept) }
  else s

/-- The sweep-complete event (R14): the sweep ends, RING_DOWN is set (R15) and stops the feed
channels if it takes the mode to HALT (R102), the monitor sources are evaluated (R147), a
pending commit is applied, and the computation is made. -/
def State.sweepComplete (s : State) : State :=
  let s1 := s.withSweep { s.sweep with running := false, cursor := none }
  let s2 := (s1.evaluate .ringDown (ringDownActive s.sweep.polled s.sweep.replies) none).haltFeed s.mode
  s2.evaluateMonitors.commitAtComplete.compute

/-- The slot of a polled set that follows a slot (R13). -/
def nextPolled (polled : List Slot) (i : Slot) : Option Slot := polled.find? fun j => decide (i < j)

/-- The exchange with a slot of the running sweep has ended: the cursor moves on, or the sweep is complete (R13). -/
def State.advanceSweep (s : State) (i : Slot) : State :=
  match nextPolled s.sweep.polled i with
  | some j => s.withSweep { s.sweep with cursor := some j }
  | none => s.sweepComplete

/-- A slot joins the reply list, which stays ascending since polls ascend (R13). -/
def State.addToReplies (s : State) (i : Slot) : State :=
  s.withSweep { s.sweep with replies := if s.sweep.replies.contains i then s.sweep.replies else s.sweep.replies ++ [i] }

/-- Whether a due sweep may start, the ring and the rank-1 service apart (R12). -/
def State.sweepReady (s : State) : Bool :=
  decide (s.sweep.dueAt ≤ s.now) && !s.sweep.running && decide (s.dispatch.state = .idle) &&
    s.transit.dispatchResults.isEmpty

/-- Whether a sweep that starts now starts late (R12). -/
def State.startsLate (s : State) : Bool := decide (s.params.cycleMs / 4 < s.now - s.sweep.dueAt)

/-- A sweep starts (R12, R16, R184); an empty polled set completes at once. -/
def State.startSweep (s : State) : State :=
  let polled := allSlots.filter fun i => (s.node i).enabled
  let s1 := s.withSweep { running := true, dueAt := s.now + s.sweepPeriod, startedAt := some s.now, polled := polled,
                          cursor := polled.head?, replies := [] }
  let s2 := s1.withConsole (s1.console.refilled s1.params.fwdBudget)
  let s3 := if s.startsLate then s2.raise .cycleLate none else s2
  if polled.isEmpty then s3.sweepComplete else s3

end Sys2Proof.Machine
end

