-- ==== Sys2Proof/Machine/Commands.lean ====
section
/-! DEFINITION. The console commands' effects and replies (chapters 6, 7, 9 and 10, R195). -/

namespace Sys2Proof.Machine

open Sys2Proof

/-! ## Taking a command (R157, R158) -/

/-- The reply to a command joins the reply queue (R157). -/
def State.reply (s : State) (seq code : Byte) (outcome : OutcomeCode) (fields : List Field) : State :=
  s.addReply (.reply seq code outcome fields)

/-- The reply OK with plain result bytes. -/
def State.replyOk (s : State) (seq code : Byte) (bytes : List Byte) : State := s.reply seq code .ok (plain bytes)

/-- The reply MALFORMED; nothing else changes (R158). -/
def State.replyMalformed (s : State) (seq code : Byte) : State := s.reply seq code .malformed []

/-- A refusal without result fields. -/
def State.refuse (s : State) (seq code : Byte) (outcome : OutcomeCode) : State := s.reply seq code outcome []

/-- A command frame reaches a part that runs: the silence timer restarts, then the command is taken (R157, R177, R178).
DESIGN CHOICE, unsafe: the clear of an active CONSOLE_SILENT source comes before the command that the frame carries
(R113, R139, notes/assumptions/39.md). -/
def State.onCommand (s : State) (f : State → State) : State := s.whenRunning fun t => f t.silenceReset

/-! ## Status, user words, rate (R171 to R173) -/

/-- The result fields of STATUS (R173). -/
def State.statusBytes (s : State) : List Byte :=
  [s.mode.code, s.command.startCause.code] ++ u32 ((s.level.latest.map CycleResult.cycleNumber).getD 0)
    ++ u32 s.pourClock
    ++ [yesNoByte s.command.commitPending, u8 s.command.staged.length, s.feed.channelA.state.code,
        s.feed.channelB.state.code]

/-- STATUS (R173). -/
def State.takeStatus (s : State) (seq : Byte) (args : List Byte) : State :=
  match args with
  | [] => s.replyOk seq 0x01 s.statusBytes
  | _ => s.replyMalformed seq 0x01

/-- READ (R162). -/
def State.takeRead (s : State) (seq : Byte) (args : List Byte) : State :=
  match args with
  | [target, index, second] =>
    match readTarget? target index second with
    | some t =>
      match s.readFields t with
      | some fields => s.reply seq 0x02 .ok (.bytes [target, index, second] :: fields)
      | none => s.refuse seq 0x02 .noSuch
    | none => s.replyMalformed seq 0x02
  | _ => s.replyMalformed seq 0x02

/-- SET RATE (R171). -/
def State.takeSetRate (s : State) (seq : Byte) (args : List Byte) : State :=
  match args with
  | [r1, r0] =>
    let s' := s.writeRate (natOfBytes [r1, r0])
    s'.replyOk seq 0x0A (u16 s'.params.rateReq)
  | _ => s.replyMalformed seq 0x0A

/-- SET USER (R172). -/
def State.takeSetUser (s : State) (seq : Byte) (args : List Byte) : State :=
  match args with
  | [a1, a0, b1, b0, c1, c0, d1, d0] =>
    let words : UserWords := { w0 := natOfBytes [a1, a0], w1 := natOfBytes [b1, b0], w2 := natOfBytes [c1, c0],
                               w3 := natOfBytes [d1, d0] }
    (s.withCommand { s.command with user := words }).reply seq 0x12 .ok []
  | _ => s.replyMalformed seq 0x12

/-! ## Staging and COMMIT (R163 to R168) -/

/-- WRITE (R163, R164). -/
def State.takeWrite (s : State) (seq : Byte) (args : List Byte) : State :=
  match parseEdit args with
  | none => s.replyMalformed seq 0x03
  | some e =>
    if s.command.commitPending then s.refuse seq 0x03 .busy
    else if s.command.staged.any (fun x => x.key == e.key) ∨ s.command.staged.length < Config.stagedPlaces then
      let staged := stageEdit s.command.staged e
      (s.withCommand { s.command with staged := staged }).replyOk seq 0x03 [u8 staged.length]
    else s.refuse seq 0x03 .full

/-- DISCARD (R165). -/
def State.takeDiscard (s : State) (seq : Byte) (args : List Byte) : State :=
  match args with
  | [] =>
    if s.command.commitPending then s.refuse seq 0x04 .busy
    else (s.withCommand { s.command with staged := [] }).replyOk seq 0x04 [u8 s.command.staged.length]
  | _ => s.replyMalformed seq 0x04

/-- COMMIT (R166, R167). -/
def State.takeCommit (s : State) (seq : Byte) (args : List Byte) : State :=
  match args with
  | [] =>
    if s.command.commitPending then s.refuse seq 0x05 .busy
    else match s.commitRefusal with
      | some (outcome, table, index) => s.reply seq 0x05 outcome (plain [u8 table, u8 index])
      | none =>
        (s.withCommand { s.command with commitPending := true, commitSeq := some seq }).replyOk seq 0x05
          [u8 s.command.staged.length]
  | _ => s.replyMalformed seq 0x05

/-! ## Mode commands (R113 to R116) -/

/-- Whether enough jacks and a segment are enabled for START (R113). -/
def State.deckReady (s : State) : Bool :=
  decide (s.params.minJacks ≤ allSlots.countP s.isJack) && allSegments.any fun k => (s.segment k).enabled

/-- Whether a pending commit blocks START: an edit of it changes the kind or address of an enabled JACK slot, whether or
not it disables the slot (R113, R168). -/
def State.startBlocked (s : State) : Bool :=
  s.command.commitPending && allSlots.any fun i => s.command.staged.any (s.changesJack i)

/-- The outcome of START and the mode it enters, if it changes it (R113). -/
def State.startOutcome (s : State) : OutcomeCode × Option RiseMode :=
  match s.mode with
  | .halt => (.notNow, none)
  | .climb => (.ok, none)
  | .trim => (.ok, none)
  | .hold => (.ok, none)
  | .idle =>
    if !s.haltQuiet || !s.deckReady || s.startBlocked then (.notReady, none)
    else if s.holdQuiet then (.ok, some .climb)
    else (.ok, some .hold)

/-- A START taken while no sweep runs makes a sweep due at once (R17). The due time it sets is not recomputed for its
own change of mode. -/
def State.dueAtOnce (s : State) : State :=
  if s.sweep.running then s
  else (s.withSweep { s.sweep with dueAt := s.now }).withTransit { s.transit with sweepModes := [] }

/-- START (R113, R17). -/
def State.takeStart (s : State) (seq : Byte) (args : List Byte) : State :=
  match args with
  | [] =>
    let o := s.startOutcome
    let s' := match o.2 with
      | some m => s.changeMode m
      | none => s
    s'.dueAtOnce.reply seq 0x06 o.1 []
  | _ => s.replyMalformed seq 0x06

/-- STOP (R114). -/
def State.takeStop (s : State) (seq : Byte) (args : List Byte) : State :=
  match args with
  | [] => (s.changeMode .idle).reply seq 0x07 .ok []
  | _ => s.replyMalformed seq 0x07

/-- HOLD (R115, R131). -/
def State.takeHold (s : State) (seq : Byte) (args : List Byte) : State :=
  match args with
  | [] => (s.evaluate .manualHold true none).reply seq 0x08 .ok []
  | _ => s.replyMalformed seq 0x08

/-- RELEASE (R116, R131). -/
def State.takeRelease (s : State) (seq : Byte) (args : List Byte) : State :=
  match args with
  | [] => s.releaseManual.reply seq 0x09 .ok []
  | _ => s.replyMalformed seq 0x09

/-! ## Condition commands (R132, R134, R136) -/

/-- ACK (R132). -/
def State.takeAck (s : State) (seq : Byte) (args : List Byte) : State :=
  match args with
  | [n] =>
    match Cond.ofNum n.toNat with
    | none => s.replyMalformed seq 0x0B
    | some c =>
      if s.quiet c then s.reply seq 0x0B .noSuch (plain [n, u8 (s.condition c).count])
      else
        let s' := s.acknowledge c
        s'.replyOk seq 0x0B [n, (s'.condition c).state.code, u8 (s'.condition c).count]
  | _ => s.replyMalformed seq 0x0B

/-- The result fields of POLL CONDITION (R136). -/
def State.pollBytes (s : State) : List Byte :=
  match s.topCondition with
  | none => [255]
  | some c =>
    let r := s.condition c
    [u8 c.num.val, c.cls.code, c.kind.code, r.state.code, u8 (r.detail.getD 255), u8 r.count]

/-- POLL CONDITION (R136). -/
def State.takePoll (s : State) (seq : Byte) (args : List Byte) : State :=
  match args with
  | [] => s.replyOk seq 0x0C s.pollBytes
  | _ => s.replyMalformed seq 0x0C

/-- The report mask that a 24-bit condition set spells (R134, R195). -/
def maskOf (set : Nat) : Table Bool 18 := Table.tabulate fun i => set.testBit i.val

/-- MASK (R134). -/
def State.takeMask (s : State) (seq : Byte) (args : List Byte) : State :=
  match args with
  | [b2, b1, b0] =>
    let set := natOfBytes [b2, b1, b0]
    if set < 262144 then
      let s' := s.withConditions { s.conditions with masked := maskOf set }
      s'.replyOk seq 0x0D [optIndex (s'.topCondition.map Cond.num)]
    else s.replyMalformed seq 0x0D
  | _ => s.replyMalformed seq 0x0D

/-! ## Feed commands and PLACE (R71, R100, R101) -/

/-- Whether a channel is at work, so that FEED START finds it BUSY (R100). -/
def ChannelState.busy : ChannelState → Bool
  | .wait => true
  | .opened => true
  | .closing => true
  | .paused => true
  | .idle => false
  | .done => false
  | .stopped => false

/-- A channel is started at a descriptor (R100). -/
def State.startChannel (s : State) (c : Channel) (d : DescriptorIx) : State :=
  ((s.setChannel c { s.channel c with deferred := [] }).loadAndTest c d).evaluateJam

/-- FEED START (R100). -/
def State.takeFeedStart (s : State) (seq : Byte) (args : List Byte) : State :=
  match args with
  | [ch, ix] =>
    match channel? ch, index? 64 ix with
    | some c, some d =>
      if s.mode = .halt then s.refuse seq 0x0E .notNow
      else if (s.channel c).state.busy then s.refuse seq 0x0E .busy
      else if (s.descriptor d).enabled then (s.startChannel c d).reply seq 0x0E .ok []
      else s.refuse seq 0x0E .noSuch
    | _, _ => s.replyMalformed seq 0x0E
  | _ => s.replyMalformed seq 0x0E

/-- FEED STOP (R101). -/
def State.takeFeedStop (s : State) (seq : Byte) (args : List Byte) : State :=
  match args with
  | [ch] =>
    match channel? ch with
    | some c => (s.stopChannel c .stop).reply seq 0x0F .ok []
    | none => s.replyMalformed seq 0x0F
  | _ => s.replyMalformed seq 0x0F

/-- The result fields of PLACE (R71). -/
def SegmentLive.placeBytes (w : SegmentLive) : List Byte := u32 w.top ++ u32 w.remainder ++ [u8 w.queue.length]

/-- PLACE (R71). -/
def State.takePlace (s : State) (seq : Byte) (args : List Byte) : State :=
  match args with
  | [k, l1, l0] =>
    match index? 32 k, ranged? 1 4000 (natOfBytes [l1, l0]) with
    | some k, some v =>
      if (s.segment k).enabled then
        let s' := s.place k v .manual none none
        s'.replyOk seq 0x10 (s'.wall k).placeBytes
      else s.refuse seq 0x10 .noSuch
    | _, _ => s.replyMalformed seq 0x10
  | _ => s.replyMalformed seq 0x10

/-! ## RELAY (R188) -/

/-- RELAY for a tag that an occupied slot carries (R188, R190). -/
def State.collectRelay (s : State) (seq : Byte) (i : RelayIx) (x : RelaySlot) : State :=
  match x.state with
  | .queued => s.refuse seq 0x11 .pending
  | .inFlight => s.refuse seq 0x11 .pending
  | .done => (s.setRelaySlot i none).replyOk seq 0x11 (x.state.code :: listBytes (x.result.getD []))
  | .failed => (s.setRelaySlot i none).replyOk seq 0x11 [x.state.code]

/-- RELAY for a tag that no slot carries (R188). -/
def State.newRelay (s : State) (seq : Byte) (tag : Nat) (target : Slot) (payload : List Byte) : State :=
  if payload = [] then s.replyMalformed seq 0x11
  else if !(s.node target).enabled then s.refuse seq 0x11 .noSuch
  else if s.isJack target && s.mode.climbing then s.refuse seq 0x11 .notNow
  else match s.freeRelay with
    | none => s.refuse seq 0x11 .full
    | some i =>
      let x : RelaySlot := { tag := tag, target := target, payload := payload, state := .queued, queuedAt := s.now,
                             result := none, completion := none }
      (s.setRelaySlot i (some x)).replyOk seq 0x11 [x.state.code, u8 i.val]

/-- RELAY (R188). -/
def State.takeRelay (s : State) (seq : Byte) (args : List Byte) : State :=
  match args with
  | t :: sl :: payload =>
    match ranged? 1 255 t.toNat, index? 128 sl with
    | some tag, some target =>
      if payload.length ≤ 64 then
        match s.relayWithTag tag with
        | some i =>
          match s.relaySlot i with
          | some x => s.collectRelay seq i x
          | none => s.newRelay seq tag target payload
        | none => s.newRelay seq tag target payload
      else s.replyMalformed seq 0x11
    | _, _ => s.replyMalformed seq 0x11
  | _ => s.replyMalformed seq 0x11

/-- A relay result has stood uncollected for its time (R190). -/
def State.relayExpiry (s : State) (i : RelayIx) : State :=
  match s.relaySlot i with
  | some x =>
    match x.completion with
    | some t =>
      if t + Config.relayKeepMs ≤ s.now then
        let s' := s.setRelaySlot i none
        s'.withRelays { s'.relays with discards := satAdd 65535 s'.relays.discards 1 }
      else s
    | none => s
  | none => s

/-! ## RESTART (R174) -/

/-- The descriptor that a RESTART closure names (R103). -/
def State.closureDescriptor (s : State) (c : Channel) : Option DescriptorIx :=
  match (s.channel c).current with
  | some d => if (s.descriptor d).enabled then some d else none
  | none => none

/-- The closure of an opening at RESTART: the placement of what it has delivered, and a CLOSE that belongs to no channel
(R103). The placement's record is checked against the result that has reached the Placement Store, as every placement's
is (R69, R77): the closure is taken before RESTART makes that result absent (notes/assumptions/7.md). -/
def State.restartClosure (s : State) (c : Channel) (x : ChannelContext) (w : WorkingCopy) : State :=
  let s1 := if x.delivered = 0 then s
    else s.takePlacement w.segment x.delivered (sourceOf c) (s.closureDescriptor c)
  s1.queueExchange (s1.closeOf c w true)

/-- RESTART's closure of a channel that is OPEN or CLOSING (R103). -/
def State.closeAtRestart (s : State) (c : Channel) : State :=
  let x := s.channel c
  match x.state, x.working with
  | .opened, some w => s.restartClosure c x w
  | .closing, some w => s.restartClosure c x w
  | _, _ => s

/-- A channel context after RESTART (R103). R103 does not name open confirmed: DEDUCED, it is no (unsafe,
notes/assumptions/34.md). -/
def ChannelContext.restarted (x : ChannelContext) : ChannelContext := { ChannelContext.initial with tag := x.tag }

/-- The feed at RESTART: closures in channel order, then both channels IDLE with no claim (R103). -/
def State.restartFeed (s : State) : State :=
  let s1 := ((s.withdrawExchanges .a).withdrawExchanges .b)
  let s2 := (s1.closeAtRestart .a).closeAtRestart .b
  (s2.withFeed { s2.feed with channelA := s2.feed.channelA.restarted, channelB := s2.feed.channelB.restarted,
                              outletClaims := Table.const 128 none, note := none, seen := none }).withWalls
    (Table.tabulate fun k => { s2.wall k with claim := none })

/-- The ring at RESTART: the exchange on the line keeps the line with its result discarded (R18). -/
def Exchange.voided (x : Exchange) : Exchange := { x with discarded := true }

/-- The dispatch record at RESTART: a stroke window runs on (R28). -/
def Dispatch.restarted (d : Dispatch) : Dispatch := if d.state = .window then d else Dispatch.idle

/-- A frame on the console line that is of a beacon RESTART abandons (R187, R191). -/
def ConsoleTx.restarted (t : ConsoleTx) : ConsoleTx :=
  match t.kind with
  | .beacon first last _ => { t with kind := .beacon first last false }
  | .reply => t
  | .forward => t

/-- The console traffic at RESTART: the frame on the line goes to its end (R177, R178, R179, R183, R184, R187,
R191). -/
def Console.restarted (c : Console) (now : Nat) : Console := { Console.initial now with tx := c.tx.map ConsoleTx.restarted }

/-- The hand-offs at RESTART: those under way are dropped (notes/assumptions/10.md), but a cycle result under way to the
Placement Store still retires there, after the closures (R77). -/
def Transit.restarted (t : Transit) : Transit :=
  { Transit.initial with retirements := t.retirements ++ t.placementResults }

/-- The state after RESTART, but for its reply (R174): the feed's closures, then block by block the Ring Sequencer (R7,
R18, R28, R31), the Level Unit, the rise mode, the conditions, the markers, the Command Unit, the agents, the console and
the relays. What is not named is kept. -/
def State.restarted (s : State) : State :=
  let f := s.restartFeed
  { f with
    records := Table.tabulate fun i => (f.record i).restarted (f.node i).enabled
    expectations := Table.const 128 none
    sweep := { f.sweep with running := false, dueAt := f.now, cursor := none, replies := [] }
    ring := f.ring.map Exchange.voided
    dispatch := f.dispatch.restarted
    mode := .idle
    level := LevelUnit.initial
    placementSeen := none
    conditions := Conditions.initial
    markers := { f.markers with spent := Table.const 24 false, latest := none }
    command := { f.command with staged := [], commitPending := false, commitSeq := none, startCause := .restart }
    agents := { f.agents with counters := Table.const 16 0, drops := Table.const 16 0 }
    console := f.console.restarted f.now
    relays := { slots := Table.const 4 none, discards := 0 }
    transit := f.transit.restarted
    jobs := [] }

/-- RESTART (R174): its reply is the first record of the emptied queue. -/
def State.takeRestart (s : State) (seq : Byte) (args : List Byte) : State :=
  match args with
  | [] => s.restarted.reply seq 0x13 .ok []
  | _ => s.replyMalformed seq 0x13

/-! ## Other events of the Command Unit and the Rise Mode Controller -/

/-- UNKNOWN_COMMAND (R158). -/
def State.takeUnknown (s : State) (seq code : Byte) : State := s.refuse seq code .unknown

/-- A spread switch reaches the Rise Mode Controller (R112). -/
def State.takeSwitch (s : State) (x : SpreadSwitch) : State := if s.mode = x.leaves then s.changeMode x.enters else s

end Sys2Proof.Machine
end

