-- ==== Sys2Proof/Machine/Ring.lean ====
section
/-! DEFINITION. The ring: order of service, exchanges, replies and misses (chapters 1 and 2, R194). -/

namespace Sys2Proof.Machine

open Sys2Proof

/-! ## Order of service (R20) -/

/-- Rank 1: the poll of a running sweep, or the start of a due sweep that meets the tests of R12. -/
def State.grantSweep (s : State) : Option Grant :=
  if s.sweep.running then s.sweep.cursor.map Grant.sweepPoll
  else if s.sweepReady then some .sweepStart
  else none

/-- Whether a change of rise mode abandons a dispatch (R27). -/
def ModeChange.abandons (m : ModeChange) : Bool := !m.new.climbing

/-- Whether the dispatch still stands: CLIMB or TRIM, and no abandoning change under way to it (R26, R27). -/
def State.dispatchSends (s : State) : Bool := s.mode.climbing && !s.transit.dispatchModes.any ModeChange.abandons

/-- The dispatch entry of a slot. -/
def Dispatch.entryOf (d : Dispatch) (i : Slot) : Option DispatchEntry := d.entries.find? fun e => decide (e.slot = i)

/-- Rank 2: the DEMAND at the cursor, or the GO. -/
def State.grantDispatch (s : State) : Option Grant :=
  if s.dispatchSends then
    match s.dispatch.state with
    | .demanding => (s.dispatch.cursor.bind s.dispatch.entryOf).map Grant.demand
    | .goReady => some .go
    | .idle => none
    | .window => none
  else none

/-- Whether a waiting exchange goes before another: it waits longer, or as long and is channel A's. -/
def FeedExchange.before (x y : FeedExchange) : Bool :=
  decide (x.since < y.since) || (decide (x.since = y.since) && decide (x.channel = .a) && decide (y.channel = .b))

/-- The first of the waiting exchanges by an order; an earlier one stays first among equals. -/
def firstBy {α : Type} (before : α → α → Bool) : List α → Option α
  | [] => none
  | x :: xs => some (xs.foldl (fun y z => if before z y then z else y) x)

/-- Rank 3: the OPEN or CLOSE that waits longest. -/
def State.grantFeed (s : State) : Option Grant := (firstBy FeedExchange.before s.feed.waiting).map Grant.feed

/-- Whether an outlet poll of a slot is due (R19). -/
def State.pollIsDue (s : State) (i : Slot) : Bool :=
  (s.node i).enabled && match (s.record i).pollDue with
    | some t => decide (t ≤ s.now)
    | none => false

/-- Rank 4: the due outlet poll of earliest due time, then lowest slot. -/
def State.grantPoll (s : State) : Option Grant :=
  (firstBy (fun i j => decide ((s.record i).pollDue.getD 0 < (s.record j).pollDue.getD 0))
    (allSlots.filter s.pollIsDue)).map Grant.outletPoll

/-- Whether a relay slot waits for the ring (R189). A relay to a jack does not wait during a stroke window, nor while
an entry to CLIMB or TRIM is under way to the Relay Unit, which fails it (R118). -/
def State.relayWaits (s : State) (i : RelayIx) : Bool :=
  match s.relaySlot i with
  | some x => decide (x.state = .queued) &&
      !(s.isJack x.target && (decide (s.dispatch.state = .window) || s.transit.relayModes.any ModeChange.entersClimb))
  | none => false

/-- The moment a relay slot's request was taken. -/
def State.queuedAt (s : State) (i : RelayIx) : Nat := ((s.relaySlot i).map RelaySlot.queuedAt).getD 0

/-- Rank 5: the oldest waiting relay, then lowest index. -/
def State.grantRelay (s : State) : Option Grant :=
  (firstBy (fun i j => decide (s.queuedAt i < s.queuedAt j)) (allRelays.filter s.relayWaits)).map Grant.relay

/-- What the Ring Sequencer starts next, if the ring is free and something waits (R20). -/
def State.nextGrant (s : State) : Option Grant :=
  if s.ring.isSome then none
  else s.grantSweep.or (s.grantDispatch.or (s.grantFeed.or (s.grantPoll.or s.grantRelay)))

/-! ## Requests (R6, R194) -/

/-- A frame of the ring (R192). -/
def ringFrame (address : Nat) (kind : Byte) (payload : List Byte) : List Byte :=
  envelopeFrame { address := u8 address, kind := kind, payload := payload }

/-- An exchange begins: its request frame is on the line and the ring driver is enabled (R20, R197). -/
def State.beginExchange (s : State) (x : ExchangeKind) (address : Nat) (kind : Byte) (payload : List Byte) : State :=
  (s.withRing (some { kind := x, address := address, frame := ringFrame address kind payload, retry := false,
                      phase := .sending, discarded := false })).withPower { s.power with ringDriver := true }

/-- A POLL to a slot at its address as the entry stands (R13, R19). -/
def State.beginPoll (s : State) (x : ExchangeKind) (i : Slot) : State :=
  s.beginExchange x (s.node i).address kindPoll []

/-- A DEMAND with the record's cycle tag (R23). -/
def State.beginDemand (s : State) (e : DispatchEntry) : State :=
  s.beginExchange (.demand e.slot) (s.node e.slot).address kindDemand
    (u8 (s.dispatch.tag.getD 0) :: u16 e.demand)

/-- The GO broadcast (R26). -/
def State.beginGo (s : State) : State := s.beginExchange .go 0 kindGo [u8 (s.dispatch.tag.getD 0)]

/-- An OPEN or CLOSE leaves the waiting list and begins (R87, R92). -/
def State.beginFeed (s : State) (x : FeedExchange) : State :=
  let s' := s.withFeed { s.feed with waiting := s.feed.waiting.erase x }
  if x.isOpen then
    s'.beginExchange (.openOutlet x.channel x.slot x.tag) (s.node x.slot).address kindOpen (u8 x.tag :: u16 x.litres)
  else
    s'.beginExchange (.closeOutlet x.channel x.slot x.tag x.stray) (s.node x.slot).address kindClose [u8 x.tag]

/-- A relay becomes IN_FLIGHT and its RELAY frame begins (R189). -/
def State.beginRelay (s : State) (i : RelayIx) : State :=
  match s.relaySlot i with
  | some x =>
    (s.setRelaySlot i (some { x with state := .inFlight })).beginExchange (.relay i x.target x.tag)
      (s.node x.target).address kindRelay (u8 x.tag :: x.payload)
  | none => s

/-- The last byte of a request that expects a reply has left: the driver is released and the window opens
(R6, R197). -/
def State.requestSent (s : State) : State :=
  match s.ring with
  | some x =>
    if x.phase = .sending ∧ x.kind ≠ .go then
      (s.withRing (some { x with phase := .window (s.now + s.params.replyWindowMs) })).withPower
        { s.power with ringDriver := false }
    else s
  | none => s

/-- The exchange whose open window takes a frame from an address (R6). -/
def State.openWindow (s : State) (address : Byte) : Option Exchange :=
  match s.ring with
  | some x =>
    match x.phase with
    | .window endsAt => if s.now ≤ endsAt ∧ address.toNat = x.address then some x else none
    | .sending => none
  | none => none

/-! ## Ends of exchanges -/

/-- The exchange ends and the ring is free. -/
def State.freeRing (s : State) : State := s.withRing none

/-- A poll, OPEN or CLOSE exchange with a slot ends: the ring is free, and a claimed outlet's poll due time is counted
from now (R19). -/
def State.endExchange (s : State) (i : Slot) : State :=
  let r := s.record i
  s.freeRing.setRecord i { r with lastExchangeEnd := some s.now,
                                  pollDue := if (s.outletClaim i).isSome then some (s.now + s.params.outletPollMs) else r.pollDue }

/-- A slot's record is replaced; a change of its state goes to the sources of R10. -/
def State.updateRecord (s : State) (i : Slot) (r : NodeRecord) : State :=
  let s' := s.setRecord i r
  if (s.record i).state = r.state then s' else s'.evaluateNodes

/-- A slot's record is replaced with no report behind it; a change of its state goes to every block that acts on it
(R9). -/
def State.updateState (s : State) (i : Slot) (r : NodeRecord) (openMiss : Bool) : State :=
  let s' := s.updateRecord i r
  if (s.record i).state = r.state then s'
  else match (s.node i).kind with
    | .sensor => s'.sensorStateChanged i r.state
    | .outlet => s'.outletStateChanged i openMiss
    | .jack => s'

/-- A valid ACK from a slot (R4). -/
def State.ackNode (s : State) (i : Slot) : State := s.updateState i (s.record i).acked false

/-- A miss of a slot (R5). -/
def State.missNode (s : State) (i : Slot) (openMiss : Bool) : State :=
  s.updateState i ((s.record i).missed s.params.missLimit) openMiss

/-! ## Reports (R3, R9) -/

/-- A jack's report goes to stroke verification against the previous height as R3 left it, and its height becomes the
previous height. -/
def State.takeJackHeight (s : State) (i : Slot) (height : Nat) (previous : Option Nat) : State :=
  let s' := s.verifyStroke i height previous
  s'.setRecord i { s'.record i with previousHeight := some height }

/-- A sensor's report: a change of its node state, then the judgement of its value where the record is ACTIVE
(R144, R145). -/
def State.takeSensorValue (s : State) (i : Slot) (value : Int) (old new : NodeState) : State :=
  let s' := if old = new then s else s.sensorStateChanged i new
  if new = .active then s'.judgeValue i value else s'

/-- A valid report is handed to the block of its kind (R9). -/
def State.handReport (s : State) (i : Slot) (report : Report) (old new : NodeState) (previous : Option Nat) : State :=
  match report with
  | .jack height _ _ => s.takeJackHeight i height previous
  | .sensor value _ => s.takeSensorValue i value old new
  | .outlet _ _ _ _ _ => s.outletReport i report

/-- A valid REPORT is taken from a slot (R3, R9). -/
def State.takeReport (s : State) (i : Slot) (report : Report) : State :=
  let r := (s.record i).reported report
  let s1 := s.updateRecord i r
  let s2 := s1.handReport i report (s.record i).state r.state r.previousHeight
  s2.offerReport i (s.node i).kind r.previousHeight report

/-- A REPORT frame reaches the ring (R6, R3, R13). -/
def State.ringReport (s : State) (address : Byte) (payload : List Byte) : State :=
  match s.openWindow address with
  | some x =>
    match x.kind with
    | .sweepPoll i =>
      match parseReport (s.node i).kind payload with
      | some report =>
        if x.discarded then s.freeRing
        else (((s.endExchange i).takeReport i report).addToReplies i).advanceSweep i
      | none => s
    | .outletPoll i =>
      match parseReport (s.node i).kind payload with
      | some report => if x.discarded then s.freeRing else (s.endExchange i).takeReport i report
      | none => s
    | .demand _ => s
    | .go => s
    | .openOutlet _ _ _ => s
    | .closeOutlet _ _ _ _ => s
    | .relay _ _ _ => s
  | none => s

/-! ## Demands (R22 to R28) -/

/-- The entries of a demand list that get a DEMAND (R22). -/
def CycleResult.dispatchEntries (r : CycleResult) : List DispatchEntry :=
  (r.demands.filter fun d => decide (0 < d.demand)).map fun d =>
    { slot := d.slot, demand := d.demand, outcome := .pending }

/-- A cycle result reaches the Stroke Dispatcher, which judges it by the mode as it stands (R22). The changes of mode that
had been taken when it arrived have no further effect on the dispatch it starts (notes/assumptions/13.md). DESIGN CHOICE,
unsafe: a change that the computation's own QUORUM or LEVEL_LIMIT made has been taken before its result arrives, so that
order of R42 and R48 never enters DEMANDING (notes/assumptions/38.md). -/
def State.dispatchResult (s : State) (r : CycleResult) : State :=
  let entries := r.dispatchEntries
  if s.dispatch.state = .idle ∧ s.mode.climbing ∧ entries ≠ [] then
    (s.withDispatch { state := .demanding, tag := some (r.cycleNumber % 256), entries := entries,
                      cursor := entries.head?.map DispatchEntry.slot, windowEndsAt := none }).withTransit
      { s.transit with dispatchModes := [] }
  else s

/-- The dispatch after a DEMAND exchange with a slot has ended with an outcome (R23 to R25). -/
def Dispatch.demandEnded (d : Dispatch) (i : Slot) (o : DemandOutcome) : Dispatch :=
  if d.state = .demanding ∧ d.cursor = some i then
    let entries := d.entries.map fun e => if e.slot = i then { e with outcome := o } else e
    match entries.find? fun e => decide (i < e.slot) with
    | some e => { d with entries := entries, cursor := some e.slot }
    | none =>
      if entries.any fun e => decide (e.outcome = .acked) then
        { d with state := .goReady, entries := entries, cursor := none }
      else Dispatch.idle
  else d

/-- A DEMAND exchange with a slot has ended. -/
def State.demandEnded (s : State) (i : Slot) (o : DemandOutcome) : State := s.withDispatch (s.dispatch.demandEnded i o)

/-- A change of rise mode reaches the Stroke Dispatcher (R27). -/
def State.dispatchMode (s : State) (m : ModeChange) : State :=
  if m.abandons ∧ (s.dispatch.state = .demanding ∨ s.dispatch.state = .goReady) then s.withDispatch Dispatch.idle else s

/-- The stroke expectation that an entry sets under a cycle tag (R30). -/
def DispatchEntry.expectation (e : DispatchEntry) (tag : Nat) : Expectation :=
  { tag := tag, demand := e.demand, confirmed := decide (e.outcome = .acked) }

/-- Every entry sets the stroke expectation of its slot (R30). -/
def State.setExpectations (s : State) : State :=
  s.withExpectations (Table.tabulate fun i =>
    match s.dispatch.entryOf i with
    | some e => some (e.expectation (s.dispatch.tag.getD 0))
    | none => s.expectation i)

/-- The last byte of the GO has left (R26, R197): the expectations are set and the stroke window opens, unless the
dispatch has been abandoned (R28) or the mode has become IDLE, HOLD or HALT before this moment, which abandons it (R27,
R121). DEDUCED, unsafe: such a change that is still under way to the Stroke Dispatcher abandons the dispatch here
(notes/assumptions/37.md). -/
def State.goSent (s : State) : State :=
  match s.ring with
  | some x =>
    if x.kind = .go ∧ x.phase = .sending then
      let s' := s.freeRing.withPower { s.power with ringDriver := false }
      if !x.discarded ∧ s'.dispatch.state = .goReady then
        if s'.dispatchSends then
          let t := s'.setExpectations
          t.withDispatch { t.dispatch with state := .window, windowEndsAt := some (t.now + t.params.strokeMs) }
        else s'.withDispatch Dispatch.idle
      else s'
    else s
  | none => s

/-- The stroke window's end is reached (R28). -/
def State.strokeWindowExpiry (s : State) : State :=
  match s.dispatch.state, s.dispatch.windowEndsAt with
  | .window, some t => if t ≤ s.now then s.withDispatch Dispatch.idle else s
  | _, _ => s

/-! ## Acknowledgements -/

/-- An ACK frame reaches the ring in answer to a DEMAND (R23). -/
def State.demandAck (s : State) (address : Byte) (payload : List Byte) : State :=
  match s.openWindow address with
  | some x =>
    match x.kind, payload with
    | .demand i, [] => if x.discarded then s.freeRing else ((s.freeRing).ackNode i).demandEnded i .acked
    | _, _ => s
  | none => s

/-- An ACK frame reaches the ring in answer to an OPEN (R88). -/
def State.openAck (s : State) (address : Byte) (payload : List Byte) : State :=
  match s.openWindow address with
  | some x =>
    match x.kind, payload with
    | .openOutlet c i tag, [] => if x.discarded then s.freeRing else ((s.endExchange i).ackNode i).openAcked c tag
    | _, _ => s
  | none => s

/-- An ACK frame reaches the ring in answer to a CLOSE (R92). -/
def State.closeAck (s : State) (address : Byte) (payload : List Byte) : State :=
  match s.openWindow address with
  | some x =>
    match x.kind, payload with
    | .closeOutlet _ i _ _, [] => if x.discarded then s.freeRing else (s.endExchange i).ackNode i
    | _, _ => s
  | none => s

/-! ## Relays (R189) -/

/-- The relay slot of an exchange ends DONE with a result, or FAILED with none. -/
def State.endRelay (s : State) (i : RelayIx) (result : Option (List Byte)) : State :=
  match s.relaySlot i with
  | some x =>
    match result with
    | some r => s.setRelaySlot i (some { x with state := .done, result := some r, completion := some s.now })
    | none => s.setRelaySlot i (some (x.fail s.now))
  | none => s

/-- A RELAY_BACK frame reaches the ring (R6, R189, R194). -/
def State.relayBack (s : State) (address : Byte) (payload : List Byte) : State :=
  match s.openWindow address with
  | some x =>
    match x.kind, payload with
    | .relay i _ tag, t :: result =>
      if t = u8 tag ∧ result.length ≤ 64 then
        if x.discarded then s.freeRing else s.freeRing.endRelay i (some result)
      else s
    | _, _ => s
  | none => s

/-! ## Silence (R5, R6, R24, R88, R92, R189) -/

/-- An exchange has drawn no valid reply to either attempt. -/
def State.exchangeMissed (s : State) : ExchangeKind → State
  | .sweepPoll i => ((s.endExchange i).missNode i false).advanceSweep i
  | .outletPoll i => (s.endExchange i).missNode i false
  | .demand i => (s.freeRing.missNode i false).demandEnded i .unconfirmed
  | .go => s.freeRing
  | .openOutlet c i tag => ((s.endExchange i).missNode i true).openMissed c tag
  | .closeOutlet c i tag stray => ((s.endExchange i).missNode i false).closeMissed c tag stray
  | .relay i _ _ => s.freeRing.endRelay i none

/-- A reply window expires (R6): the first silent attempt is retried, the second ends the exchange. RESTART has taken
the retry and the result from an exchange it found on the ring (R18). -/
def State.replyWindowExpiry (s : State) : State :=
  match s.ring with
  | some x =>
    match x.phase with
    | .window endsAt =>
      if endsAt ≤ s.now then
        if x.discarded then s.freeRing
        else if x.retry then s.exchangeMissed x.kind
        else (s.withRing (some { x with retry := true, phase := .sending })).withPower
          { s.power with ringDriver := true }
      else s
    | .sending => s
  | none => s

end Sys2Proof.Machine
end

