-- ==== Sys2Proof/Machine/Arrivals.lean ====
section
/-! DEFINITION. The meanings of the arrivals: a cycle result, a change of rise mode or a spread switch reaches a block
(R58, R108, R112). Each block takes what has been handed to it oldest first; with nothing under way to it the step
changes nothing (notes/assumptions/3.md). -/

namespace Sys2Proof.Machine

open Sys2Proof

/-- What DISPATCH_RESULT_ARRIVAL does (R22). -/
def State.dispatchResultArrival (s : State) : State :=
  match s.transit.dispatchResults with
  | [] => s
  | x :: rest =>
    let t := s.withTransit { s.transit with dispatchResults := rest }
    t.dispatchResult x

/-- DISPATCH_RESULT_ARRIVAL (R22). -/
def execDispatchResultArrival (s : State) : Host.Outcome State Fault Refusal := .next (s.whenRunning State.dispatchResultArrival)

/-- What PLACEMENT_RESULT_ARRIVAL does (R73). A result that was under way at a RESTART comes first: it retires and
checks records, and does no more, since RESTART made it no longer the latest result (R40, R77). -/
def State.placementResultArrival (s : State) : State :=
  match s.transit.retirements, s.transit.placementResults with
  | x :: rest, _ =>
    let t := s.withTransit { s.transit with retirements := rest }
    t.retireAll x
  | [], x :: rest =>
    let t := s.withTransit { s.transit with placementResults := rest }
    t.placementResult x
  | [], [] => s

/-- PLACEMENT_RESULT_ARRIVAL (R73). -/
def execPlacementResultArrival (s : State) : Host.Outcome State Fault Refusal := .next (s.whenRunning State.placementResultArrival)

/-- What MARKER_RESULT_ARRIVAL does (R150). -/
def State.markerResultArrival (s : State) : State :=
  match s.transit.markerResults with
  | [] => s
  | x :: rest =>
    let t := s.withTransit { s.transit with markerResults := rest }
    t.markerResult x

/-- MARKER_RESULT_ARRIVAL (R150). -/
def execMarkerResultArrival (s : State) : Host.Outcome State Fault Refusal := .next (s.whenRunning State.markerResultArrival)

/-- What FEED_RESULT_ARRIVAL does (R86). -/
def State.feedResultArrival (s : State) : State :=
  match s.transit.feedResults with
  | [] => s
  | x :: rest =>
    let t := s.withTransit { s.transit with feedResults := rest }
    t.feedResult x

/-- FEED_RESULT_ARRIVAL (R86). -/
def execFeedResultArrival (s : State) : Host.Outcome State Fault Refusal := .next (s.whenRunning State.feedResultArrival)

/-- What SPREAD_SWITCH_ARRIVAL does (R112). -/
def State.spreadSwitchArrival (s : State) : State :=
  match s.transit.spreadSwitches with
  | [] => s
  | x :: rest =>
    let t := s.withTransit { s.transit with spreadSwitches := rest }
    t.takeSwitch x

/-- SPREAD_SWITCH_ARRIVAL (R112). -/
def execSpreadSwitchArrival (s : State) : Host.Outcome State Fault Refusal := .next (s.whenRunning State.spreadSwitchArrival)

/-- What DISPATCH_MODE_ARRIVAL does (R27). -/
def State.dispatchModeArrival (s : State) : State :=
  match s.transit.dispatchModes with
  | [] => s
  | x :: rest =>
    let t := s.withTransit { s.transit with dispatchModes := rest }
    t.dispatchMode x

/-- DISPATCH_MODE_ARRIVAL (R27). -/
def execDispatchModeArrival (s : State) : Host.Outcome State Fault Refusal := .next (s.whenRunning State.dispatchModeArrival)

/-- What FEED_MODE_ARRIVAL does (R102). -/
def State.feedModeArrival (s : State) : State :=
  match s.transit.feedModes with
  | [] => s
  | x :: rest =>
    let t := s.withTransit { s.transit with feedModes := rest }
    t.feedMode x

/-- FEED_MODE_ARRIVAL (R102). -/
def execFeedModeArrival (s : State) : Host.Outcome State Fault Refusal := .next (s.whenRunning State.feedModeArrival)

/-- What RELAY_MODE_ARRIVAL does (R118). -/
def State.relayModeArrival (s : State) : State :=
  match s.transit.relayModes with
  | [] => s
  | x :: rest =>
    let t := s.withTransit { s.transit with relayModes := rest }
    t.relayMode x

/-- RELAY_MODE_ARRIVAL (R118). -/
def execRelayModeArrival (s : State) : Host.Outcome State Fault Refusal := .next (s.whenRunning State.relayModeArrival)

/-- What SWEEP_MODE_ARRIVAL does (R16). -/
def State.sweepModeArrival (s : State) : State :=
  match s.transit.sweepModes with
  | [] => s
  | _ :: rest =>
    let t := s.withTransit { s.transit with sweepModes := rest }
    t.recomputeDue

/-- SWEEP_MODE_ARRIVAL (R16). -/
def execSweepModeArrival (s : State) : Host.Outcome State Fault Refusal := .next (s.whenRunning State.sweepModeArrival)

/-- What RATE_CLOCK_MODE_ARRIVAL does (R50). -/
def State.rateClockModeArrival (s : State) : State :=
  match s.transit.rateModes with
  | [] => s
  | x :: rest =>
    let t := s.withTransit { s.transit with rateModes := rest }
    t.withLevel { t.level with rateClock := rateClockAfter t.level.rateClock x }

/-- RATE_CLOCK_MODE_ARRIVAL (R50). -/
def execRateClockModeArrival (s : State) : Host.Outcome State Fault Refusal := .next (s.whenRunning State.rateClockModeArrival)

/-- What SILENCE_MODE_ARRIVAL does (R178). -/
def State.silenceModeArrival (s : State) : State :=
  match s.transit.silenceModes with
  | [] => s
  | x :: rest =>
    let t := s.withTransit { s.transit with silenceModes := rest }
    t.silenceMode x

/-- SILENCE_MODE_ARRIVAL (R178). -/
def execSilenceModeArrival (s : State) : Host.Outcome State Fault Refusal := .next (s.whenRunning State.silenceModeArrival)

end Sys2Proof.Machine
end

