-- ==== Sys2Proof/Machine/ConsoleCommands.lean ====
section
/-! DEFINITION. The meanings of the console commands: each restarts the silence timer (R178), acts, and is answered with
one reply (R157). -/

namespace Sys2Proof.Machine

open Sys2Proof

/-- STATUS (R173). -/
def execStatus (seq : Byte) (args : List Byte) (s : State) : Host.Outcome State Fault Refusal :=
  .next (s.onCommand fun t => t.takeStatus seq args)

/-- READ (R162). -/
def execRead (seq : Byte) (args : List Byte) (s : State) : Host.Outcome State Fault Refusal :=
  .next (s.onCommand fun t => t.takeRead seq args)

/-- WRITE (R163, R164). -/
def execWrite (seq : Byte) (args : List Byte) (s : State) : Host.Outcome State Fault Refusal :=
  .next (s.onCommand fun t => t.takeWrite seq args)

/-- DISCARD (R165). -/
def execDiscard (seq : Byte) (args : List Byte) (s : State) : Host.Outcome State Fault Refusal :=
  .next (s.onCommand fun t => t.takeDiscard seq args)

/-- COMMIT (R166, R167). -/
def execCommit (seq : Byte) (args : List Byte) (s : State) : Host.Outcome State Fault Refusal :=
  .next (s.onCommand fun t => t.takeCommit seq args)

/-- START (R113, R17). -/
def execStart (seq : Byte) (args : List Byte) (s : State) : Host.Outcome State Fault Refusal :=
  .next (s.onCommand fun t => t.takeStart seq args)

/-- STOP (R114). -/
def execStop (seq : Byte) (args : List Byte) (s : State) : Host.Outcome State Fault Refusal :=
  .next (s.onCommand fun t => t.takeStop seq args)

/-- HOLD (R115). -/
def execHold (seq : Byte) (args : List Byte) (s : State) : Host.Outcome State Fault Refusal :=
  .next (s.onCommand fun t => t.takeHold seq args)

/-- RELEASE (R116). -/
def execRelease (seq : Byte) (args : List Byte) (s : State) : Host.Outcome State Fault Refusal :=
  .next (s.onCommand fun t => t.takeRelease seq args)

/-- SET RATE (R171). -/
def execSetRate (seq : Byte) (args : List Byte) (s : State) : Host.Outcome State Fault Refusal :=
  .next (s.onCommand fun t => t.takeSetRate seq args)

/-- ACK (R132). -/
def execAck (seq : Byte) (args : List Byte) (s : State) : Host.Outcome State Fault Refusal :=
  .next (s.onCommand fun t => t.takeAck seq args)

/-- POLL CONDITION (R136). -/
def execPollCondition (seq : Byte) (args : List Byte) (s : State) : Host.Outcome State Fault Refusal :=
  .next (s.onCommand fun t => t.takePoll seq args)

/-- MASK (R134). -/
def execMask (seq : Byte) (args : List Byte) (s : State) : Host.Outcome State Fault Refusal :=
  .next (s.onCommand fun t => t.takeMask seq args)

/-- FEED START (R100). -/
def execFeedStart (seq : Byte) (args : List Byte) (s : State) : Host.Outcome State Fault Refusal :=
  .next (s.onCommand fun t => t.takeFeedStart seq args)

/-- FEED STOP (R101). -/
def execFeedStop (seq : Byte) (args : List Byte) (s : State) : Host.Outcome State Fault Refusal :=
  .next (s.onCommand fun t => t.takeFeedStop seq args)

/-- PLACE (R71). -/
def execPlace (seq : Byte) (args : List Byte) (s : State) : Host.Outcome State Fault Refusal :=
  .next (s.onCommand fun t => t.takePlace seq args)

/-- RELAY (R188). -/
def execRelay (seq : Byte) (args : List Byte) (s : State) : Host.Outcome State Fault Refusal :=
  .next (s.onCommand fun t => t.takeRelay seq args)

/-- SET USER (R172). -/
def execSetUser (seq : Byte) (args : List Byte) (s : State) : Host.Outcome State Fault Refusal :=
  .next (s.onCommand fun t => t.takeSetUser seq args)

/-- RESTART (R174). -/
def execRestart (seq : Byte) (args : List Byte) (s : State) : Host.Outcome State Fault Refusal :=
  .next (s.onCommand fun t => t.takeRestart seq args)

/-- UNKNOWN_COMMAND (R158). -/
def execUnknownCommand (seq code : Byte) (_args : List Byte) (s : State) : Host.Outcome State Fault Refusal :=
  .next (s.onCommand fun t => t.takeUnknown seq code)

end Sys2Proof.Machine
end

