-- ==== Sys2Proof/Machine/ConsoleSteps.lean ====
section
/-! DEFINITION. The meanings of the console line's own steps and of the beacon's building (chapter 10). -/

namespace Sys2Proof.Machine

open Sys2Proof

/-- CONSOLE_FRAME_REJECT (R177). -/
def execConsoleFrameReject (frame : RxFrame) (s : State) : Host.Outcome State Fault Refusal :=
  .next (s.whenRunning fun t => t.rejectFrame frame)

/-- BEACON_BUILD (R185). -/
def execBeaconBuild (s : State) : Host.Outcome State Fault Refusal := .next (s.whenRunning State.buildBeacon)

/-- CONSOLE_SEND (R180). -/
def execConsoleSend (s : State) : Host.Outcome State Fault Refusal := .next (s.whenRunning State.consoleSend)

/-- CONSOLE_FRAME_SENT (R185, R187). -/
def execConsoleFrameSent (s : State) : Host.Outcome State Fault Refusal := .next (s.whenRunning State.consoleFrameSent)

end Sys2Proof.Machine
end

