-- ==== Sys2Proof/Machine/Power.lean ====
section
/-! DEFINITION. Supply, reset pin and pour clock (R64, R176, R197): the meanings of their steps. -/

namespace Sys2Proof.Machine

open Sys2Proof

/-- The pour clock one second later; it stays at its greatest value (R64). -/
def State.tickPourClock (s : State) : State := s.withPourClock (satAdd Config.max32 s.pourClock 1)

/-- POWER_ON (R176): nothing is kept but the model's own time base, free-value index and queue of commands. -/
def execPowerOn (s : State) : Host.Outcome State Fault Refusal := .next (State.powerOn s.now s.free s.pending)

/-- RESET_PIN_ASSERT (R197): the part is held and both driver enables are released. -/
def execResetPinAssert (s : State) : Host.Outcome State Fault Refusal :=
  .next (s.withPower { s.power with resetPinLow := true, ringDriver := false, consoleDriver := false })

/-- POUR_CLOCK_TICK (R64). -/
def execPourClockTick (s : State) : Host.Outcome State Fault Refusal := .next (s.whenRunning State.tickPourClock)

/-- POWER_LOSS (R176): the contents are lost and both drivers are released. What the lost contents read as until POWER_ON
is the model's choice (notes/assumptions/4.md). -/
def execPowerLoss (s : State) : Host.Outcome State Fault Refusal :=
  .next ((State.powerOn s.now s.free s.pending).withPower
    { supply := false, resetPinLow := s.power.resetPinLow, ringDriver := false, consoleDriver := false })

end Sys2Proof.Machine
end

