-- ==== Sys2Proof/Machine/RingSteps.lean ====
section
/-! DEFINITION. The meanings of the ring's steps: grants, frames sent, replies and reply windows (chapters 1 and 2). A step
whose enabling test fails changes nothing (notes/assumptions/2.md). -/

namespace Sys2Proof.Machine

open Sys2Proof

/-- A grant of the ring is taken if it is the one the order of service gives (R20). -/
def State.grant (s : State) (take : Grant → Option (State → State)) : State :=
  match s.nextGrant with
  | some g =>
    match take g with
    | some f => f s
    | none => s
  | none => s

/-- SWEEP_START (R12). -/
def execSweepStart (s : State) : Host.Outcome State Fault Refusal :=
  .next (s.whenRunning fun t => t.grant fun
    | .sweepStart => some State.startSweep
    | _ => none)

/-- SWEEP_POLL (R13). -/
def execSweepPoll (s : State) : Host.Outcome State Fault Refusal :=
  .next (s.whenRunning fun t => t.grant fun
    | .sweepPoll i => some fun u => u.beginPoll (.sweepPoll i) i
    | _ => none)

/-- OUTLET_POLL (R19). -/
def execOutletPoll (s : State) : Host.Outcome State Fault Refusal :=
  .next (s.whenRunning fun t => t.grant fun
    | .outletPoll i => some fun u => u.beginPoll (.outletPoll i) i
    | _ => none)

/-- DEMAND (R23). -/
def execDemand (s : State) : Host.Outcome State Fault Refusal :=
  .next (s.whenRunning fun t => t.grant fun
    | .demand e => some fun u => u.beginDemand e
    | _ => none)

/-- GO_BROADCAST (R26). -/
def execGoBroadcast (s : State) : Host.Outcome State Fault Refusal :=
  .next (s.whenRunning fun t => t.grant fun
    | .go => some State.beginGo
    | _ => none)

/-- GO_SENT (R26). -/
def execGoSent (s : State) : Host.Outcome State Fault Refusal := .next (s.whenRunning State.goSent)

/-- OPEN_EXCHANGE (R87). -/
def execOpenExchange (s : State) : Host.Outcome State Fault Refusal :=
  .next (s.whenRunning fun t => t.grant fun
    | .feed x => if x.isOpen then some fun u => u.beginFeed x else none
    | _ => none)

/-- CLOSE_EXCHANGE (R92). -/
def execCloseExchange (s : State) : Host.Outcome State Fault Refusal :=
  .next (s.whenRunning fun t => t.grant fun
    | .feed x => if x.isOpen then none else some fun u => u.beginFeed x
    | _ => none)

/-- RELAY_EXCHANGE (R189). -/
def execRelayExchange (s : State) : Host.Outcome State Fault Refusal :=
  .next (s.whenRunning fun t => t.grant fun
    | .relay i => some fun u => u.beginRelay i
    | _ => none)

/-- REQUEST_FRAME_SENT (R6, R197). -/
def execRequestFrameSent (s : State) : Host.Outcome State Fault Refusal := .next (s.whenRunning State.requestSent)

/-- RING_REPORT (R3). -/
def execRingReport (address : Byte) (payload : List Byte) (s : State) : Host.Outcome State Fault Refusal :=
  .next (s.whenRunning fun t => t.ringReport address payload)

/-- DEMAND_ACK (R23). -/
def execDemandAck (address : Byte) (payload : List Byte) (s : State) : Host.Outcome State Fault Refusal :=
  .next (s.whenRunning fun t => t.demandAck address payload)

/-- OPEN_ACK (R88). -/
def execOpenAck (address : Byte) (payload : List Byte) (s : State) : Host.Outcome State Fault Refusal :=
  .next (s.whenRunning fun t => t.openAck address payload)

/-- CLOSE_ACK (R92). -/
def execCloseAck (address : Byte) (payload : List Byte) (s : State) : Host.Outcome State Fault Refusal :=
  .next (s.whenRunning fun t => t.closeAck address payload)

/-- RING_RELAY_BACK (R189). -/
def execRingRelayBack (address : Byte) (payload : List Byte) (s : State) : Host.Outcome State Fault Refusal :=
  .next (s.whenRunning fun t => t.relayBack address payload)

/-- RING_FRAME_DISCARD (R6): the frame is discarded, an open window runs on, and every record stays. -/
def execRingFrameDiscard (_frame : RxFrame) (s : State) : Host.Outcome State Fault Refusal := .next s

/-- REPLY_WINDOW_EXPIRY (R6). -/
def execReplyWindowExpiry (s : State) : Host.Outcome State Fault Refusal :=
  .next (s.whenRunning State.replyWindowExpiry)

end Sys2Proof.Machine
end

