-- ==== Sys2Proof/Machine/Timers.lean ====
section
/-! DEFINITION. The meanings of the timer expiries. An expiry acts once its time has been reached; before that, or where
its timer does not run, it changes nothing (notes/assumptions/2.md). -/

namespace Sys2Proof.Machine

open Sys2Proof

/-- Whether a timer has reached its time. -/
def State.reached (s : State) (t : Option Nat) : Bool :=
  match t with
  | some x => decide (x ≤ s.now)
  | none => false

/-- A channel's dwell ends (R91). -/
def State.dwellExpiry (s : State) (c : Channel) : State :=
  if s.reached (s.channel c).dwellEndsAt then s.askClose c .dwell else s

/-- A channel's pause ends (R96). -/
def State.pauseExpiry (s : State) (c : Channel) : State :=
  match (s.channel c).state, (s.channel c).pause with
  | .paused, some p => if p.endsAt ≤ s.now then (s.endPause c p.kind).evaluateJam else s
  | _, _ => s

/-- A channel's block timer expires (R86). -/
def State.blockExpiry (s : State) (c : Channel) : State :=
  if s.reached (s.channel c).blockTimer then s.openTest c else s

/-- SILENCE_EXPIRY (R178). -/
def execSilenceExpiry (s : State) : Host.Outcome State Fault Refusal := .next (s.whenRunning State.silenceExpiry)

/-- STROKE_WINDOW_EXPIRY (R28). -/
def execStrokeWindowExpiry (s : State) : Host.Outcome State Fault Refusal :=
  .next (s.whenRunning State.strokeWindowExpiry)

/-- DWELL_EXPIRY (R91). -/
def execDwellExpiry (c : Channel) (s : State) : Host.Outcome State Fault Refusal :=
  .next (s.whenRunning fun t => t.dwellExpiry c)

/-- PAUSE_EXPIRY (R96). -/
def execPauseExpiry (c : Channel) (s : State) : Host.Outcome State Fault Refusal :=
  .next (s.whenRunning fun t => t.pauseExpiry c)

/-- BLOCK_TIMER_EXPIRY (R86, R98, R99). -/
def execBlockTimerExpiry (c : Channel) (s : State) : Host.Outcome State Fault Refusal :=
  .next (s.whenRunning fun t => t.blockExpiry c)

/-- RELAY_RESULT_EXPIRY (R190). -/
def execRelayResultExpiry (i : RelayIx) (s : State) : Host.Outcome State Fault Refusal :=
  .next (s.whenRunning fun t => t.relayExpiry i)

end Sys2Proof.Machine
end

