-- ==== Sys2Proof/Machine/Dispatch.lean ====
section
/-! DEFINITION. One arm for each step of the part. -/

namespace Sys2Proof.Machine

open Sys2Proof

/-- The effect of a step on everything but the queue of waiting commands. -/
def exec (i : Instr) (s : State) : Host.Outcome State Fault Refusal :=
  match i with
  | .powerOn => Sys2Proof.Machine.execPowerOn s
  | .resetPinAssert => Sys2Proof.Machine.execResetPinAssert s
  | .pourClockTick => Sys2Proof.Machine.execPourClockTick s
  | .consoleFrameReject frame => Sys2Proof.Machine.execConsoleFrameReject frame s
  | .status seq args => Sys2Proof.Machine.execStatus seq args s
  | .read seq args => Sys2Proof.Machine.execRead seq args s
  | .write seq args => Sys2Proof.Machine.execWrite seq args s
  | .discard seq args => Sys2Proof.Machine.execDiscard seq args s
  | .commit seq args => Sys2Proof.Machine.execCommit seq args s
  | .start seq args => Sys2Proof.Machine.execStart seq args s
  | .stop seq args => Sys2Proof.Machine.execStop seq args s
  | .hold seq args => Sys2Proof.Machine.execHold seq args s
  | .release seq args => Sys2Proof.Machine.execRelease seq args s
  | .setRate seq args => Sys2Proof.Machine.execSetRate seq args s
  | .ack seq args => Sys2Proof.Machine.execAck seq args s
  | .pollCondition seq args => Sys2Proof.Machine.execPollCondition seq args s
  | .mask seq args => Sys2Proof.Machine.execMask seq args s
  | .feedStart seq args => Sys2Proof.Machine.execFeedStart seq args s
  | .feedStop seq args => Sys2Proof.Machine.execFeedStop seq args s
  | .place seq args => Sys2Proof.Machine.execPlace seq args s
  | .relay seq args => Sys2Proof.Machine.execRelay seq args s
  | .setUser seq args => Sys2Proof.Machine.execSetUser seq args s
  | .restart seq args => Sys2Proof.Machine.execRestart seq args s
  | .silenceExpiry => Sys2Proof.Machine.execSilenceExpiry s
  | .sweepStart => Sys2Proof.Machine.execSweepStart s
  | .sweepPoll => Sys2Proof.Machine.execSweepPoll s
  | .outletPoll => Sys2Proof.Machine.execOutletPoll s
  | .demand => Sys2Proof.Machine.execDemand s
  | .goBroadcast => Sys2Proof.Machine.execGoBroadcast s
  | .goSent => Sys2Proof.Machine.execGoSent s
  | .openExchange => Sys2Proof.Machine.execOpenExchange s
  | .closeExchange => Sys2Proof.Machine.execCloseExchange s
  | .relayExchange => Sys2Proof.Machine.execRelayExchange s
  | .ringReport address payload => Sys2Proof.Machine.execRingReport address payload s
  | .demandAck address payload => Sys2Proof.Machine.execDemandAck address payload s
  | .openAck address payload => Sys2Proof.Machine.execOpenAck address payload s
  | .closeAck address payload => Sys2Proof.Machine.execCloseAck address payload s
  | .ringRelayBack address payload => Sys2Proof.Machine.execRingRelayBack address payload s
  | .ringFrameDiscard frame => Sys2Proof.Machine.execRingFrameDiscard frame s
  | .replyWindowExpiry => Sys2Proof.Machine.execReplyWindowExpiry s
  | .strokeWindowExpiry => Sys2Proof.Machine.execStrokeWindowExpiry s
  | .dwellExpiry ch => Sys2Proof.Machine.execDwellExpiry ch s
  | .pauseExpiry ch => Sys2Proof.Machine.execPauseExpiry ch s
  | .blockTimerExpiry ch => Sys2Proof.Machine.execBlockTimerExpiry ch s
  | .relayResultExpiry slot => Sys2Proof.Machine.execRelayResultExpiry slot s
  | .dispatchResultArrival => Sys2Proof.Machine.execDispatchResultArrival s
  | .placementResultArrival => Sys2Proof.Machine.execPlacementResultArrival s
  | .markerResultArrival => Sys2Proof.Machine.execMarkerResultArrival s
  | .feedResultArrival => Sys2Proof.Machine.execFeedResultArrival s
  | .beaconBuild => Sys2Proof.Machine.execBeaconBuild s
  | .spreadSwitchArrival => Sys2Proof.Machine.execSpreadSwitchArrival s
  | .dispatchModeArrival => Sys2Proof.Machine.execDispatchModeArrival s
  | .feedModeArrival => Sys2Proof.Machine.execFeedModeArrival s
  | .relayModeArrival => Sys2Proof.Machine.execRelayModeArrival s
  | .consoleSend => Sys2Proof.Machine.execConsoleSend s
  | .unknownCommand seq code args => Sys2Proof.Machine.execUnknownCommand seq code args s
  | .sweepModeArrival => Sys2Proof.Machine.execSweepModeArrival s
  | .rateClockModeArrival => Sys2Proof.Machine.execRateClockModeArrival s
  | .silenceModeArrival => Sys2Proof.Machine.execSilenceModeArrival s
  | .requestFrameSent => Sys2Proof.Machine.execRequestFrameSent s
  | .consoleFrameSent => Sys2Proof.Machine.execConsoleFrameSent s
  | .powerLoss => Sys2Proof.Machine.execPowerLoss s

end Sys2Proof.Machine
end

