-- ==== Sys2Proof/Machine/Receive.lean ====
section
/-! DEFINITION. Which step a frame collected on the ring is (R6, R193, R194). -/

namespace Sys2Proof.Machine

open Sys2Proof

/-- The step that a frame of a kind expected by an exchange is: a reply of that kind, or a discard (R6, R194). -/
def State.replyStep (s : State) (x : ExchangeKind) (e : Envelope) (f : RxFrame) : Instr :=
  match x with
  | .sweepPoll i =>
    if e.kind = kindReport ∧ (parseReport (s.node i).kind e.payload).isSome then .ringReport e.address e.payload
    else .ringFrameDiscard f
  | .outletPoll i =>
    if e.kind = kindReport ∧ (parseReport (s.node i).kind e.payload).isSome then .ringReport e.address e.payload
    else .ringFrameDiscard f
  | .demand _ => if e.kind = kindAck ∧ e.payload = [] then .demandAck e.address [] else .ringFrameDiscard f
  | .go => .ringFrameDiscard f
  | .openOutlet _ _ _ => if e.kind = kindAck ∧ e.payload = [] then .openAck e.address [] else .ringFrameDiscard f
  | .closeOutlet _ _ _ _ => if e.kind = kindAck ∧ e.payload = [] then .closeAck e.address [] else .ringFrameDiscard f
  | .relay _ _ tag =>
    match e.payload with
    | t :: result =>
      if e.kind = kindRelayBack ∧ t = u8 tag ∧ result.length ≤ 64 then .ringRelayBack e.address e.payload
      else .ringFrameDiscard f
    | [] => .ringFrameDiscard f

/-- The step that a frame collected on the ring is: a valid reply inside an open window, or a discard (R6, R193). -/
def State.ringStep (s : State) (f : RxFrame) : Instr :=
  match frameEnvelope .ring f with
  | some e =>
    match s.openWindow e.address with
    | some x => s.replyStep x.kind e f
    | none => .ringFrameDiscard f
  | none => .ringFrameDiscard f

end Sys2Proof.Machine
end

