-- ==== Sys2Proof/Safety.lean ====
section
/-! DEFINITION. What a safe run of the part keeps, in the terms the statements use, and the spec's words that several
statements share. -/

namespace Sys2Proof.Machine

open Sys2Proof

/-! ## The rise mode (R108, R112) -/

/-- The rise mode is CLIMB or TRIM only while every HOLD-class and HALT-class condition is IDLE (R108). -/
def State.ModeSafe (s : State) : Prop :=
  s.mode = .climb ∨ s.mode = .trim → ∀ c : Cond, c.cls = .halt ∨ c.cls = .hold → (s.condition c).state = .idle

/-- Every spread switch under way leaves CLIMB or TRIM (R47, R112). -/
def State.SwitchSafe (s : State) : Prop := ∀ x ∈ s.transit.spreadSwitches, x.leaves = .climb ∨ x.leaves = .trim

/-- The invariant of the rise mode. -/
def State.ModeInv (s : State) : Prop := s.ModeSafe ∧ s.SwitchSafe

/-- The hand-offs after a change of rise mode has been handed to the six blocks that act on it (R108). -/
def Transit.handed (t : Transit) (m : ModeChange) : Transit :=
  { t with sweepModes := t.sweepModes ++ [m], dispatchModes := t.dispatchModes ++ [m], rateModes := t.rateModes ++ [m],
           feedModes := t.feedModes ++ [m], silenceModes := t.silenceModes ++ [m], relayModes := t.relayModes ++ [m] }

/-! ## HALT and the feed channels (R101, R102) -/

/-- The feed after a channel has been acted on as FEED STOP acts on it (R101), with a cause of its CLOSE: a confirmed OPEN
channel sends CLOSE. -/
def Feed.stopped (f : Feed) (now : Nat) (cause : CloseCause) (c : Channel) : Feed :=
  let x := f.channel c
  match x.state, x.working with
  | .opened, some w => { f.setChannel c { x with
        state := .closing, closeCause := some cause, closeSent := x.openConfirmed } with
      waiting := f.waiting ++ (if x.openConfirmed then
        [{ isOpen := false, channel := c, slot := w.outlet, tag := x.tag, litres := 0, stray := false, since := now }]
      else []) }
  | .closing, _ => f.setChannel c { x with closeCause := some cause }
  | .wait, _ => f.setChannel c { x with
      state := .stopped, blockReason := .none, blockedSince := none, blockTimer := none }
  | .paused, _ => f.setChannel c { x with state := .stopped, pause := none }
  | _, _ => f

/-- Both channels are stopped with cause HALT (R102), one after the other in a free order (notes/assumptions/5.md), FEED_JAM
evaluated after each (R99); nothing else differs but the index of free orders. -/
def State.Halts (s t : State) : Prop :=
  let stops (c : Channel) (v : State) : State := (v.withFeed (v.feed.stopped v.now .halt c)).evaluateJam
  ∃ first, t = stops (otherChannel first) (stops first (s.withFree (s.free + 1)))

/-- In HALT no channel is in WAIT, OPEN or PAUSED, and one in CLOSING has cause STOP or HALT (R102). Beside it, what a
state needs for every step to keep this: a channel in OPEN has a working copy, and no spread switch enters HALT. -/
def State.HaltInv (s : State) : Prop :=
  (s.mode = .halt → ∀ c, let x := s.channel c
    x.state = .idle ∨ x.state = .done ∨ x.state = .stopped ∨
      x.state = .closing ∧ (x.closeCause = some .stop ∨ x.closeCause = some .halt)) ∧
  (∀ c, (s.channel c).state = .opened → (s.channel c).working ≠ none) ∧
  ∀ x ∈ s.transit.spreadSwitches, x.enters ≠ .halt

/-! ## The placement queues (R66) -/

/-- Tops strictly increase from a bottom, and the youngest record's top is a given height; an empty queue ends where it
begins (R66). -/
def topsRise : Nat → List Layer → Nat → Prop
  | bottom, [], top => bottom = top
  | bottom, l :: ls, top => bottom < l.top ∧ topsRise l.top ls top

/-- placed_at does not decrease along a queue, and does not exceed the pour clock (R64, R66). -/
def timesRise (clock : Nat) : List Layer → Prop
  | [] => True
  | l :: ls => l.placedAt ≤ clock ∧ (∀ m ∈ ls, l.placedAt ≤ m.placedAt) ∧ timesRise clock ls

/-- The form of a segment's queue (R66). -/
def SegmentLive.Form (w : SegmentLive) (clock : Nat) : Prop :=
  w.queue.length ≤ 16 ∧ topsRise w.base w.queue w.top ∧ timesRise clock w.queue

/-- The invariant of the wall: the pour clock is within its 32 bits (R64), and every queue has its form (R66). -/
def State.WallInv (s : State) : Prop := s.pourClock ≤ Config.max32 ∧ ∀ k : SegmentIx, (s.wall k).Form s.pourClock

/-- A placement of `v` litres into an enabled segment whose queue has its form (R65, R67 to R69, R75): in `t` the segment
has the new top, remainder and placed total, and where height was gained a new youngest record, or the placement merged into
the youngest of 16. That record is flagged and GREEN_EXIT raised once if it is unset, was not flagged and its bottom lies
below the B of the result that has reached the Placement Store (notes/assumptions/11.md); the raise moves CLIMB and TRIM to
HOLD if GREEN_EXIT was IDLE. Nothing else differs from `s`. -/
def State.Places (s : State) (k : SegmentIx) (v : Nat) (source : LayerSource) (descriptor : Option DescriptorIx)
    (t : State) : Prop :=
  let w := s.wall k
  let numerator := v * 100000 + w.remainder
  let area := (s.segment k).area
  let gain := min (numerator / area) (16777215 - w.top)
  let before := w.queue.take 15
  let bottom := (before.getLast?.map Layer.top).getD w.base
  let below := decide (0 < s.params.setAgeS) && match s.placementSeen.bind CycleResult.bottom with
    | some b => decide ((bottom : Int) < b)
    | none => false
  let band (litres : Nat) (descriptor : Option DescriptorIx) (green : Bool) : Layer :=
    { top := w.top + gain, placedAt := s.pourClock, litres := litres, source := source, descriptor := descriptor
      greenExited := green }
  let (record, raises) : Layer × Bool := match w.queue[15]? with
    | none => (band v descriptor below, below)
    | some l => (band (min 4294967295 (l.litres + v)) none (l.greenExited || below), below && !l.greenExited)
  let raised := decide (0 < gain) && raises
  let old := s.condition .greenExit
  let holds := raised = true ∧ old.state = .idle ∧ (s.mode = .climb ∨ s.mode = .trim)
  t = (((s.withWalls t.walls).withConditions t.conditions).withMode t.mode).withTransit t.transit ∧
  (∀ j, t.wall j = if j = k then { w with
      top := w.top + gain, remainder := numerator % area, placedTotal := min 4294967295 (w.placedTotal + v)
      queue := if gain = 0 then w.queue else before ++ [record] } else s.wall j) ∧
  t.condition .greenExit = (if raised then { state := .uncleared, source := false, detail := some k.val
                                             count := min 255 (old.count + 1) } else old) ∧
  (∀ c : Cond, c ≠ .greenExit → t.condition c = s.condition c) ∧ t.conditions.masked = s.conditions.masked ∧
  (holds → t.mode = .hold ∧ t.transit = s.transit.handed { old := s.mode, new := .hold, moment := s.now }) ∧
  (¬ holds → t.mode = s.mode ∧ t.transit = s.transit)

/-! ## Claims (R84) -/

/-- Whether a channel is in OPEN or CLOSING on a segment and an outlet. -/
def ChannelContext.holds (x : ChannelContext) (w : WorkingCopy) : Prop :=
  (x.state = .opened ∨ x.state = .closing) ∧ x.working = some w

/-- A claim is held only by a channel that is in OPEN or CLOSING on the claimed segment or outlet (R84). -/
def State.ClaimInv (s : State) : Prop :=
  (∀ (i : Slot) (c : Channel), s.outletClaim i = some c → ∃ w, (s.channel c).holds w ∧ w.outlet = i) ∧
  (∀ (k : SegmentIx) (c : Channel), (s.wall k).claim = some c → ∃ w, (s.channel c).holds w ∧ w.segment = k)

/-! ## The open test (R86, R87, R98) -/

/-- An opening (R87): in `t` the channel has the context `x` in OPEN under the next tag, holds both claims of the working
copy and waits to send OPEN, and its outlet's next poll counts from the latest exchange with the slot (R19). Every other
context, claim and record is as in `s`. -/
def State.Opens (s : State) (c : Channel) (x : ChannelContext) (w : WorkingCopy) (t : State) : Prop :=
  let tag := (s.feed.tagCounter + 1) % 256
  t.channel c = { x with
    state := .opened, tag := tag, delivered := 0, openConfirmed := false, closeSent := false, closeCause := none
    blockReason := .none, blockedSince := none, blockTimer := none } ∧
  t.channel (otherChannel c) = s.channel (otherChannel c) ∧ t.feed.tagCounter = tag ∧
  t.feed.waiting = s.feed.waiting ++ [{
    isOpen := true, channel := c, slot := w.outlet, tag := tag, litres := w.litres, stray := false, since := s.now }] ∧
  (∀ i, t.outletClaim i = if i = w.outlet then some c else s.outletClaim i) ∧
  (∀ k, t.wall k = if k = w.segment then { s.wall k with claim := some c } else s.wall k) ∧
  (∀ i, t.record i = if i = w.outlet then { s.record i with
      pollDue := some ((s.record i).lastExchangeEnd.getD s.now + s.params.outletPollMs) } else s.record i)

/-- Deferral is allowed for a channel context (R98): SEGMENT_FULL has stood for `block_s`, and the latest result is bound by
FILL, or the mode is HOLD with a_fill below s_max. -/
def State.DefersNow (s : State) (x : ChannelContext) : Prop :=
  x.blockReason = .segmentFull ∧
  (∃ since, x.blockedSince = some since ∧ since + s.params.blockS * 1000 ≤ s.now) ∧
  (∃ r, s.feed.seen = some r ∧ (r.binding = .fill ∨ s.mode = .hold ∧ ∃ a, r.aFill = some a ∧ a < s.params.sMax))

/-- The deferral test passes for the descriptor of a channel context (R98): deferral is allowed, and the deferred list takes
the descriptor. -/
def State.MayDefer (s : State) (x : ChannelContext) (d : DescriptorIx) : Prop :=
  x.current = some d ∧ s.DefersNow x ∧ (d ∈ x.deferred ∨ x.deferred.length < 8)

/-- A channel context meets the jam test (R99). -/
def State.Jams (s : State) (x : ChannelContext) : Prop :=
  x.state = .wait ∧ x.blockReason ≠ .none ∧ (∃ t, x.blockTimer = some t ∧ t ≤ s.now) ∧
  (¬ s.DefersNow x ∨ ∃ d, x.current = some d ∧ d ∉ x.deferred ∧ 8 ≤ x.deferred.length)

/-! ## The detail of a condition (R10, R99, R147) -/

/-- The lowest index of which a proposition holds, or none where it holds of none. -/
def LowestOf {n : Nat} (p : Fin n → Prop) : Option (Fin n) → Prop
  | some i => p i ∧ ∀ j, j < i → ¬ p j
  | none => ∀ j, ¬ p j

/-! ## Queues (R164, R179, R183) -/

/-- The reply queue holds at most 16 records; an OVERFLOW record is the newest, and without one at most 15 places are
filled (R179). -/
def State.RepliesInv (s : State) : Prop :=
  s.console.replies.length ≤ 16 ∧
  (∀ r ∈ s.console.replies.dropLast, r.isOverflow = false) ∧
  (s.console.replies.any ReplyRecord.isOverflow = false → s.console.replies.length ≤ 15)

/-- The forward queue holds at most 32 records, ordered by rank (R183). -/
def State.ForwardInv (s : State) : Prop :=
  s.console.forward.length ≤ 32 ∧ s.console.forward.Pairwise fun x y => x.rank ≤ y.rank

/-- The staged edit list holds at most 32 edits, at most one per table and index (R164). -/
def State.StagedInv (s : State) : Prop :=
  s.command.staged.length ≤ 32 ∧ s.command.staged.Pairwise fun x y => x.key ≠ y.key

/-- The console traffic of a state with a reply or COMMIT_DONE added to its queue (R179). -/
def State.answered (u : State) (r : ReplyRecord) : Console :=
  { u.console with replies := enqueueReply u.console.replies r }

/-! ## The ring driver (R197) -/

/-- The ring driver is enabled only while a request frame is on the line (R197). -/
def State.DriverInv (s : State) : Prop :=
  s.power.ringDriver = true → ∃ x, s.ring = some x ∧ x.phase = .sending

/-! ## The order of service (R12, R20) -/

/-- A sweep may start, the ring apart: none runs, one is due, the dispatch is idle and no cycle result is on its way to it
(R12). -/
abbrev State.SweepMayStart (s : State) : Prop :=
  s.sweep.running = false ∧ s.sweep.dueAt ≤ s.now ∧ s.dispatch.state = .idle ∧ s.transit.dispatchResults = []

/-- Rank 1 has something to serve: the poll of a running sweep, or the start of one (R12, R13, R20). -/
abbrev State.SweepServes (s : State) : Prop :=
  (s.sweep.running = true ∧ s.sweep.cursor ≠ none) ∨ s.SweepMayStart

/-- Rank 2 has something to serve: a DEMAND or the GO (R20), in CLIMB or TRIM with no change that abandons the dispatch on
its way to it (R26, R27, notes/assumptions/13.md). -/
abbrev State.DispatchServes (s : State) : Prop :=
  (s.mode = .climb ∨ s.mode = .trim) ∧ (∀ m ∈ s.transit.dispatchModes, m.new = .climb ∨ m.new = .trim) ∧
  (s.dispatch.state = .goReady ∨
    s.dispatch.state = .demanding ∧ ∃ e ∈ s.dispatch.entries, s.dispatch.cursor = some e.slot)

/-- Rank 4 has something to serve: a due outlet poll (R19, R20). -/
abbrev State.PollServes (s : State) : Prop :=
  ∃ i : Slot, (s.node i).enabled = true ∧ ∃ t ∈ (s.record i).pollDue, t ≤ s.now

/-- A relay waits for the ring (R189): it is queued, and to an enabled jack only while no stroke window runs and no entry to
CLIMB or TRIM is on its way to the Relay Unit (R118, notes/assumptions/13.md). -/
abbrev State.RelayServes (s : State) (i : RelayIx) : Prop :=
  ∃ x ∈ s.relaySlot i, x.state = .queued ∧
    ((s.node x.target).enabled = true → (s.node x.target).kind = .jack → s.dispatch.state ≠ .window ∧
      ∀ m ∈ s.transit.relayModes, (m.new = .climb ∨ m.new = .trim) → m.old ≠ .idle ∧ m.old ≠ .hold)

/-- The exchange that a request to a slot begins: its frame on the line, the first attempt (R6, R192). -/
def State.requestFor (s : State) (x : ExchangeKind) (i : Slot) (kind : Byte) (payload : List Byte) : Exchange :=
  { kind := x, address := (s.node i).address
    frame := envelopeFrame { address := u8 (s.node i).address, kind := kind, payload := payload }
    retry := false, phase := .sending, discarded := false }

/-- The open window of the exchange on the ring takes a frame from an address: the window has not ended, and the address is
the one addressed (R6). -/
def State.Takes (s : State) (address : Byte) (x : Exchange) : Prop :=
  s.ring = some x ∧ (∃ ends, x.phase = .window ends ∧ s.now ≤ ends) ∧ address.toNat = x.address

/-- The bytes that are a REPORT payload of a content for a slot of a kind, independently of the parser; the unnamed bits of
the flags byte are any (R194). -/
def Report.SpelledBy (report : Report) (kind : NodeKind) (payload : List Byte) : Prop :=
  match report with
  | .jack height tag fault => kind = .jack ∧ height ≤ 16777215 ∧ tag ≤ 255 ∧ ∃ flags : Byte,
      flags.getLsbD 0 = fault ∧ payload = u24 height ++ [u8 tag, flags]
  | .outlet ready ended fault delivered tag => kind = .outlet ∧ delivered ≤ 65535 ∧ tag ≤ 255 ∧ ∃ flags : Byte,
      flags.getLsbD 0 = fault ∧ flags.getLsbD 1 = ready ∧ flags.getLsbD 2 = ended ∧
      payload = flags :: (u16 delivered ++ [u8 tag])
  | .sensor value fault => kind = .sensor ∧ -32768 ≤ value ∧ value ≤ 32767 ∧ ∃ flags : Byte,
      flags.getLsbD 0 = fault ∧ payload = i16 value ++ [flags]

/-! ## What the beacon takes (R79, R135, R138) -/

/-- A list is the segment summary of a state: the enabled segments in ascending order, each with its top, its queue length
and the bottom of its oldest unset record, the top of the record before it or the base, or none (R65, R72, R79). -/
def State.Summarises (s : State) (summary : List SegmentSummary) : Prop :=
  let unset (l : Layer) := s.pourClock - l.placedAt < s.params.setAgeS
  summary.map SegmentSummary.segment = allSegments.filter (fun k => (s.segment k).enabled) ∧
  ∀ x ∈ summary, let w := s.wall x.segment
    x.top = w.top ∧ x.queueLength = w.queue.length ∧
    (∀ before l after, w.queue = before ++ l :: after → unset l → (∀ m ∈ before, ¬ unset m) →
      x.lowestUnset = some ((before.getLast?.map Layer.top).getD w.base)) ∧
    ((∀ l ∈ w.queue, ¬ unset l) → x.lowestUnset = none)

/-- A condition that the console is shown: not IDLE and unmasked (R135). -/
def State.Shows (s : State) (c : Cond) : Prop := (s.condition c).state ≠ .idle ∧ s.isMasked c = false

/-- The top condition: the lowest-numbered one that is shown, or none (R135). -/
def State.TopIs (s : State) (top : Option Cond) : Prop :=
  ∀ c : Cond, top = some c ↔ s.Shows c ∧ ∀ d : Cond, d.num < c.num → ¬ s.Shows d

/-- The reported set: every condition that is shown, once (R135, R138). -/
def State.Reports (s : State) (reported : List Cond) : Prop :=
  reported.Nodup ∧ ∀ c : Cond, c ∈ reported ↔ s.Shows c

/-! ## Payload bytes (R186, R192, R194 to R196) -/

/-- The enumerated fields are numbered from 0 in the order of their values, an absent optional one is 255, and a claim is
none, A, B (R61, R158, R192). The numbers of a condition's class and kind are the model's (notes/assumptions/18.md). -/
def CodesInOrder : Prop :=
  (∀ x : NodeKind, [NodeKind.jack, .outlet, .sensor][x.code.toNat]? = some x) ∧
  (∀ x : NodeState, [NodeState.active, .stale, .lost, .faulted, .disabled][x.code.toNat]? = some x) ∧
  (∀ x : RiseMode, [RiseMode.idle, .climb, .trim, .hold, .halt][x.code.toNat]? = some x) ∧
  (∀ x : Binding, [Binding.rate, .fill, .set, .cap, .none][x.code.toNat]? = some x) ∧
  (∀ x : LayerSource, [LayerSource.a, .b, .manual][x.code.toNat]? = some x) ∧
  (∀ x : ChannelState,
    [ChannelState.idle, .wait, .opened, .closing, .paused, .done, .stopped][x.code.toNat]? = some x) ∧
  (∀ x : BlockReason,
    [BlockReason.none, .notReady, .segmentFull, .segmentBusy, .outletBusy, .noRef][x.code.toNat]? = some x) ∧
  (∀ x : PauseKind, [PauseKind.resume, .after][x.code.toNat]? = some x) ∧
  (∀ x : CondClass, [CondClass.halt, .hold, .note][x.code.toNat]? = some x) ∧
  (∀ x : CondKind, [CondKind.level, .momentary][x.code.toNat]? = some x) ∧
  (∀ x : CondState, [CondState.idle, .raised, .standing, .uncleared][x.code.toNat]? = some x) ∧
  (∀ x : Direction, [Direction.rising, .falling][x.code.toNat]? = some x) ∧
  (∀ x : MonitorClass, [MonitorClass.hold, .note][x.code.toNat]? = some x) ∧
  (∀ x : StartCause, [StartCause.powerOn, .restart][x.code.toNat]? = some x) ∧
  (∀ x : MatchKind, [MatchKind.any, .jack, .outlet, .sensor][x.code.toNat]? = some x) ∧
  (∀ x : ForwardForm, [ForwardForm.full, .compact][x.code.toNat]? = some x) ∧
  (∀ x : RelayState, [RelayState.queued, .inFlight, .done, .failed][x.code.toNat]? = some x) ∧
  (∀ x : OutcomeCode, [OutcomeCode.ok, .unknown, .malformed, .busy, .full, .invalid, .notReady, .notNow, .conflict,
    .pending, .noSuch][x.code.toNat]? = some x) ∧
  (channelCode .a = 0 ∧ channelCode .b = 1 ∧ claimCode none = 0 ∧ claimCode (some .a) = 1 ∧ claimCode (some .b) = 2) ∧
  closeCauseCode none = 255 ∧ tripCauseCode none = 255 ∧
  (∀ x : CloseCause,
    [CloseCause.dwell, .full, .notReady, .void, .stop, .halt][(closeCauseCode (some x)).toNat]? = some x) ∧
  (∀ x : TripCause,
    [TripCause.value, .sensorLost, .sensorFaulted, .sensorAbsent][(tripCauseCode (some x)).toNat]? = some x)

/-- The bytes of a result field in a frame built at `now`. A time is its signed distance in four bytes; one that four bytes
do not hold is any four bytes (R192, notes/assumptions/8.md). -/
def Field.SpelledBy (field : Field) (now : Nat) (bytes : List Byte) : Prop :=
  match field with
  | .bytes bs => bytes = bs
  | .time none => bytes = [0x80, 0, 0, 0]
  | .time (some t) => bytes.length = 4 ∧
      (-2147483648 < (t : Int) - now → (t : Int) - now ≤ 2147483647 → bytes = i32 ((t : Int) - now))

/-- The bytes of result fields, one after another. -/
def fieldsSpelledBy (now : Nat) : List Field → List Byte → Prop
  | [], bytes => bytes = []
  | f :: fs, bytes => ∃ first rest, bytes = first ++ rest ∧ f.SpelledBy now first ∧ fieldsSpelledBy now fs rest

/-- The payload of a REPLY frame built at `now` (R195). -/
def ReplyRecord.SpelledBy (r : ReplyRecord) (now : Nat) (payload : List Byte) : Prop :=
  match r with
  | .reply seq code outcome fields => ∃ rest, payload = [0, seq, code, outcome.code] ++ rest ∧
      fieldsSpelledBy now fields rest
  | .commitDone seq edits cycle => payload = [1, seq, u8 edits] ++ u32 cycle
  | .overflow lost => payload = [2, u8 lost]

/-- A value in a signed 16-bit field that carries no-data: −32,768 when absent, else cut to −32,767 and 32,767 (R186). -/
def errorBytes : Option Int → List Byte
  | none => [0x80, 0]
  | some v => i16 (if v < -32767 then -32767 else if 32767 < v then 32767 else v)

/-- A height or gate in its signed 32-bit field: −2,147,483,648 when absent (R186). -/
def heightBytes : Option Int → List Byte
  | none => [0x80, 0, 0, 0]
  | some v => i32 v

/-- The payload of a FORWARD frame; the unnamed bits of its report's flags byte are 0 (R186, R194, R196). -/
def ForwardRecord.SpelledBy (r : ForwardRecord) (payload : List Byte) : Prop :=
  let bit (b : Bool) (n : Nat) : Nat := if b then n else 0
  let head : List Byte := [u8 r.agent.val, u8 r.rank.val, u8 r.slot.val, r.kind.code]
  match r.content with
  | .full state clock report => payload = head ++ [0, state.code] ++ u32 clock ++ (match report with
      | .jack height tag fault => u24 height ++ [u8 tag, u8 (bit fault 1)]
      | .outlet ready ended fault delivered tag =>
        u8 (bit fault 1 + bit ready 2 + bit ended 4) :: (u16 delivered ++ [u8 tag])
      | .sensor value fault => i16 value ++ [u8 (bit fault 1)])
  | .compact value => payload = head ++ [1] ++ errorBytes value

/-- The bytes of a beacon entry; bit n of the reported set stands for condition n (R186, R195, R196). -/
def BeaconEntry.SpelledBy (e : BeaconEntry) (bytes : List Byte) : Prop :=
  match e with
  | .head start number errors discards =>
    bytes = [0, 0xB1, if start then 1 else 0] ++ u32 number ++ u16 errors ++ u16 discards
  | .cycle r clock marker note =>
    bytes = [1, r.stepMode.code] ++ heightBytes r.hRef ++ heightBytes r.bottom ++ u16 r.s ++ u16 r.sReq ++
      [r.binding.code] ++ u32 r.spread ++ u32 r.remainder ++ heightBytes r.aFill ++ heightBytes r.aSet ++ u32 clock ++
      [(marker.map fun m => u8 m.val).getD 255, (note.map fun d => u8 d.val).getD 255]
  | .conditions top reported => reported.Nodup → ∃ set : Nat,
    (∀ n, set.testBit n = true ↔ ∃ c ∈ reported, c.num.val = n) ∧
    bytes = [2, (top.map fun c => u8 c.num.val).getD 255] ++ u24 set
  | .wall x =>
    bytes = [3, u8 x.segment.val] ++ u32 x.top ++ [u8 x.queueLength] ++ heightBytes (x.lowestUnset.map fun (h : Nat) => (h : Int))
  | .jack slot error demand state => bytes = [4, u8 slot.val] ++ errorBytes error ++ u16 demand ++ [state.code]
  | .user w => bytes = [5] ++ u16 w.w0 ++ u16 w.w1 ++ u16 w.w2 ++ u16 w.w3
  | .finish => bytes = [6, 0xBE]

/-! ## Argument bytes (R158, R162, R163, R195) -/

/-- The range of each parameter at WRITE, first and last value; the one of `rate_req` is empty (R161, R163). -/
def writeRanges : List (Nat × Nat) :=
  [(5000, 120000), (2000, 60000), (2000, 60000), (2, 50), (1, 15), (200, 5000), (1000, 60000), (3, 128), (0, 16), (0, 250),
   (0, 6000), (1, 0), (10, 2000), (0, 1999), (11, 5000), (1, 100), (1, 250), (1, 250), (1, 15), (6000, 20000),
   (500, 10000), (0, 10000), (600, 86400), (5, 600), (0, 600), (10, 3600), (0, 8000), (0, 1), (0, 1), (0, 1), (0, 1), (0, 1)]

/-- An edit as the bytes of WRITE spell it, independently of the parser: table code, index, and the entry's fields at their
sizes, in their order and within their ranges (R1, R60, R81, R142, R149, R160, R161, R163, R181, R195). The unnamed bits
of a DESCRIPTOR's flags byte are any (notes/assumptions/25.md). That 1 is yes in a yes/no byte is the model's choice
(notes/assumptions/41.md). -/
def Edit.SpelledBy (edit : Edit) (args : List Byte) : Prop :=
  let flag (b : Bool) : Byte := if b then 1 else 0
  let within (low x high : Int) : Prop := low ≤ x ∧ x ≤ high
  match edit with
  | .node i e =>
    let head : List Byte := [0, u8 i.val, flag e.enabled, u8 e.address]
    within 1 e.address 200 ∧
    (match e.kind with
      | .jack => ∃ stroke zero, e.strokeMax = some stroke ∧ e.zero = some zero ∧ within 10 stroke 300 ∧
          within (-32768) zero 32767 ∧ args = head ++ [0] ++ u16 stroke ++ i16 zero
      | .outlet => e.strokeMax = none ∧ e.zero = none ∧ args = head ++ [1]
      | .sensor => e.strokeMax = none ∧ e.zero = none ∧ args = head ++ [2])
  | .segment k e => within 100 e.area 200000 ∧ within 0 e.startTop 16777215 ∧
    args = [1, u8 k.val, flag e.enabled] ++ u32 e.area ++ u32 e.startTop
  | .descriptor d e => within 1 e.litres 4000 ∧ ∃ flags : Byte, e.pauseAfter = flags.getLsbD 0 ∧
    e.mark = flags.getLsbD 1 ∧ args = [2, u8 d.val, flag e.enabled, u8 e.segment.val, u8 e.outlet.val] ++ u16 e.litres ++
      [match e.next with
        | none => 255
        | some n => u8 n.val, flags]
  | .monitor m e => (∀ l ∈ e.levels.toList, within (-32768) l 32767) ∧ within 0 e.hysteresis 1000 ∧
    args = [3, u8 m.val, flag e.enabled, u8 e.sensor.val, match e.direction with
        | .rising => 0
        | .falling => 1] ++ (e.levels.toList.map i16).flatten ++ [u8 e.select.val] ++ u16 e.hysteresis ++
      [match e.cls with
        | .hold => 0
        | .note => 1]
  | .marker m e =>
    let head : List Byte := [4, u8 m.val, flag e.enabled] ++ u32 e.height
    within 0 e.height 16777215 ∧
    (match e.action with
      | .hold => args = head ++ [0]
      | .rate v => within 0 v 6000 ∧ args = head ++ [1] ++ u16 v
      | .feedStop .a => args = head ++ [2, 0]
      | .feedStop .b => args = head ++ [2, 1])
  | .agent n e => e.low ≤ e.high ∧ within 1 e.everyN 255 ∧
    args = [5, u8 n.val, flag e.enabled, match e.matchKind with
        | .any => 0
        | .jack => 1
        | .outlet => 2
        | .sensor => 3, u8 e.low.val, u8 e.high.val, u8 e.everyN, match e.form with
        | .full => 0
        | .compact => 1, u8 e.rank.val]
  | .parameter i v => ∃ first last, writeRanges[i.val]? = some (first, last) ∧ first ≤ v ∧ v ≤ last ∧
    args = [6, u8 i.val] ++ u32 v

/-- A target of READ as its three argument bytes name it, independently of the parser (R162, R195). -/
def ReadTarget.NamedBy (target : ReadTarget) (t i j : Byte) : Prop :=
  match target with
  | .node x => t = 0 ∧ i = u8 x.val
  | .segment x => t = 1 ∧ i = u8 x.val
  | .descriptor x => t = 2 ∧ i = u8 x.val
  | .monitor x => t = 3 ∧ i = u8 x.val
  | .marker x => t = 4 ∧ i = u8 x.val
  | .agent x => t = 5 ∧ i = u8 x.val
  | .parameter x => t = 6 ∧ i = u8 x.val
  | .record x => t = 7 ∧ i = u8 x.val
  | .wall x => t = 8 ∧ i = u8 x.val
  | .layer x p => t = 9 ∧ i = u8 x.val ∧ j = u8 p.val
  | .condition c => t = 10 ∧ i = u8 c.num.val
  | .channel .a => t = 11 ∧ i = 0
  | .channel .b => t = 11 ∧ i = 1
  | .relay x => t = 12 ∧ i = u8 x.val
  | .monitorState x => t = 13 ∧ i = u8 x.val
  | .markerState x => t = 14 ∧ i = u8 x.val
  | .cycleResult x => t = 15 ∧ i = u8 x.val
  | .agentCounters x => t = 16 ∧ i = u8 x.val

/-- Whether argument bytes are MALFORMED for a command code of the command set: a wrong length, or a value outside its
range (R158, R163, R195). -/
def malformedArgs (code : Byte) (args : List Byte) : Bool :=
  match code.toNat with
  | 2 => match args with
    | [t, i, j] => (readTarget? t i j).isNone
    | _ => true
  | 3 => (parseEdit args).isNone
  | 10 => args.length != 2
  | 11 => match args with
    | [n] => decide (17 < n.toNat)
    | _ => true
  | 13 => match args with
    | [b2, _, _] => decide (3 < b2.toNat)
    | _ => true
  | 14 => match args with
    | [c, d] => decide (1 < c.toNat) || decide (63 < d.toNat)
    | _ => true
  | 15 => match args with
    | [c] => decide (1 < c.toNat)
    | _ => true
  | 16 => match args with
    | [k, l1, l0] => decide (31 < k.toNat) || decide (l1.toNat * 256 + l0.toNat < 1) ||
        decide (4000 < l1.toNat * 256 + l0.toNat)
    | _ => true
  | 17 => match args with
    | t :: i :: payload => decide (t.toNat = 0) || decide (127 < i.toNat) || decide (64 < payload.length)
    | _ => true
  | 18 => args.length != 8
  | _ => !args.isEmpty

end Sys2Proof.Machine

namespace Sys2Proof

/-! ## What a step is, beside the queue of commands -/

/-- A step of the part that the supply and the reset pin do not gate (R176, R197). -/
def Instr.ungated : Instr → Bool
  | .powerOn => true
  | .resetPinAssert => true
  | .powerLoss => true
  | _ => false

end Sys2Proof
end

