-- ==== Sys2Proof/WellFormed.lean ====
section
/-! DEFINITION. Which terms of Instr stand for a step that can occur (R157, R177, R192 to R195). -/

namespace Sys2Proof

open Sys2Proof.Machine

/-- The greatest number of argument bytes a COMMAND frame holds beside sequence number and code (R192, R195). -/
def maxArgs : Nat := Config.maxPayload - 2

/-- Whether argument bytes fit a COMMAND frame. -/
def argsFit (args : List Byte) : Bool := decide (args.length ≤ maxArgs)

/-- Whether a command code is one of the command set (R158, R195). -/
def knownCode (code : Byte) : Bool := decide (1 ≤ code.toNat) && decide (code.toNat ≤ 19)

/-- Whether a payload length is one of a REPORT: 5 for a JACK, 4 for an OUTLET, 3 for a SENSOR (R194). -/
def reportLength (n : Nat) : Bool := n == 5 || n == 4 || n == 3

/-- Whether a payload length is one of a RELAY_BACK (R194). -/
def relayBackLength (n : Nat) : Bool := decide (1 ≤ n) && decide (n ≤ 65)

/-- Whether a byte is a node address (R1). -/
def nodeAddress (a : Byte) : Bool := decide (1 ≤ a.toNat) && decide (a.toNat ≤ 200)

/-- The well-formed steps. -/
def Instr.wf : Instr → Bool
  | .consoleFrameReject f => !frameConsoleValid f
  | .status _ args => argsFit args
  | .read _ args => argsFit args
  | .write _ args => argsFit args
  | .discard _ args => argsFit args
  | .commit _ args => argsFit args
  | .start _ args => argsFit args
  | .stop _ args => argsFit args
  | .hold _ args => argsFit args
  | .release _ args => argsFit args
  | .setRate _ args => argsFit args
  | .ack _ args => argsFit args
  | .pollCondition _ args => argsFit args
  | .mask _ args => argsFit args
  | .feedStart _ args => argsFit args
  | .feedStop _ args => argsFit args
  | .place _ args => argsFit args
  | .relay _ args => argsFit args
  | .setUser _ args => argsFit args
  | .restart _ args => argsFit args
  | .unknownCommand _ code args => argsFit args && !knownCode code
  | .ringReport a payload => nodeAddress a && reportLength payload.length
  | .demandAck a payload => nodeAddress a && payload.isEmpty
  | .openAck a payload => nodeAddress a && payload.isEmpty
  | .closeAck a payload => nodeAddress a && payload.isEmpty
  | .ringRelayBack a payload => nodeAddress a && relayBackLength payload.length
  | .powerOn => true
  | .resetPinAssert => true
  | .pourClockTick => true
  | .silenceExpiry => true
  | .sweepStart => true
  | .sweepPoll => true
  | .outletPoll => true
  | .demand => true
  | .goBroadcast => true
  | .goSent => true
  | .openExchange => true
  | .closeExchange => true
  | .relayExchange => true
  | .ringFrameDiscard _ => true
  | .replyWindowExpiry => true
  | .strokeWindowExpiry => true
  | .dwellExpiry _ => true
  | .pauseExpiry _ => true
  | .blockTimerExpiry _ => true
  | .relayResultExpiry _ => true
  | .dispatchResultArrival => true
  | .placementResultArrival => true
  | .markerResultArrival => true
  | .feedResultArrival => true
  | .beaconBuild => true
  | .spreadSwitchArrival => true
  | .dispatchModeArrival => true
  | .feedModeArrival => true
  | .relayModeArrival => true
  | .consoleSend => true
  | .sweepModeArrival => true
  | .rateClockModeArrival => true
  | .silenceModeArrival => true
  | .requestFrameSent => true
  | .consoleFrameSent => true
  | .powerLoss => true

end Sys2Proof
end

