-- ==== Sys2Proof/Certificates/Slice0/Obligations.lean ====
section
/-! DEFINITION. The statements about the LW740, for the provers. `u` is the state a console command acts on: the silence
timer has restarted (R178; that this comes before the command is the model's choice, notes/assumptions/39.md). A frame is an equation: the state after is the state before with the named parts replaced. -/

open Sys2Proof Sys2Proof.Machine

/-! ## The queue of commands, power, and what every step keeps -/

/-- One step takes the command at the front of the queue and runs it with the rest of the queue; with no command waiting
one millisecond passes (model's form, notes/assumptions/1.md). -/
def Obligations.StepTakesTheFrontCommand : Prop :=
  (∀ (c : Instr) (rest : List Instr) (s : State), s.pending = c :: rest → step s = exec c (s.withPending rest)) ∧
  (∀ s : State, s.pending = [] → step s = .next (s.withNow (s.now + 1)))

/-- No command touches the queue or the millisecond time base (notes/assumptions/1.md). -/
def Obligations.CommandsLeaveQueueAndTime : Prop :=
  ∀ (c : Instr) (s t : State), exec c s = .next t → t.pending = s.pending ∧ t.now = s.now

/-- While the part is unpowered or its reset pin is low, nothing but POWER_ON, RESET_PIN_ASSERT and POWER_LOSS acts on it
(notes/assumptions/4.md). -/
def Obligations.AHeldPartStandsStill : Prop :=
  ∀ (c : Instr) (s : State), c.ungated = false → s.running = false → exec c s = .next s

/-- POWER_ON runs the part and nothing is kept from before it (R176): every field of the state but the model's own time
base, index of free values and queue of commands has its value of POWER_ON, table by table and block by block. That a section
enable's yes is held as 1 is the model's choice (notes/assumptions/41.md). -/
def Obligations.PowerOnKeepsNothing : Prop :=
  (∀ s s' : State, s.now = s'.now → s.free = s'.free → s.pending = s'.pending →
    exec .powerOn s = exec .powerOn s' ∧ ∃ t, exec .powerOn s = .next t ∧ t.running = true) ∧
  (∀ s : State, ∃ t, exec .powerOn s = .next t ∧ t.now = s.now ∧ t.free = s.free ∧ t.pending = s.pending ∧
     t.power = { supply := true, resetPinLow := false, ringDriver := false, consoleDriver := true } ∧
     t.pourClock = 0 ∧ t.mode = .idle ∧
     (∀ i, t.node i = { enabled := false, address := 1, kind := .sensor, strokeMax := none, zero := none } ∧
       t.record i = { state := .disabled, missCount := 0, lastReport := none, previousHeight := none,
                      shortCounter := 0, pollDue := none, lastExchangeEnd := none } ∧ t.expectation i = none) ∧
     t.sweep = { running := false, dueAt := t.now, startedAt := none, polled := [], cursor := none, replies := [] } ∧
     t.ring = none ∧
     t.dispatch = { state := .idle, tag := none, entries := [], cursor := none, windowEndsAt := none } ∧
     t.level = { cycleNumber := 0, remainder := 0, rateClock := none, latest := none } ∧ t.placementSeen = none ∧
     (∀ k, t.segment k = { enabled := false, area := 100, startTop := 0 } ∧
       t.wall k = { top := 0, base := 0, remainder := 0, placedTotal := 0, claim := none, queue := [] }) ∧
     (∀ d, t.descriptor d = { enabled := false, segment := 0, outlet := 0, litres := 1, next := none,
                              pauseAfter := false, mark := false }) ∧
     (∀ c, t.channel c = {
       state := .idle, current := none, working := none, delivered := 0, tag := 0, openConfirmed := false,
       closeCause := none, closeSent := false, void := false, blockReason := .none, blockedSince := none,
       blockTimer := none, dwellEndsAt := none, pause := none, deferred := [] }) ∧
     (∀ i, t.outletClaim i = none) ∧
     (t.feed.tagCounter = 0 ∧ t.feed.note = none ∧ t.feed.waiting = [] ∧ t.feed.seen = none) ∧
     (∀ c, t.condition c = { state := .idle, source := false, detail := none, count := 0 } ∧ t.isMasked c = false) ∧
     (∀ m, t.monitor m = { enabled := false, sensor := 0, direction := .rising, levels := Table.const 4 0, select := 0,
                           hysteresis := 0, cls := .note } ∧
       t.monitorRecord m = { tripped := false, cause := none, lastValue := none, judgedAt := none }) ∧
     (∀ m, t.marker m = { enabled := false, height := 0, action := .hold } ∧ t.markers.spent.read m = false) ∧
     t.markers.latest = none ∧
     t.command = { staged := [], commitPending := false, commitSeq := none, startCause := .powerOn,
                   user := { w0 := 0, w1 := 0, w2 := 0, w3 := 0 } } ∧
     (t.params.cycleMs = 20000 ∧ t.params.strokeMs = 8000 ∧ t.params.idleMs = 10000 ∧ t.params.replyWindowMs = 8 ∧
       t.params.missLimit = 3 ∧ t.params.outletPollMs = 1000 ∧ t.params.silenceMs = 10000 ∧ t.params.minJacks = 3 ∧
       t.params.gain = 8 ∧ t.params.sMax = 250 ∧ t.params.rateMax = 3000 ∧ t.params.rateReq = 0 ∧
       t.params.trimBand = 150 ∧ t.params.trimExit = 80 ∧ t.params.haltBand = 400 ∧ t.params.slipTol = 20 ∧
       t.params.overTol = 30 ∧ t.params.shortTol = 30 ∧ t.params.shortLimit = 3 ∧ t.params.formHeight = 12000 ∧
       t.params.maxVoid = 3000 ∧ t.params.freeboard = 500 ∧ t.params.setAgeS = 14400 ∧ t.params.dwellS = 90 ∧
       t.params.pauseS = 20 ∧ t.params.blockS = 120 ∧ t.params.fwdBudget = 2000 ∧
       ∀ i : ParamIx, 27 ≤ i.val → t.params.value i = 1) ∧
     (∀ a, t.agents.entries.read a = { enabled := false, matchKind := .any, low := 0, high := 127, everyN := 1,
                                       form := .full, rank := 3 } ∧
       t.agents.counters.read a = 0 ∧ t.agents.drops.read a = 0) ∧
     t.console = { receptionErrors := 0, silence := { latestValid := t.now, evaluated := false }, replies := [],
                   forward := [], budget := 0, forwardHeld := false, unsent := none, sending := none, startFlag := true, tx := none } ∧
     (∀ i, t.relaySlot i = none) ∧ t.relays.discards = 0 ∧ t.jobs = [] ∧
     t.transit = {
       dispatchResults := [], retirements := [], placementResults := [], markerResults := [], feedResults := [],
       spreadSwitches := [], sweepModes := [], dispatchModes := [], rateModes := [], feedModes := [],
       silenceModes := [], relayModes := [] })

/-- RESET_PIN_ASSERT holds the part and releases both drivers, with nothing else changed; POWER_LOSS leaves the part
without supply and both drivers released; POUR_CLOCK_TICK counts one second more and nothing else, and the pour clock
stops at its greatest value. -/
def Obligations.PowerPinAndPourClock : Prop :=
  ((∀ s : State, ∃ t, exec .resetPinAssert s = .next t ∧ t = s.withPower t.power ∧ t.running = false ∧
     t.power.ringDriver = false ∧ t.power.consoleDriver = false ∧ t.power.supply = s.power.supply) ∧
   (∀ s : State, ∃ t, exec .powerLoss s = .next t ∧ t.running = false ∧ t.power.supply = false ∧
     t.power.ringDriver = false ∧ t.power.consoleDriver = false ∧ t.power.resetPinLow = s.power.resetPinLow)) ∧
  (∀ s : State, s.running = true →
     ∃ t, exec .pourClockTick s = .next t ∧ t = s.withPourClock t.pourClock ∧
       (s.pourClock < 4294967295 → t.pourClock = s.pourClock + 1) ∧
       (s.pourClock = 4294967295 → t.pourClock = 4294967295))

/-- Every step keeps the invariants of the rise mode: CLIMB and TRIM only while every HOLD-class and HALT-class condition
is IDLE; and while the mode is HALT no channel is in WAIT, OPEN or PAUSED (HaltInv, Safety.lean, with what a state needs
beside it: a cause STOP or HALT in CLOSING, a working copy in OPEN, no spread switch that enters HALT). -/
def Obligations.StepsKeepTheModeInvariant : Prop :=
  (∀ s t : State, s.ModeInv → step s = .next t → t.ModeInv) ∧
  (∀ s t : State, s.HaltInv → step s = .next t → t.HaltInv)

/-- Every step keeps the form of every placement queue, and the pour clock within its 32 bits. -/
def Obligations.StepsKeepTheQueueForm : Prop :=
  ∀ s t : State, s.WallInv → step s = .next t → t.WallInv

/-- Every step keeps it that claims are held only in OPEN or CLOSING, by the channel whose working copy names them. -/
def Obligations.StepsKeepTheClaims : Prop :=
  ∀ s t : State, s.ClaimInv → step s = .next t → t.ClaimInv

/-- Every step keeps the form of the reply queue, of the forward queue (at most 32 records in rank order) and of the
staged edit list (at most 32 edits, no table and index twice). -/
def Obligations.StepsKeepTheQueues : Prop :=
  (∀ s t : State, s.RepliesInv → step s = .next t → t.RepliesInv) ∧
  (∀ s t : State, s.ForwardInv → step s = .next t → t.ForwardInv) ∧
  (∀ s t : State, s.StagedInv → step s = .next t → t.StagedInv)

/-- Every step keeps it that the ring driver is enabled only while a request frame is on the line. -/
def Obligations.StepsKeepTheDriverRule : Prop :=
  ∀ s t : State, s.DriverInv → step s = .next t → t.DriverInv

/-- The part right after reset meets every invariant. -/
def Obligations.ResetMeetsTheInvariants : Prop :=
  State.reset.ModeInv ∧ State.reset.HaltInv ∧ State.reset.WallInv ∧ State.reset.ClaimInv ∧ State.reset.RepliesInv ∧
    State.reset.ForwardInv ∧ State.reset.StagedInv ∧ State.reset.DriverInv

/-! ## Frames on the lines -/

/-- Decoding the COMMAND frame of a console command gives the command back, for every command, sequence number and
argument bytes that a frame holds, and for every gap up to 5 ms between its bytes. -/
def Obligations.ConsoleDecodeAfterEncode : Prop :=
  ∀ (i : Instr) (bs : List RxByte), i.wf = true → encodeConsole i = some (bs.map RxByte.value) →
    (∀ b ∈ bs.tail, b.gap ≤ 5000) → decodeConsole { bytes := bs } = i

/-- A receiver that takes the bytes of one frame of the part, with gaps of at most 2 ms on the ring or 5 ms on the console
line between them, collects exactly that frame, and its checks give the envelope back. A frame with a longer gap between
two of its bytes passes no check; what passes is a frame of the part's form, payload of 240 bytes at most, in time.
A frame of the ring is a reply if it passes, an open reply window takes frames from its address (within the window's time,
notes/assumptions/2.md), and its kind and length are those that the exchange expects: REPORT of the slot's kind for a poll,
an empty ACK for DEMAND, OPEN and CLOSE, RELAY_BACK with the relay's tag and at most 64 result bytes for a relay. Any other
frame, and any that comes during the GO, is RING_FRAME_DISCARD. -/
def Obligations.ReceiverCollectsAFrame : Prop :=
  (∀ (line : Line) (e : Envelope) (bs : List RxByte), e.payload.length ≤ 240 → bs.map RxByte.value = envelopeFrame e →
    let limit := match line with
      | .ring => 2000
      | .console => 5000
    ((∀ b ∈ bs.tail, b.gap ≤ limit) → receiveAll line bs = [{ bytes := bs }] ∧ frameEnvelope line { bytes := bs } = some e) ∧
    ((∃ b ∈ bs.tail, limit < b.gap) → frameEnvelope line { bytes := bs } = none)) ∧
  (∀ (line : Line) (f : RxFrame) (e : Envelope),
    frameEnvelope line f = some e ↔ e.payload.length ≤ 240 ∧ f.bytes.map RxByte.value = envelopeFrame e ∧
      ∀ b ∈ f.bytes.tail, b.gap ≤ (match line with
        | .ring => 2000
        | .console => 5000)) ∧
  (∀ (s : State) (f : RxFrame),
    (frameEnvelope .ring f = none → s.ringStep f = .ringFrameDiscard f) ∧
    ∀ e, frameEnvelope .ring f = some e →
      let only (p : Prop) (i : Instr) := (p → s.ringStep f = i) ∧ (¬ p → s.ringStep f = .ringFrameDiscard f)
      ((∀ x, ¬ s.Takes e.address x) → s.ringStep f = .ringFrameDiscard f) ∧
      ∀ x, s.Takes e.address x →
        (∀ i, x.kind = .sweepPoll i ∨ x.kind = .outletPoll i →
          only (e.kind = 0x02 ∧ e.payload.length = (match (s.node i).kind with
            | .jack => 5
            | .outlet => 4
            | .sensor => 3)) (.ringReport e.address e.payload)) ∧
        (∀ i, x.kind = .demand i → only (e.kind = 0x04 ∧ e.payload = []) (.demandAck e.address [])) ∧
        (∀ c i tag, x.kind = .openOutlet c i tag → only (e.kind = 0x04 ∧ e.payload = []) (.openAck e.address [])) ∧
        (∀ c i tag stray, x.kind = .closeOutlet c i tag stray →
          only (e.kind = 0x04 ∧ e.payload = []) (.closeAck e.address [])) ∧
        (x.kind = .go → s.ringStep f = .ringFrameDiscard f) ∧
        (∀ i target tag, x.kind = .relay i target tag →
          only (e.kind = 0x09 ∧ ∃ result, e.payload = u8 tag :: result ∧ result.length ≤ 64)
            (.ringRelayBack e.address e.payload)))

/-- The CRC of the nine bytes "123456789" is 0x29B1, and three frames written out byte by byte are the commands they
stand for. -/
def Obligations.WrittenFramesAreTheirCommands : Prop :=
  crc16 [0x31, 0x32, 0x33, 0x34, 0x35, 0x36, 0x37, 0x38, 0x39] = 0x29B1#16 ∧
  decodeConsole (gapless [0xA5, 0x00, 0x21, 0x02, 0x07, 0x01, 0xB7, 0x20]) = .status 7 [] ∧
  decodeConsole (gapless [0xA5, 0x00, 0x21, 0x04, 0x08, 0x0A, 0x09, 0x60, 0x9C, 0x5C]) =
    .setRate 8 [0x09, 0x60] ∧
  decodeConsole (gapless [0xA5, 0x00, 0x21, 0x02, 0x01, 0x99, 0x1F, 0x37]) =
    .unknownCommand 1 0x99 []

/-! ## Console commands -/

/-- Every console command first restarts the silence timer: it acts as it would on a part whose latest valid frame is
this moment and whose CONSOLE_SILENT source is inactive. An active source is cleared: the condition goes from RAISED to
UNCLEARED, from STANDING to IDLE. Where it returns to IDLE in HOLD with every other HOLD-class and HALT-class condition IDLE
the hold ends in CLIMB, or in TRIM when the spread of the latest result is above trim_band, and the change is handed to the
six blocks; else mode and hand-offs stay. Nothing else differs, and with the source inactive nothing but the timer. That the
timer comes before the command is the model's choice (notes/assumptions/39.md). -/
def Obligations.CommandsRestartTheSilenceTimer : Prop :=
  (∀ s : State, let u := s.silenceReset
    let v := s.withConsole { s.console with silence := { s.console.silence with latestValid := s.now } }
    let r := s.condition .consoleSilent
    let ends := r.state = .standing ∧ s.mode = .hold ∧
      ∀ d : Cond, d ≠ .consoleSilent → d.cls = .hold ∨ d.cls = .halt → (s.condition d).state = .idle
    u.console.silence.latestValid = s.now ∧ (u.condition .consoleSilent).source = false ∧
    (r.source = false → u = v) ∧
    (r.source = true →
      u = ((v.withConditions u.conditions).withMode u.mode).withTransit u.transit ∧
      u.condition .consoleSilent = { r with source := false, state := (match r.state with
        | .idle => .idle
        | .raised => .uncleared
        | .standing => .idle
        | .uncleared => .uncleared) } ∧
      (∀ d : Cond, d ≠ .consoleSilent → u.condition d = s.condition d) ∧ u.conditions.masked = s.conditions.masked ∧
      (ends → u.mode = (match s.level.latest with
          | some x => if x.spread ≤ s.params.trimBand then .climb else .trim
          | none => .climb) ∧
        u.transit = s.transit.handed { old := .hold, new := u.mode, moment := s.now }) ∧
      (¬ ends → u.mode = s.mode ∧ u.transit = s.transit))) ∧
  (∀ (i : Instr) (s : State), i.command.isSome = true → s.running = true → exec i s = exec i s.silenceReset)

/-- A command whose argument bytes are MALFORMED is answered so, UNKNOWN_COMMAND is answered UNKNOWN with its code echoed,
and neither changes anything else. -/
def Obligations.RejectedCommandsChangeNothing : Prop :=
  (∀ (s : State) (seq code : Byte) (args : List Byte), s.running = true → knownCode code = true →
     malformedArgs code args = true →
     ∃ t, exec (commandStep seq code args) s = .next t ∧ t = s.silenceReset.withConsole t.console ∧
       t.console = s.silenceReset.answered (.reply seq code .malformed [])) ∧
  (∀ (s : State) (seq code : Byte) (args : List Byte), s.running = true →
     ∃ t, exec (.unknownCommand seq code args) s = .next t ∧ t = s.silenceReset.withConsole t.console ∧
       t.console = s.silenceReset.answered (.reply seq code .unknown []))

/-- A reply or COMMIT_DONE joins the reply queue while fewer than 15 places are filled, takes the 16th place as an
OVERFLOW of one loss when 15 are, and is counted into a standing OVERFLOW up to 255. -/
def Obligations.RepliesJoinTheQueue : Prop :=
  (∀ (q : List ReplyRecord) (r : ReplyRecord), q.any ReplyRecord.isOverflow = false → q.length < 15 →
    enqueueReply q r = q ++ [r]) ∧
  (∀ (q : List ReplyRecord) (r : ReplyRecord), q.any ReplyRecord.isOverflow = false → q.length = 15 →
    enqueueReply q r = q ++ [.overflow 1]) ∧
  (∀ (q : List ReplyRecord) (r : ReplyRecord) (lost : Nat), q.any ReplyRecord.isOverflow = false →
    enqueueReply (q ++ [.overflow lost]) r = q ++ [.overflow (min 255 (lost + 1))])

/-- STATUS answers OK with the rise mode, the start cause, the cycle number of the latest result or 0, the pour clock,
commit-pending, the staged count and the states of the two channels, and changes nothing else. An enumerated field is the
place of its value among its values (CodesInOrder, Safety.lean; a condition's class and kind by notes/assumptions/18.md);
that a yes/no byte is 1 for yes is the model's choice (notes/assumptions/41.md). The clear of CONSOLE_SILENT comes before
the command (notes/assumptions/39.md). -/
def Obligations.StatusReply : Prop :=
  ∀ (s : State) (seq : Byte), s.running = true → let u := s.silenceReset
    ∃ t, exec (.status seq []) s = .next t ∧ t = u.withConsole t.console ∧
      t.console = u.answered (.reply seq 0x01 .ok
        [.bytes ([u.mode.code, u.command.startCause.code] ++
          u32 (match u.level.latest with
            | some r => r.cycleNumber
            | none => 0) ++ u32 u.pourClock ++
          [if u.command.commitPending then 1 else 0, u8 u.command.staged.length, (u.channel .a).state.code,
            (u.channel .b).state.code])]) ∧ CodesInOrder

/-- READ of a target that exists answers OK with the three argument bytes echoed and the record, and changes nothing
else; where the record does not exist it answers NO_SUCH. A layer position at or beyond the queue length, a free relay
slot and a cycle result before the first computation do not exist; every other target does. The first byte is the number
of the target, the second its index, the third the position of a layer and otherwise ignored; another length, a number
from 17 on and an index outside the target's range are MALFORMED (NamedBy, Safety.lean).
Then what each of the 17 targets carries, field by field: a table entry or a live record in the order of the rule that
gives its fields; times as moments that the frame turns into distances. Where R195 leaves a width, a code, a presence
byte or the form of a list to R192 the model follows notes/assumptions/18.md; an absent last value and an absent judged at
are two and four free bytes (notes/assumptions/9.md). An enumerated field is the place of its value among its values
(CodesInOrder, Safety.lean). That a yes/no byte is 1 for yes is the model's choice (notes/assumptions/41.md). The clear of
CONSOLE_SILENT comes before the command (notes/assumptions/39.md). -/
def Obligations.ReadReply : Prop :=
  (∀ (s : State) (seq t i j : Byte) (target : ReadTarget), s.running = true → target.NamedBy t i j →
    ∃ x, exec (.read seq [t, i, j]) s = .next x ∧ x = s.silenceReset.withConsole x.console ∧
      x.console = s.silenceReset.answered (match s.silenceReset.readFields target with
          | some fields => .reply seq 0x02 .ok (.bytes [t, i, j] :: fields)
          | none => .reply seq 0x02 .noSuch [])) ∧
  (∀ (s : State) (seq : Byte) (args : List Byte), s.running = true →
    (∀ (t i j : Byte) (target : ReadTarget), args = [t, i, j] → ¬ target.NamedBy t i j) →
    exec (.read seq args) s = .next (s.silenceReset.withConsole
      (s.silenceReset.answered (.reply seq 0x02 .malformed [])))) ∧
  (∀ (s : State) (target : ReadTarget), s.readFields target = none ↔
    ((∃ k p, target = .layer k p ∧ (s.wall k).queue.length ≤ p.val) ∨
     (∃ r, target = .relay r ∧ s.relaySlot r = none) ∨
     (∃ p, target = .cycleResult p ∧ s.level.latest = none))) ∧
  (∀ s : State,
    let flag (b : Bool) : Byte := if b then 1 else 0
    let present (x : Option (List Byte)) : List Byte := match x with
      | none => [0]
      | some bs => 1 :: bs
    let descriptor (x : Option DescriptorIx) : Byte := match x with
      | none => 255
      | some d => u8 d.val
    let signed (x : Option Int) : List Byte := i32 (x.getD (-2147483648))
    (∀ i, let e := s.node i
      s.readFields (.node i) = some [.bytes ([flag e.enabled, u8 e.address, e.kind.code] ++
        (e.strokeMax.map u16).getD [] ++ (e.zero.map i32).getD [])]) ∧
    (∀ i, let e := s.segment i
      s.readFields (.segment i) = some [.bytes (flag e.enabled :: (u32 e.area ++ u32 e.startTop))]) ∧
    (∀ i, let e := s.descriptor i
      s.readFields (.descriptor i) = some [.bytes ([flag e.enabled, u8 e.segment.val, u8 e.outlet.val] ++
        u16 e.litres ++ [descriptor e.next, flag e.pauseAfter, flag e.mark])]) ∧
    (∀ i, let e := s.monitor i
      s.readFields (.monitor i) = some [.bytes ([flag e.enabled, u8 e.sensor.val, e.direction.code] ++
        (e.levels.toList.map i16).flatten ++ [u8 e.select.val] ++ u16 e.hysteresis ++ [e.cls.code])]) ∧
    (∀ i, let e := s.marker i
      s.readFields (.marker i) = some [.bytes (flag e.enabled :: (u32 e.height ++ (match e.action with
        | .hold => [0]
        | .rate v => 1 :: u16 v
        | .feedStop c => [2, channelCode c])))]) ∧
    (∀ i, let e := s.agents.entries.read i
      s.readFields (.agent i) = some [.bytes [flag e.enabled, e.matchKind.code, u8 e.low.val, u8 e.high.val,
        u8 e.everyN, e.form.code, u8 e.rank.val]]) ∧
    (∀ i : ParamIx, let v := s.params.value i
      s.readFields (.parameter i) = some [.bytes (
        if i = 0 ∨ i = 22 then u32 v
        else if i ∈ [(3 : ParamIx), 4, 7, 8, 9, 15, 16, 17, 18, 27, 28, 29, 30, 31] then [u8 v]
        else u16 v)]) ∧
    (∀ i, let r := s.record i
      s.readFields (.record i) = some [
        .bytes ([r.state.code, u8 r.missCount] ++
          present (r.lastReport.map fun x => match x with
            | .jack height tag fault => u32 height ++ [u8 tag, flag fault]
            | .outlet ready ended fault delivered tag =>
              [flag ready, flag ended, flag fault] ++ u16 delivered ++ [u8 tag]
            | .sensor value fault => i16 value ++ [flag fault]) ++
          signed (r.previousHeight.map fun (h : Nat) => (h : Int)) ++ [u8 r.shortCounter]),
        .time r.pollDue,
        .bytes (present ((s.expectation i).map fun e => u8 e.tag :: (u16 e.demand ++ [flag (!e.confirmed)])))]) ∧
    (∀ k, let w := s.wall k
      s.readFields (.wall k) = some [.bytes (u32 w.top ++ u32 w.base ++ u32 w.remainder ++ u32 w.placedTotal ++
        [claimCode w.claim, u8 w.queue.length])]) ∧
    (∀ k p l, (s.wall k).queue[p.val]? = some l →
      let bottom := (((s.wall k).queue.take p.val).getLast?.map Layer.top).getD (s.wall k).base
      let age := s.pourClock - l.placedAt
      s.readFields (.layer k p) = some [.bytes (u32 l.top ++ u32 bottom ++ u32 l.placedAt ++ u32 age ++
        [flag (decide (s.params.setAgeS ≤ age))] ++ u32 l.litres ++
        [l.source.code, descriptor l.descriptor, flag l.greenExited])]) ∧
    (∀ c, let r := s.condition c
      s.readFields (.condition c) = some [.bytes [u8 c.num.val, c.cls.code, c.kind.code, r.state.code, flag (!r.source),
        u8 (r.detail.getD 255), u8 r.count, flag (s.isMasked c)]]) ∧
    (∀ c, let x := s.channel c
      s.readFields (.channel c) = some ([
        .bytes ([x.state.code, descriptor x.current] ++
          present (x.working.map fun w => [u8 w.segment.val, u8 w.outlet.val] ++ u16 w.litres) ++ u16 x.delivered ++
          [u8 x.tag, flag x.openConfirmed, closeCauseCode x.closeCause, flag x.closeSent, flag x.void,
            x.blockReason.code]),
        .time x.blockedSince, .time x.blockTimer, .time x.dwellEndsAt] ++
        (match x.pause with
          | none => [.bytes [0]]
          | some p => [.bytes [1], .time (some p.endsAt), .bytes [p.kind.code]]) ++
        [.bytes (u8 x.deferred.length :: x.deferred.map fun d => u8 d.val)])) ∧
    (∀ i x, s.relaySlot i = some x → s.readFields (.relay i) = some [
      .bytes ([u8 x.tag, u8 x.target.val, x.state.code] ++ present (x.result.map fun r => u8 r.length :: r)),
      .time x.completion]) ∧
    (∀ i, let r := s.monitorRecord i
      let e := s.monitor i
      ∃ value clock : List Byte, value.length = 2 ∧ clock.length = 4 ∧ (∀ v, r.lastValue = some v → value = i16 v) ∧
        (∀ c, r.judgedAt = some c → clock = u32 c) ∧
        s.readFields (.monitorState i) = some [.bytes ([flag r.tripped, tripCauseCode r.cause] ++ value ++ clock ++
          i16 (e.levels.read e.select))]) ∧
    (∀ i, s.readFields (.markerState i) = some [.bytes [flag (s.markers.spent.read i),
      flag (decide (s.markers.latest = some i))]]) ∧
    (∀ p r, s.level.latest = some r → s.readFields (.cycleResult p) = some [
      .bytes (u32 r.cycleNumber), .time (some r.time),
      .bytes ([r.stepMode.code, u8 r.n] ++ signed r.hRef ++ signed r.bottom ++ signed r.previousHRef ++ u32 r.spread ++
        u16 r.sReq ++ u32 r.remainder ++ signed r.aFill ++ signed r.aSet ++ [u8 r.s, r.binding.code]),
      .bytes (((List.zip (r.errors.drop p.val) (r.demands.drop p.val)).take 27).map fun x =>
        u8 x.1.slot.val :: (i32 x.1.error ++ u16 x.2.demand)).flatten]) ∧
    (∀ i, s.readFields (.agentCounters i) = some [.bytes (u8 (s.agents.counters.read i) ::
      u16 (s.agents.drops.read i))])) ∧
  CodesInOrder

/-- WRITE of an edit that its checks pass: BUSY while a commit is pending; otherwise an edit for the same table and index
is replaced in its place, a new one joins at the end while fewer than 32 are staged, and a new one beyond that is FULL.
The OK reply carries the count after the write.
The bytes that are an edit, table by table (SpelledBy, Safety.lean): the table's code 0 to 6, an index within its range, and every field of the
entry at its size, in its order and within its range, JACK-only fields for a JACK alone, the argument of a marker's action,
low not above high, no value for rate_req. Every other argument is MALFORMED and changes nothing else. That the unnamed bits
of a DESCRIPTOR's flags byte are ignored is the model's reading (notes/assumptions/25.md), that 1 is yes in a yes/no byte its
choice (notes/assumptions/41.md). The clear of CONSOLE_SILENT comes before the command (notes/assumptions/39.md). -/
def Obligations.WriteStages : Prop :=
  (∀ (s : State) (seq : Byte) (args : List Byte), s.running = true → (∀ e : Edit, ¬ e.SpelledBy args) →
    exec (.write seq args) s = .next (s.silenceReset.withConsole
      (s.silenceReset.answered (.reply seq 0x03 .malformed [])))) ∧
  (∀ (s : State) (seq : Byte) (args : List Byte) (e : Edit), s.running = true → e.SpelledBy args →
    let u := s.silenceReset
    ∃ t, exec (.write seq args) s = .next t ∧ t = (u.withCommand t.command).withConsole t.console ∧
      t.command = { u.command with staged := t.command.staged } ∧
      (u.command.commitPending = true → t.command = u.command ∧
        t.console = u.answered (.reply seq 0x03 .busy [])) ∧
      (u.command.commitPending = false → (∃ x ∈ u.command.staged, x.key = e.key) →
        t.command.staged = u.command.staged.map (fun x => if x.key = e.key then e else x) ∧
        t.console = u.answered (.reply seq 0x03 .ok [.bytes [u8 u.command.staged.length]])) ∧
      (u.command.commitPending = false → (∀ x ∈ u.command.staged, x.key ≠ e.key) → u.command.staged.length < 32 →
        t.command.staged = u.command.staged ++ [e] ∧
        t.console = u.answered (.reply seq 0x03 .ok [.bytes [u8 (u.command.staged.length + 1)]])) ∧
      (u.command.commitPending = false → (∀ x ∈ u.command.staged, x.key ≠ e.key) → 32 ≤ u.command.staged.length →
        t.command = u.command ∧ t.console = u.answered (.reply seq 0x03 .full [])))

/-- DISCARD: BUSY while a commit is pending; otherwise the staged list is emptied and the reply carries how many edits
were dropped. Nothing else changes. -/
def Obligations.DiscardEmpties : Prop :=
  ∀ (s : State) (seq : Byte), s.running = true → let u := s.silenceReset
    ∃ t, exec (.discard seq []) s = .next t ∧ t = (u.withCommand t.command).withConsole t.console ∧
      (u.command.commitPending = true → t.command = u.command ∧
        t.console = u.answered (.reply seq 0x04 .busy [])) ∧
      (u.command.commitPending = false → t.command = { u.command with staged := [] } ∧
        t.console = u.answered (.reply seq 0x04 .ok [.bytes [u8 u.command.staged.length]]))

/-- COMMIT is BUSY while one is pending. Otherwise the first check that fails refuses it and names a table and an index,
with nothing else changed: CONFLICT and the lowest slot whose address equals that of a lower enabled slot; INVALID and the
lowest descriptor that does not name an enabled segment and an enabled OUTLET slot; INVALID and the first parameter of the
first relation that fails; in CLIMB, TRIM and HOLD, NOT_NOW and the lowest slot whose enabled JACK an edit re-addresses.
With no check failing commit-pending is set with the sequence number, and the reply is OK with the staged count.
At the sweep-complete event the pending commit is applied: every staged edit is in its table and no other entry changes,
rate_req is lowered to rate_max; node records, expectations and the reply list follow the change of each slot, a slot
disabled or re-initialised having no poll due; the sources
of the node, short and monitor conditions stand as the new tables say; the due time is counted afresh where a period
changed; a segment newly enabled or resized starts at its start top, claims stay the feed's; monitors start afresh, end or
trip on their sensors; written markers are ARMED, written agents count from 0; queued relays to a slot now disabled, or
now a jack in CLIMB or TRIM, fail; the staged list is empty and COMMIT_DONE is added. The feed acts in between
(FeedArrivals). The order of the blocks is the model's (notes/assumptions/35.md). With none pending nothing happens. -/
def Obligations.CommitIsTakenOrNamesAConflict : Prop :=
  (∀ (s : State) (seq : Byte), s.running = true → let u := s.silenceReset
     let p := u.prospective
     let shared (i : Slot) := (p.node i).enabled = true ∧ ∃ j : Slot, j < i ∧ (p.node j).enabled = true ∧
       (p.node j).address = (p.node i).address
     let bad (d : DescriptorIx) := (p.descriptor d).enabled = true ∧
       ¬ ((p.segment (p.descriptor d).segment).enabled = true ∧ (p.node (p.descriptor d).outlet).enabled = true ∧
         (p.node (p.descriptor d).outlet).kind = .outlet)
     let related := p.params.trimExit < p.params.trimBand ∧ p.params.trimBand < p.params.haltBand ∧
       p.params.strokeMs < p.params.cycleMs ∧ p.params.freeboard ≤ p.params.maxVoid
     let moves (i : Slot) := (u.mode = .climb ∨ u.mode = .trim ∨ u.mode = .hold) ∧ ∃ e : NodeEntry,
       .node i e ∈ u.command.staged ∧ (u.node i).enabled = true ∧ (u.node i).kind = .jack ∧ e.enabled = true ∧
         ¬ (e.kind = (u.node i).kind ∧ e.address = (u.node i).address)
     let refused (o : OutcomeCode) (table index : Byte) :=
       exec (.commit seq []) s = .next (u.withConsole (u.answered (.reply seq 0x05 o [.bytes [table, index]])))
     (u.command.commitPending = true →
       exec (.commit seq []) s = .next (u.withConsole (u.answered (.reply seq 0x05 .busy [])))) ∧
     (u.command.commitPending = false →
       (∀ i, shared i → (∀ j, j < i → ¬ shared j) → refused .conflict 0 (u8 i.val)) ∧
       ((∀ i, ¬ shared i) →
         (∀ d, bad d → (∀ e, e < d → ¬ bad e) → refused .invalid 2 (u8 d.val)) ∧
         ((∀ d, ¬ bad d) →
           (¬ p.params.trimExit < p.params.trimBand → refused .invalid 6 13) ∧
           (p.params.trimExit < p.params.trimBand → ¬ p.params.trimBand < p.params.haltBand → refused .invalid 6 12) ∧
           (p.params.trimExit < p.params.trimBand → p.params.trimBand < p.params.haltBand →
             ¬ p.params.strokeMs < p.params.cycleMs → refused .invalid 6 1) ∧
           (p.params.trimExit < p.params.trimBand → p.params.trimBand < p.params.haltBand →
             p.params.strokeMs < p.params.cycleMs → ¬ p.params.freeboard ≤ p.params.maxVoid →
             refused .invalid 6 21) ∧
           (related →
             (∀ i, moves i → (∀ j, j < i → ¬ moves j) → refused .notNow 0 (u8 i.val)) ∧
             ((∀ i, ¬ moves i) →
               ∃ t, exec (.commit seq []) s = .next t ∧ t = (u.withCommand t.command).withConsole t.console ∧
                 t.command = { u.command with commitPending := true, commitSeq := some seq } ∧
                 t.console = u.answered (.reply seq 0x05 .ok [.bytes [u8 u.command.staged.length]]))))))) ∧
  (∀ s : State, s.command.commitPending = false → s.commitAtComplete = s) ∧
  (∀ (s : State) (seq : Byte), s.command.commitPending = true → s.command.commitSeq = some seq → s.StagedInv →
    let t := s.commitAtComplete
    let edits := s.command.staged
    ((∀ i e, .node i e ∈ edits → t.node i = e) ∧ (∀ i, (∀ e, .node i e ∉ edits) → t.node i = s.node i) ∧
      (∀ i e, .segment i e ∈ edits → t.segment i = e) ∧ (∀ i, (∀ e, .segment i e ∉ edits) → t.segment i = s.segment i) ∧
      (∀ i e, .descriptor i e ∈ edits → t.descriptor i = e) ∧
      (∀ i, (∀ e, .descriptor i e ∉ edits) → t.descriptor i = s.descriptor i) ∧
      (∀ i e, .monitor i e ∈ edits → t.monitor i = e) ∧ (∀ i, (∀ e, .monitor i e ∉ edits) → t.monitor i = s.monitor i) ∧
      (∀ i e, .marker i e ∈ edits → t.marker i = e ∧ t.markers.spent.read i = false) ∧
      (∀ i, (∀ e, .marker i e ∉ edits) → t.marker i = s.marker i ∧ t.markers.spent.read i = s.markers.spent.read i) ∧
      (∀ i e, .agent i e ∈ edits → t.agents.entries.read i = e ∧ t.agents.counters.read i = 0) ∧
      (∀ i, (∀ e, .agent i e ∉ edits) → t.agents.entries.read i = s.agents.entries.read i ∧
        t.agents.counters.read i = s.agents.counters.read i) ∧
      (∀ (i : ParamIx) v, i ≠ 11 → .parameter i v ∈ edits → t.params.value i = v) ∧
      (∀ i : ParamIx, i ≠ 11 → (∀ v, .parameter i v ∉ edits) → t.params.value i = s.params.value i) ∧
      ((∀ v, .parameter 11 v ∉ edits) → t.params.rateReq = min s.params.rateReq t.params.rateMax)) ∧
    (∀ i, let old := s.node i
      let new := t.node i
      let gone := old.enabled = true ∧ new.enabled = false
      let fresh := new.enabled = true ∧ (old.enabled = false ∨ old.address ≠ new.address ∨ old.kind ≠ new.kind)
      (gone → t.record i = NodeRecord.disabledForm) ∧
      (fresh → t.record i = { NodeRecord.disabledForm with state := .active }) ∧
      (gone ∨ fresh → t.expectation i = none ∧ i ∉ t.sweep.replies) ∧
      (¬ (gone ∨ fresh) → t.record i = { s.record i with pollDue := (t.record i).pollDue } ∧
        t.expectation i = s.expectation i ∧ (i ∈ t.sweep.replies ↔ i ∈ s.sweep.replies))) ∧
    (t.sweep = { s.sweep with dueAt := t.sweep.dueAt, replies := t.sweep.replies } ∧
      t.sweep.replies.Sublist s.sweep.replies ∧
      (t.params.cycleMs = s.params.cycleMs → t.params.idleMs = s.params.idleMs → t.sweep.dueAt = s.sweep.dueAt) ∧
      (∀ start, t.params.cycleMs ≠ s.params.cycleMs ∨ t.params.idleMs ≠ s.params.idleMs →
        s.sweep.startedAt = some start → t.sweep.dueAt = max s.now (start +
          if s.mode = .idle ∨ s.mode = .halt then t.params.idleMs else t.params.cycleMs))) ∧
    (∀ k, let old := s.segment k
      let new := t.segment k
      let resets := new.enabled = true ∧ (old.enabled = false ∨ old.area ≠ new.area ∨ old.startTop ≠ new.startTop)
      (resets → t.wall k = { top := new.startTop, base := new.startTop, remainder := 0, placedTotal := 0,
                             claim := (t.wall k).claim, queue := [] }) ∧
      (¬ resets → t.wall k = { s.wall k with claim := (t.wall k).claim })) ∧
    (∀ m, let old := s.monitor m
      let new := t.monitor m
      let r := if old.enabled = false ∧ new.enabled = true then MonitorRecord.initial
        else if old.enabled = true ∧ new.enabled = false then { s.monitorRecord m with tripped := false, cause := none }
        else s.monitorRecord m
      let absent := (t.node new.sensor).enabled = false ∨ (t.node new.sensor).kind ≠ .sensor ∨
        (t.record new.sensor).state = .disabled
      (new.enabled = false → t.monitorRecord m = r) ∧
      (new.enabled = true → absent → t.monitorRecord m = { r with tripped := true, cause := some .sensorAbsent }) ∧
      (new.enabled = true → ¬ absent → t.monitorRecord m = (match (t.record new.sensor).state with
        | .lost => { r with tripped := true, cause := some .sensorLost }
        | .faulted => { r with tripped := true, cause := some .sensorFaulted }
        | _ => r))) ∧
    (((t.condition .jackLost).source = true ↔ ∃ i, (t.node i).enabled = true ∧ (t.node i).kind = .jack ∧
        ((t.record i).state = .lost ∨ (t.record i).state = .faulted)) ∧
      ((t.condition .nodeLost).source = true ↔ ∃ i, (t.node i).enabled = true ∧ (t.node i).kind ≠ .jack ∧
        (t.record i).state = .lost) ∧
      ((t.condition .jackShort).source = true ↔ ∃ i, (t.node i).enabled = true ∧ (t.node i).kind = .jack ∧
        t.params.shortLimit ≤ (t.record i).shortCounter) ∧
      ((t.condition .monitorHold).source = true ↔
        ∃ m, (t.monitor m).enabled = true ∧ (t.monitor m).cls = .hold ∧ (t.monitorRecord m).tripped = true) ∧
      ((t.condition .monitorNote).source = true ↔
        ∃ m, (t.monitor m).enabled = true ∧ (t.monitor m).cls = .note ∧ (t.monitorRecord m).tripped = true) ∧
      (∀ c : Cond, c ∉ [Cond.jackLost, .nodeLost, .jackShort, .feedJam, .monitorHold, .monitorNote] →
        t.condition c = s.condition c) ∧ t.conditions.masked = s.conditions.masked) ∧
    (let u := ((((s.prospective.commitRecords s.nodes).evaluateNodes).evaluateShort).commitDue s.params).commitWalls
       s.segments
     t.feed = (u.commitFeed s.nodes s.segments).feed ∧ t.free = s.free + 1) ∧
    (∀ i, (s.relaySlot i = none → t.relaySlot i = none) ∧ (∀ x, s.relaySlot i = some x →
      let y := t.node x.target
      let fails := x.state = .queued ∧ (y.enabled = false ∨ ((t.mode = .climb ∨ t.mode = .trim) ∧
        (y.enabled = true ∧ y.kind = .jack) ∧ ¬ ((s.node x.target).enabled = true ∧ (s.node x.target).kind = .jack)))
      (fails → t.relaySlot i = some { x with state := .failed, completion := some s.now, result := none }) ∧
      (¬ fails → t.relaySlot i = some x))) ∧
    (t.command = { s.command with staged := [], commitPending := false, commitSeq := none } ∧
      t.console = s.answered (.commitDone seq edits.length ((s.level.cycleNumber + 1) % 4294967296)) ∧
      t.agents.drops = s.agents.drops ∧ t.markers.latest = s.markers.latest ∧ t.relays.discards = s.relays.discards ∧
      t.power = s.power ∧ t.now = s.now ∧ t.pending = s.pending ∧ t.ring = s.ring ∧ t.dispatch = s.dispatch ∧
      t.level = s.level ∧ t.pourClock = s.pourClock ∧ t.placementSeen = s.placementSeen ∧ t.jobs = s.jobs))

/-- START in IDLE with every HALT-class condition IDLE, enough enabled JACK slots, an enabled segment and no pending
commit that changes the kind or address of an enabled JACK slot: the mode becomes CLIMB, or HOLD while a HOLD-class condition is not IDLE, the reply is
OK, and with no sweep running a sweep is due at once. The change is handed to the blocks that act on it; the due time that
START sets is not counted afresh for it (notes/assumptions/12.md). The clear of CONSOLE_SILENT comes before the command
(notes/assumptions/39.md). -/
def Obligations.StartEntersClimbOrHold : Prop :=
  ∀ (s : State) (seq : Byte), s.running = true → let u := s.silenceReset
    u.mode = .idle → (∀ c : Cond, c.cls = .halt → (u.condition c).state = .idle) →
    u.params.minJacks ≤ allSlots.countP u.isJack → (∃ k, (u.segment k).enabled = true) →
    (u.command.commitPending = true → ∀ (i : Slot) (e : NodeEntry), .node i e ∈ u.command.staged →
      (u.node i).enabled = true → (u.node i).kind = .jack → e.kind = .jack ∧ e.address = (u.node i).address) →
    ∃ t, exec (.start seq []) s = .next t ∧
      t = (((u.withMode t.mode).withTransit t.transit).withSweep t.sweep).withConsole t.console ∧
      ((∀ c : Cond, c.cls = .hold → (u.condition c).state = .idle) → t.mode = .climb) ∧
      ((∃ c : Cond, c.cls = .hold ∧ (u.condition c).state ≠ .idle) → t.mode = .hold) ∧
      t.sweep = { u.sweep with dueAt := if u.sweep.running then u.sweep.dueAt else u.now } ∧
      (let m : ModeChange := { old := .idle, new := t.mode, moment := u.now }
       t.transit = { u.transit with
         sweepModes := if u.sweep.running then u.transit.sweepModes ++ [m] else []
         dispatchModes := u.transit.dispatchModes ++ [m], rateModes := u.transit.rateModes ++ [m]
         feedModes := u.transit.feedModes ++ [m], silenceModes := u.transit.silenceModes ++ [m]
         relayModes := u.transit.relayModes ++ [m] }) ∧
      t.console = u.answered (.reply seq 0x06 .ok [])

/-- START that changes no mode: NOT_NOW in HALT, OK in CLIMB, TRIM and HOLD, NOT_READY in IDLE while a HALT-class condition
is not IDLE, while fewer than min_jacks JACK slots or no segment are enabled, and while a pending commit changes the kind
or address of an enabled JACK slot, be it also to disable it. With no sweep running a sweep is due at once all the same, and a change of mode that
was on its way to the due time has no further effect on it (notes/assumptions/12.md); every other hand-off stays. The clear
of CONSOLE_SILENT comes before the command (notes/assumptions/39.md). -/
def Obligations.StartWithoutAChange : Prop :=
  ∀ (s : State) (seq : Byte), s.running = true → let u := s.silenceReset
    (u.mode = .idle → (∃ c : Cond, c.cls = .halt ∧ (u.condition c).state ≠ .idle) ∨
      allSlots.countP u.isJack < u.params.minJacks ∨ (∀ k, (u.segment k).enabled = false) ∨
      (u.command.commitPending = true ∧ ∃ (i : Slot) (e : NodeEntry), .node i e ∈ u.command.staged ∧
        (u.node i).enabled = true ∧ (u.node i).kind = .jack ∧
        ¬ (e.kind = .jack ∧ e.address = (u.node i).address))) →
    ∃ t, exec (.start seq []) s = .next t ∧
      t = ((u.withSweep t.sweep).withTransit t.transit).withConsole t.console ∧ t.mode = u.mode ∧
      t.sweep = { u.sweep with dueAt := if u.sweep.running then u.sweep.dueAt else u.now } ∧
      t.transit = { u.transit with sweepModes := if u.sweep.running then u.transit.sweepModes else [] } ∧
      t.console = u.answered (.reply seq 0x06
        (match u.mode with
          | .halt => .notNow
          | .idle => .notReady
          | .climb => .ok
          | .trim => .ok
          | .hold => .ok) [])

/-- STOP: the mode becomes IDLE from every mode with reply OK; no condition, channel, dispatch or window changes. A change
is handed to each of the six blocks that act on it. The clear of CONSOLE_SILENT comes before the command
(notes/assumptions/39.md). -/
def Obligations.StopEntersIdle : Prop :=
  ∀ (s : State) (seq : Byte), s.running = true → let u := s.silenceReset
    ∃ t, exec (.stop seq []) s = .next t ∧
      t = ((u.withMode .idle).withTransit t.transit).withConsole t.console ∧
      (u.mode = .idle → t.transit = u.transit) ∧
      (u.mode ≠ .idle → let m : ModeChange := { old := u.mode, new := .idle, moment := u.now }
        t.transit = { u.transit with
          sweepModes := u.transit.sweepModes ++ [m], dispatchModes := u.transit.dispatchModes ++ [m],
          rateModes := u.transit.rateModes ++ [m], feedModes := u.transit.feedModes ++ [m],
          silenceModes := u.transit.silenceModes ++ [m], relayModes := u.transit.relayModes ++ [m] }) ∧
      t.console = u.answered (.reply seq 0x07 .ok [])

/-- The HOLD command: with MANUAL_HOLD's source inactive it is raised, its count rises, and CLIMB or TRIM becomes HOLD if
it leaves IDLE; with the source active nothing changes. The reply is OK.
RELEASE: MANUAL_HOLD's source becomes inactive and its state IDLE from every state, count and detail kept; when the
mode is HOLD, MANUAL_HOLD was not IDLE and every HOLD-class and HALT-class condition is then IDLE, the hold ends in CLIMB,
or in TRIM when the spread of the latest result is above trim_band. A change of mode is handed to the six blocks that act
on it, and else nothing is handed. The reply is OK. The clear of CONSOLE_SILENT comes before the command
(notes/assumptions/39.md). -/
def Obligations.HoldAndRelease : Prop :=
  (∀ (s : State) (seq : Byte), s.running = true → let u := s.silenceReset
     ∃ t, exec (.hold seq []) s = .next t ∧
       t = (((u.withConditions t.conditions).withMode t.mode).withTransit t.transit).withConsole t.console ∧
       t.console = u.answered (.reply seq 0x08 .ok []) ∧
       ((u.condition .manualHold).source = true → t.conditions = u.conditions ∧ t.mode = u.mode ∧
         t.transit = u.transit) ∧
       ((u.condition .manualHold).source = false →
         t.condition .manualHold = { u.condition .manualHold with
           state := .raised, source := true, count := min 255 ((u.condition .manualHold).count + 1) } ∧
         (∀ c : Cond, c ≠ .manualHold → t.condition c = u.condition c) ∧
         t.conditions.masked = u.conditions.masked ∧
         (let holds := (u.condition .manualHold).state = .idle ∧ (u.mode = .climb ∨ u.mode = .trim)
          (holds → t.mode = .hold ∧ t.transit = u.transit.handed { old := u.mode, new := .hold, moment := u.now }) ∧
          (¬ holds → t.mode = u.mode ∧ t.transit = u.transit)))) ∧
  (∀ (s : State) (seq : Byte), s.running = true → let u := s.silenceReset
     ∃ t, exec (.release seq []) s = .next t ∧
       t = (((u.withConditions t.conditions).withMode t.mode).withTransit t.transit).withConsole t.console ∧
       t.console = u.answered (.reply seq 0x09 .ok []) ∧
       t.condition .manualHold = { u.condition .manualHold with state := .idle, source := false } ∧
       (∀ c : Cond, c ≠ .manualHold → t.condition c = u.condition c) ∧ t.conditions.masked = u.conditions.masked ∧
       ((u.condition .manualHold).state ≠ .idle → u.mode = .hold →
         (∀ c : Cond, c.cls = .hold ∨ c.cls = .halt → c ≠ .manualHold → (u.condition c).state = .idle) →
         t.mode = (match u.level.latest with
           | some r => if r.spread ≤ u.params.trimBand then .climb else .trim
           | none => .climb) ∧
         t.transit = u.transit.handed { old := .hold, new := t.mode, moment := u.now }) ∧
       ((u.condition .manualHold).state = .idle ∨ u.mode ≠ .hold ∨
         (∃ c : Cond, (c.cls = .hold ∨ c.cls = .halt) ∧ c ≠ .manualHold ∧ (u.condition c).state ≠ .idle) →
         t.mode = u.mode ∧ t.transit = u.transit))

/-- SET RATE: rate_req becomes the smaller of the rate given and rate_max, and the reply carries it. SET USER replaces the
four user words together with reply OK. Nothing else changes. -/
def Obligations.SetRateAndSetUser : Prop :=
  (∀ (s : State) (seq : Byte) (rate : Nat), s.running = true → rate < 65536 → let u := s.silenceReset
     let v := min rate u.params.rateMax
     ∃ t, exec (.setRate seq (u16 rate)) s = .next t ∧ t = (u.withParams t.params).withConsole t.console ∧
       t.params.rateReq = v ∧ (∀ i : ParamIx, i ≠ 11 → t.params.value i = u.params.value i) ∧
       t.console = u.answered (.reply seq 0x0A .ok [.bytes [u8 (v / 256), u8 v]])) ∧
  (∀ (s : State) (seq a b c d e f g h : Byte), s.running = true → let u := s.silenceReset
     ∃ t, exec (.setUser seq [a, b, c, d, e, f, g, h]) s = .next t ∧
       t = (u.withCommand t.command).withConsole t.console ∧
       t.command = { u.command with user :=
         { w0 := a.toNat * 256 + b.toNat, w1 := c.toNat * 256 + d.toNat, w2 := e.toNat * 256 + f.toNat,
           w3 := g.toNat * 256 + h.toNat } } ∧
       t.console = u.answered (.reply seq 0x12 .ok []))

/-- ACK: NO_SUCH with number and count for an IDLE condition; otherwise RAISED becomes STANDING, STANDING stays, UNCLEARED
becomes IDLE, with the number, the new state and the count in an OK reply. Source, detail, count and the other conditions
stay. The mode changes only when an UNCLEARED HOLD-class condition returns to IDLE in HOLD and was the last: while another
HOLD-class or HALT-class condition is not IDLE the mode stays HOLD; with none, the hold ends in CLIMB, or in TRIM when the
spread of the latest result is above trim_band, and the change is handed to the six blocks that act on it. The clear of
CONSOLE_SILENT comes before the command (notes/assumptions/39.md). -/
def Obligations.AckAcknowledges : Prop :=
  ∀ (s : State) (seq : Byte) (c : Cond), s.running = true → let u := s.silenceReset
    let r := u.condition c
    let others := ∀ d : Cond, d ≠ c → d.cls = .hold ∨ d.cls = .halt → (u.condition d).state = .idle
    ∃ t, exec (.ack seq [u8 c.num.val]) s = .next t ∧
      t = (((u.withConditions t.conditions).withMode t.mode).withTransit t.transit).withConsole t.console ∧
      (r.state = .idle → t.conditions = u.conditions ∧ t.mode = u.mode ∧ t.transit = u.transit ∧
        t.console = u.answered (.reply seq 0x0B .noSuch [.bytes [u8 c.num.val, u8 r.count]])) ∧
      (r.state ≠ .idle →
        t.condition c = { r with state := match r.state with
          | .idle => .idle
          | .raised => .standing
          | .standing => .standing
          | .uncleared => .idle } ∧
        (∀ d : Cond, d ≠ c → t.condition d = u.condition d) ∧ t.conditions.masked = u.conditions.masked ∧
        (u.mode ≠ .hold ∨ c.cls ≠ .hold ∨ r.state ≠ .uncleared → t.mode = u.mode ∧ t.transit = u.transit) ∧
        (u.mode = .hold → c.cls = .hold → r.state = .uncleared → ¬ others → t.mode = .hold ∧ t.transit = u.transit) ∧
        (u.mode = .hold → c.cls = .hold → r.state = .uncleared → others →
          t.mode = (match u.level.latest with
            | some x => if x.spread ≤ u.params.trimBand then .climb else .trim
            | none => .climb) ∧
          t.transit = u.transit.handed { old := .hold, new := t.mode, moment := u.now }) ∧
        t.console = u.answered (.reply seq 0x0B .ok [.bytes [u8 c.num.val, (t.condition c).state.code, u8 r.count]]))

/-- POLL CONDITION answers OK with number, class, kind, state, detail and count of the top condition, the lowest-numbered
that is not IDLE and unmasked, or with 255 for none (that none is one byte is the model's reading,
notes/assumptions/18.md). MASK replaces the whole mask: bit n of the set masks condition n, a clear bit unmasks it; the
reply carries the top condition after the write, and the records and the mode stay. The clear of CONSOLE_SILENT comes before
the command (notes/assumptions/39.md). -/
def Obligations.PollAndMask : Prop :=
  (∀ (s : State) (seq : Byte), s.running = true → let u := s.silenceReset
     (∀ c : Cond, (u.condition c).state ≠ .idle → u.isMasked c = false →
       (∀ d : Cond, d.num < c.num → (u.condition d).state = .idle ∨ u.isMasked d = true) →
       exec (.pollCondition seq []) s = .next (u.withConsole (u.answered (.reply seq 0x0C .ok
           [.bytes [u8 c.num.val, c.cls.code, c.kind.code, (u.condition c).state.code,
             u8 ((u.condition c).detail.getD 255), u8 (u.condition c).count]])))) ∧
     ((∀ d : Cond, (u.condition d).state = .idle ∨ u.isMasked d = true) →
       exec (.pollCondition seq []) s = .next (u.withConsole (u.answered (.reply seq 0x0C .ok [.bytes [255]]))))) ∧
  (∀ (s : State) (seq b2 b1 b0 : Byte), s.running = true → b2.toNat ≤ 3 → let u := s.silenceReset
     ∃ t, exec (.mask seq [b2, b1, b0]) s = .next t ∧
       t = (u.withConditions t.conditions).withConsole t.console ∧ t.conditions.records = u.conditions.records ∧
       (∀ c : Cond, t.isMasked c =
         (b2.toNat * 65536 + b1.toNat * 256 + b0.toNat).testBit c.num.val) ∧
       ∃ top, t.TopIs top ∧ t.console = u.answered (.reply seq 0x0D .ok [.bytes [match top with
           | some c => u8 c.num.val
           | none => 255]]))

/-! ## Feed, PLACE, RELAY, RESTART -/

/-- FEED START: NOT_NOW in HALT; BUSY while the channel waits, is open, closes or is paused; NO_SUCH for a descriptor that
is not enabled. Otherwise the channel loads the descriptor, its deferred list is emptied and it makes its open test: it
opens under the next tag with both claims and a waiting OPEN, or waits under the reason found; that delivered is 0 while it waits is the model's
choice (notes/assumptions/42.md). The polls of the outlet it claims are due `outlet_poll_ms` after the latest poll, OPEN or CLOSE exchange with the slot; that they count from this moment
where there has been none is the model's choice (notes/assumptions/21.md). FEED_JAM is evaluated. The clear of
CONSOLE_SILENT comes before the command (notes/assumptions/39.md). -/
def Obligations.FeedStartLoads : Prop :=
  ∀ (s : State) (seq : Byte) (c : Channel) (d : DescriptorIx), s.running = true → let u := s.silenceReset
    let cmd : Instr := .feedStart seq [channelCode c, u8 d.val]
    let e := u.descriptor d
    let w : WorkingCopy := { segment := e.segment, outlet := e.outlet, litres := e.litres }
    let busy := (u.channel c).state = .wait ∨ (u.channel c).state = .opened ∨ (u.channel c).state = .closing ∨
      (u.channel c).state = .paused
    (u.mode = .halt → exec cmd s = .next (u.withConsole (u.answered (.reply seq 0x0E .notNow [])))) ∧
    (u.mode ≠ .halt → busy → exec cmd s = .next (u.withConsole (u.answered (.reply seq 0x0E .busy [])))) ∧
    (u.mode ≠ .halt → ¬ busy → e.enabled = false →
      exec cmd s = .next (u.withConsole (u.answered (.reply seq 0x0E .noSuch [])))) ∧
    (u.mode ≠ .halt → ¬ busy → e.enabled = true →
      ∃ t, exec cmd s = .next t ∧
        t = ((((u.withFeed t.feed).withWalls t.walls).withRecords t.records).withConditions t.conditions).withConsole
          (u.answered (.reply seq 0x0E .ok [])) ∧
        (∀ x : Cond, x ≠ .feedJam → t.condition x = u.condition x) ∧ t.conditions.masked = u.conditions.masked ∧
        (t.condition .feedJam).source = (t.meetsJam .a || t.meetsJam .b) ∧
        t.channel (otherChannel c) = u.channel (otherChannel c) ∧
        (u.blockFor c w = .none → let tag := (u.feed.tagCounter + 1) % 256
          t.channel c = { u.channel c with
            state := .opened, current := some d, working := some w, delivered := 0, tag := tag, openConfirmed := false,
            closeCause := none, closeSent := false, void := false, blockReason := .none, blockedSince := none,
            blockTimer := none, dwellEndsAt := none, pause := none, deferred := [] } ∧
          t.feed.tagCounter = tag ∧
          t.feed.waiting = u.feed.waiting ++ [{
            isOpen := true, channel := c, slot := w.outlet, tag := tag, litres := w.litres, stray := false,
            since := u.now }] ∧
          t.outletClaim w.outlet = some c ∧ (∀ i, i ≠ w.outlet → t.outletClaim i = u.outletClaim i) ∧
          t.wall w.segment = { u.wall w.segment with claim := some c } ∧
          (∀ k, k ≠ w.segment → t.wall k = u.wall k) ∧
          t.record w.outlet = { u.record w.outlet with
            pollDue := some ((u.record w.outlet).lastExchangeEnd.getD u.now + u.params.outletPollMs) } ∧
          (∀ i, i ≠ w.outlet → t.record i = u.record i)) ∧
        (u.blockFor c w ≠ .none →
          t.channel c = { u.channel c with
            state := .wait, current := some d, working := some w, delivered := 0, closeCause := none,
            closeSent := false, void := false, blockReason := u.blockFor c w, blockedSince := some u.now,
            blockTimer := some (u.now + u.params.blockS * 1000), dwellEndsAt := none, pause := none, deferred := [] } ∧
          t.feed = u.feed.setChannel c (t.channel c) ∧ t.walls = u.walls ∧ t.records = u.records))

/-- FEED STOP: an open channel asks for CLOSE with cause STOP, sent now if its OPEN is confirmed; a closing channel takes
the cause STOP; a waiting or paused one stops with its block or pause forgotten; the others stay. The reply is OK; the
other channel and the claims stay, and FEED_JAM is evaluated. The clear of CONSOLE_SILENT comes before the command
(notes/assumptions/39.md). -/
def Obligations.FeedStopStops : Prop :=
  ∀ (s : State) (seq : Byte) (c : Channel), s.running = true → let u := s.silenceReset
    let x := u.channel c
    ∃ t, exec (.feedStop seq [channelCode c]) s = .next t ∧
      t = ((u.withFeed t.feed).withConditions t.conditions).withConsole (u.answered (.reply seq 0x0F .ok [])) ∧
      (∀ y : Cond, y ≠ .feedJam → t.condition y = u.condition y) ∧ t.conditions.masked = u.conditions.masked ∧
      (t.condition .feedJam).source = (t.meetsJam .a || t.meetsJam .b) ∧
      (∀ w, x.state = .opened → x.working = some w →
        t.feed = { u.feed.setChannel c { x with
            state := .closing, closeCause := some .stop, closeSent := x.openConfirmed } with
          waiting := u.feed.waiting ++ (if x.openConfirmed then
            [{ isOpen := false, channel := c, slot := w.outlet, tag := x.tag, litres := 0, stray := false,
               since := u.now }] else []) }) ∧
      (x.state = .closing → t.feed = u.feed.setChannel c { x with closeCause := some .stop }) ∧
      (x.state = .wait → t.feed = u.feed.setChannel c { x with
        state := .stopped, blockReason := .none, blockedSince := none, blockTimer := none }) ∧
      (x.state = .paused → t.feed = u.feed.setChannel c { x with state := .stopped, pause := none }) ∧
      (x.state = .idle ∨ x.state = .done ∨ x.state = .stopped → t.feed = u.feed)

/-- PLACE into an enabled segment: the litres times 100,000 plus the remainder are divided by the area into the height
gained, cut at 16,777,215, and the new remainder; placed_total counts the litres. A height gained makes a youngest record,
or is merged into it while the queue is full, with source MANUAL. The record's bottom, the top of the record before it or
the base, is held against B of the cycle result that has reached the Placement Store (notes/assumptions/11.md): a record
unset, not flagged before, whose bottom lies below B is flagged and raises GREEN_EXIT once. The reply is OK with top,
remainder and queue length; channels that do not work on the segment stay. A segment that is not enabled is NO_SUCH.
A placement of a channel or of PLACE, with both channels at work: it is taken (Places), then each channel whose working copy
is in the segment acts, one after the other in an order that is free (notes/assumptions/5.md): a waiting one makes its open
test, an open one that did not make the placement its FULL test (FeedArrivals says what they do). A release of a channel's
claims ends those it holds and the polls of its outlet, and the other channel, if it waits, makes its open test: it opens if
nothing blocks it now. The clear of CONSOLE_SILENT comes
before the command (notes/assumptions/39.md). -/
def Obligations.PlaceTurnsLitresIntoHeight : Prop :=
  (∀ (s : State) (seq : Byte) (k : SegmentIx) (v : Nat), s.running = true → let u := s.silenceReset
    let cmd : Instr := .place seq (u8 k.val :: u16 v)
    let w := u.wall k
    let num := v * 100000 + w.remainder
    let area := (u.segment k).area
    let gain := min (num / area) (16777215 - w.top)
    let below (bottom : Nat) : Bool := (match u.placementSeen.bind CycleResult.bottom with
      | some b => decide ((bottom : Int) < b)
      | none => false) && decide (0 < u.params.setAgeS)
    1 ≤ v → v ≤ 4000 →
    ((u.segment k).enabled = false →
      exec cmd s = .next (u.withConsole (u.answered (.reply seq 0x10 .noSuch [])))) ∧
    ((u.segment k).enabled = true → w.Form u.pourClock →
      ∃ t, exec cmd s = .next t ∧
        t = (((((((u.withFeed t.feed).withWalls t.walls).withRecords t.records).withConditions t.conditions).withMode
          t.mode).withTransit t.transit).withFree t.free).withConsole (u.answered (.reply seq 0x10 .ok
            [.bytes (u32 (t.wall k).top ++ u32 (t.wall k).remainder ++ [u8 (t.wall k).queue.length])])) ∧
        (t.wall k).remainder = num % area ∧ (t.wall k).placedTotal = min 4294967295 (w.placedTotal + v) ∧
        (t.wall k).top = w.top + gain ∧ (t.wall k).base = w.base ∧
        (gain = 0 → (t.wall k).queue = w.queue ∧ t.condition .greenExit = u.condition .greenExit) ∧
        (0 < gain → w.queue.length < 16 →
          let green := below w.top
          (t.wall k).queue = w.queue ++ [{
            top := w.top + gain, placedAt := u.pourClock, litres := v, source := .manual, descriptor := none,
            greenExited := green }] ∧
          (t.condition .greenExit).count =
            if green then min 255 ((u.condition .greenExit).count + 1) else (u.condition .greenExit).count) ∧
        (∀ l, 0 < gain → w.queue.length = 16 → w.queue.getLast? = some l →
          let green := below ((w.queue.dropLast.getLast?.map Layer.top).getD w.base)
          (t.wall k).queue = w.queue.dropLast ++ [{ l with
            top := w.top + gain, placedAt := u.pourClock, litres := min 4294967295 (l.litres + v), source := .manual,
            descriptor := none, greenExited := l.greenExited || green }] ∧
          (t.condition .greenExit).count =
            if green && !l.greenExited then min 255 ((u.condition .greenExit).count + 1)
            else (u.condition .greenExit).count) ∧
        (∀ j, j ≠ k → (t.wall j).top = (u.wall j).top ∧ (t.wall j).base = (u.wall j).base ∧
          (t.wall j).remainder = (u.wall j).remainder ∧ (t.wall j).placedTotal = (u.wall j).placedTotal ∧
          (t.wall j).queue = (u.wall j).queue) ∧
        ((∀ c y, (u.channel c).working = some y → y.segment ≠ k) →
          t.feed = u.feed ∧ t.records = u.records ∧ (t.wall k).claim = w.claim ∧
          (∀ j, j ≠ k → t.wall j = u.wall j) ∧
          (∀ x : Cond, x ≠ .greenExit → t.condition x = u.condition x)))) ∧
  (∀ (s : State) (seq : Byte) (k : SegmentIx) (v : Nat), s.running = true → 1 ≤ v → v ≤ 4000 →
    (s.segment k).enabled = true →
    let t := s.silenceReset.place k v .manual none none
    exec (.place seq (u8 k.val :: u16 v)) s = .next (t.withConsole (t.answered (.reply seq 0x10 .ok
      [.bytes (u32 (t.wall k).top ++ u32 (t.wall k).remainder ++ [u8 (t.wall k).queue.length])])))) ∧
  (∀ (s : State) (k : SegmentIx) (v : Nat) (source : LayerSource) (d : Option DescriptorIx) (maker : Option Channel),
    let acts (c : Channel) (u : State) : State := match (u.channel c).working, (u.channel c).state with
      | some y, .wait => if y.segment = k then u.openTest c else u
      | some y, .opened => if y.segment = k ∧ maker ≠ some c then u.fullTest c else u
      | _, _ => u
    ((s.segment k).enabled = false → s.place k v source d maker = s) ∧
    (0 < v → (s.segment k).enabled = true → (s.wall k).Form s.pourClock → ∃ u first, s.Places k v source d u ∧
      s.place k v source d maker = acts (otherChannel first) (acts first (u.withFree (s.free + 1))))) ∧
  (∀ (s : State) (c : Channel) (w : WorkingCopy), let o := otherChannel c
    let t := s.releaseClaims c w
    let held := s.outletClaim w.outlet = some c
    ∃ u : State, u = ((s.withFeed u.feed).withWalls u.walls).withRecords u.records ∧
      u.feed = { s.feed with outletClaims := u.feed.outletClaims } ∧
      (∀ k, u.wall k = if k = w.segment ∧ (s.wall k).claim = some c then { s.wall k with claim := none } else s.wall k) ∧
      (∀ i, u.outletClaim i = if i = w.outlet ∧ held then none else s.outletClaim i) ∧
      (∀ i, u.record i = if i = w.outlet ∧ held then { s.record i with pollDue := none } else s.record i) ∧
      t = u.openTest o ∧ ((s.channel o).state ≠ .wait → t = u) ∧
      (∀ y, (s.channel o).state = .wait → (s.channel o).working = some y → (s.channel o).void = false →
        u.blockFor o y = .none → u.Opens o (s.channel o) y t))

/-- RELAY for a tag that no slot carries: MALFORMED without payload, NO_SUCH for a target that is not enabled, NOT_NOW for
a jack in CLIMB or TRIM, FULL with no free slot; else the lowest free slot holds the request QUEUED and the reply OK
carries QUEUED and the slot. Nothing else changes. The clear of CONSOLE_SILENT comes before the command
(notes/assumptions/39.md). -/
def Obligations.RelayIsQueued : Prop :=
  ∀ (s : State) (seq tag : Byte) (target : Slot) (payload : List Byte), s.running = true → tag ≠ 0 →
    payload.length ≤ 64 → let u := s.silenceReset
    let cmd : Instr := .relay seq (tag :: u8 target.val :: payload)
    let answers (o : OutcomeCode) := exec cmd s = .next (u.withConsole (u.answered (.reply seq 0x11 o [])))
    let barred := (u.node target).kind = .jack ∧ (u.mode = .climb ∨ u.mode = .trim)
    (∀ i x, u.relaySlot i = some x → x.tag ≠ tag.toNat) →
    (payload = [] → answers .malformed) ∧
    (payload ≠ [] → (u.node target).enabled = false → answers .noSuch) ∧
    (payload ≠ [] → (u.node target).enabled = true → barred → answers .notNow) ∧
    (payload ≠ [] → (u.node target).enabled = true → ¬ barred → (∀ i, u.relaySlot i ≠ none) → answers .full) ∧
    (∀ i, payload ≠ [] → (u.node target).enabled = true → ¬ barred → u.relaySlot i = none →
      (∀ j, j < i → u.relaySlot j ≠ none) →
      ∃ t, exec cmd s = .next t ∧ t = (u.withRelays t.relays).withConsole
          (u.answered (.reply seq 0x11 .ok [.bytes [0, u8 i.val]])) ∧
        t.relaySlot i = some { tag := tag.toNat, target := target, payload := payload, state := .queued,
                               queuedAt := u.now, result := none, completion := none } ∧
        (∀ j, j ≠ i → t.relaySlot j = u.relaySlot j) ∧ t.relays.discards = u.relays.discards)

/-- RELAY for the tag of an occupied slot: PENDING while it is QUEUED or IN_FLIGHT; DONE is answered with its result and
FAILED without one, and the slot is freed. Nothing else changes. -/
def Obligations.RelayIsCollected : Prop :=
  ∀ (s : State) (seq tag : Byte) (target : Slot) (payload : List Byte) (i : RelayIx) (x : RelaySlot),
    s.running = true → tag ≠ 0 → payload.length ≤ 64 → let u := s.silenceReset
    let cmd : Instr := .relay seq (tag :: u8 target.val :: payload)
    u.relaySlot i = some x → x.tag = tag.toNat → (∀ j y, u.relaySlot j = some y → y.tag = x.tag → j = i) →
    (x.state = .queued ∨ x.state = .inFlight →
      exec cmd s = .next (u.withConsole (u.answered (.reply seq 0x11 .pending [])))) ∧
    (x.state = .done ∨ x.state = .failed →
      ∃ t, exec cmd s = .next t ∧ t = (u.withRelays t.relays).withConsole (u.answered (.reply seq 0x11 .ok
          [.bytes (if x.state = .done then 2 :: u8 (x.result.getD []).length :: x.result.getD [] else [3])])) ∧
        t.relaySlot i = none ∧ (∀ j, j ≠ i → t.relaySlot j = u.relaySlot j) ∧
        t.relays.discards = u.relays.discards)

/-- RESTART: the tables, the parameters, the user words, the pour clock, the monitor records and the tag counter are kept.
Every live part that RESTART resets takes its value, the feed note, the forward budget and the silence timer among them.
The exchange on the ring and the frame on the console line go on (a BEACON frame no longer ends the start flag,
notes/assumptions/32.md), a stroke window runs on, and the OK reply is the only record of the emptied queue. The hand-offs
under way are dropped, but a cycle result under way to the Placement Store still retires there (notes/assumptions/10.md).
Every channel is IDLE with its tag kept, open confirmed no (notes/assumptions/34.md) and no claim. Its waiting exchanges
are withdrawn, strays stay (notes/assumptions/31.md), and for an opening under way, channel A's before B's, a CLOSE that
belongs to no channel is queued. Its delivered litres are placed in an enabled segment (Places, Safety.lean), channel A's
before B's, also into one segment, a placement that meets 16 records merging into the youngest; the record made is checked
against the result that had reached the Placement Store (notes/assumptions/7.md); without litres delivered no placement is
made. -/
def Obligations.RestartKeepsAndResets : Prop :=
  ∀ (s : State) (seq : Byte), s.running = true →
    let closes (c : Channel) : List FeedExchange := match (s.channel c).state, (s.channel c).working with
      | .opened, some w => [{ isOpen := false, channel := c, slot := w.outlet, tag := (s.channel c).tag, litres := 0,
                              stray := true, since := s.now }]
      | .closing, some w => [{ isOpen := false, channel := c, slot := w.outlet, tag := (s.channel c).tag, litres := 0,
                               stray := true, since := s.now }]
      | _, _ => []
    let opening (c : Channel) := (s.channel c).state = .opened ∨ (s.channel c).state = .closing
    let source (c : Channel) : LayerSource := match c with
      | .a => .a
      | .b => .b
    let descriptor (c : Channel) : Option DescriptorIx := match (s.channel c).current with
      | some x => if (s.descriptor x).enabled then some x else none
      | none => none
    ∃ t, exec (.restart seq []) s = .next t ∧
      (t.power = s.power ∧ t.now = s.now ∧ t.pending = s.pending ∧ t.nodes = s.nodes ∧ t.segments = s.segments ∧
        t.feed.descriptors = s.feed.descriptors ∧ t.monitors = s.monitors ∧ t.markers.entries = s.markers.entries ∧
        t.params = s.params ∧ t.agents.entries = s.agents.entries ∧ t.pourClock = s.pourClock ∧
        t.command.user = s.command.user ∧ t.feed.tagCounter = s.feed.tagCounter) ∧
      (t.mode = .idle ∧ t.level = { cycleNumber := 0, remainder := 0, rateClock := none, latest := none } ∧
        (∀ c, t.condition c = { state := .idle, source := false, detail := none, count := 0 } ∧ t.isMasked c = false) ∧
        (∀ i, t.markers.spent.read i = false) ∧ t.markers.latest = none) ∧
      (t.command.staged = [] ∧ t.command.commitPending = false ∧ t.command.commitSeq = none ∧
        t.command.startCause = .restart) ∧
      (∀ a, t.agents.counters.read a = 0 ∧ t.agents.drops.read a = 0) ∧
      (t.console = {
         receptionErrors := 0, silence := { latestValid := s.now, evaluated := false },
         replies := [.reply seq 0x13 .ok []], forward := [], budget := 0, forwardHeld := false, unsent := none,
         sending := none, startFlag := true, tx := t.console.tx } ∧
        t.console.tx = s.console.tx.map (fun x => { x with kind := match x.kind with
          | .beacon first last _ => .beacon first last false
          | .reply => .reply
          | .forward => .forward })) ∧
      ((∀ i, t.relaySlot i = none) ∧ t.relays.discards = 0 ∧ t.jobs = [] ∧ t.placementSeen = none ∧
        t.transit = {
          dispatchResults := [], retirements := s.transit.retirements ++ s.transit.placementResults
          placementResults := [], markerResults := [], feedResults := [], spreadSwitches := [], sweepModes := []
          dispatchModes := [], rateModes := [], feedModes := [], silenceModes := [], relayModes := [] }) ∧
      (t.sweep.running = false ∧ t.sweep.dueAt = s.now ∧ t.sweep.cursor = none ∧ t.sweep.replies = [] ∧
        t.ring = s.ring.map (fun x => { x with discarded := true }) ∧
        t.dispatch = (if s.dispatch.state = .window then s.dispatch else Dispatch.idle)) ∧
      (∀ i, t.expectation i = none ∧ t.outletClaim i = none ∧
        ((s.node i).enabled = true → t.record i = { s.record i with
          state := .active, missCount := 0, shortCounter := 0, previousHeight := none, pollDue := none }) ∧
        ((s.node i).enabled = false → t.record i = s.record i)) ∧
      ((∀ c, t.channel c = { ChannelContext.initial with tag := (s.channel c).tag }) ∧ t.feed.note = none ∧
        t.feed.seen = none ∧
        t.feed.waiting = (s.feed.waiting.filter fun x => x.stray) ++ closes .a ++ closes .b) ∧
      (∀ k, (t.wall k).claim = none) ∧
      ((∀ c, opening c → (s.channel c).delivered = 0) → ∀ k, t.wall k = { s.wall k with claim := none }) ∧
      ((∀ c w, opening c → (s.channel c).working = some w → (s.wall w.segment).Form s.pourClock) →
        let closes (c : Channel) (u v : State) :=
          (∀ w, opening c → (s.channel c).working = some w → 0 < (s.channel c).delivered →
            (s.segment w.segment).enabled = true → u.Places w.segment (s.channel c).delivered (source c) (descriptor c) v) ∧
          (¬ opening c ∨ (s.channel c).delivered = 0 ∨
            (∀ w, (s.channel c).working = some w → (s.segment w.segment).enabled = false) → v = u)
        ∃ p q : State, closes .a s p ∧ closes .b p q ∧ ∀ k, t.wall k = { q.wall k with claim := none }) ∧
      (∀ c w, opening c → (s.channel c).working = some w → 0 < (s.channel c).delivered →
        (opening (otherChannel c) → (s.channel (otherChannel c)).delivered = 0) →
        let d := (s.channel c).delivered
        let live := s.wall w.segment
        let area := (s.segment w.segment).area
        let num := d * 100000 + live.remainder
        let gain := min (num / area) (16777215 - live.top)
        (∀ k, k ≠ w.segment ∨ (s.segment k).enabled = false → t.wall k = { s.wall k with claim := none }) ∧
        ((s.segment w.segment).enabled = true → (t.wall w.segment).remainder = num % area ∧
          (t.wall w.segment).placedTotal = min 4294967295 (live.placedTotal + d) ∧
          (t.wall w.segment).top = live.top + gain ∧ (t.wall w.segment).base = live.base ∧
          (gain = 0 → (t.wall w.segment).queue = live.queue) ∧
          (0 < gain → live.queue.length < 16 → live.Form s.pourClock →
            (t.wall w.segment).queue = live.queue ++ [{
              top := live.top + gain, placedAt := s.pourClock, litres := d
              source := source c, descriptor := descriptor c
              greenExited := (match s.placementSeen.bind CycleResult.bottom with
                | some b => decide ((live.top : Int) < b)
                | none => false) && decide (0 < s.params.setAgeS) }])))

/-! ## The ring -/

/-- SWEEP_START with the ring free, no sweep running, a sweep due, the dispatch idle and no cycle result on its way to it:
the enabled slots are polled from the lowest, the next sweep is due a period on, the forward budget is filled, which ends
a hold of the forward queue unless its head does not fit the new budget (notes/assumptions/40.md), and CYCLE_LATE is raised when the start is later than a quarter of cycle_ms, with no detail, whether or not a slot is
enabled. With no enabled slot the sweep is complete at once (ComputationsFollowTheHeights), with a computation of no
participants, which leaves CYCLE_LATE. While the ring is busy, a sweep runs, none is due, the dispatch is not idle or a
result is on its way to it, no sweep starts and nothing changes. -/
def Obligations.SweepStarts : Prop :=
  (∀ s : State, s.running = true → s.ring ≠ none ∨ s.sweep.running = true ∨ s.now < s.sweep.dueAt ∨
    s.dispatch.state ≠ .idle ∨ s.transit.dispatchResults ≠ [] → exec .sweepStart s = .next s) ∧
  (∀ s : State, s.running = true → s.ring = none → s.sweep.running = false → s.sweep.dueAt ≤ s.now →
    s.dispatch.state = .idle → s.transit.dispatchResults = [] →
    let polled := allSlots.filter fun i => (s.node i).enabled
    let period := if s.mode = .idle ∨ s.mode = .halt then s.params.idleMs else s.params.cycleMs
    let held : Bool := match s.console.forward with
      | [] => false
      | r :: _ => decide (s.params.fwdBudget <
          (envelopeFrame { address := 0, kind := 0x24, payload := r.payload }).length)
    ∃ u t, exec .sweepStart s = .next t ∧
      u = ((s.withSweep { running := true, dueAt := s.now + period, startedAt := some s.now, polled := polled,
                          cursor := polled.head?, replies := [] }).withConsole { s.console with
        budget := s.params.fwdBudget, forwardHeld := held }).withConditions u.conditions ∧
      (∀ c : Cond, c ≠ .cycleLate → u.condition c = s.condition c) ∧ u.conditions.masked = s.conditions.masked ∧
      (s.now - s.sweep.dueAt ≤ s.params.cycleMs / 4 → u.conditions = s.conditions) ∧
      (s.params.cycleMs / 4 < s.now - s.sweep.dueAt → u.condition .cycleLate = { s.condition .cycleLate with
        state := .uncleared, source := false, count := min 255 ((s.condition .cycleLate).count + 1) }) ∧
      t.condition .cycleLate = u.condition .cycleLate ∧
      t.console.budget = s.params.fwdBudget ∧ t.console.forwardHeld = held ∧ t.sweep.startedAt = some s.now ∧
      t.sweep.polled = polled ∧
      (polled ≠ [] → t = u) ∧
      (polled = [] → t = u.sweepComplete ∧ t.sweep.running = false ∧ ∃ r, t.level.latest = some r ∧ r.n = 0 ∧ r.s = 0 ∧
        r.hRef = none ∧ r.binding = .none ∧ r.demands = [] ∧ r.time = s.now))

/-- SWEEP_POLL of the slot at the cursor and OUTLET_POLL of the due slot of earliest due time, then of lowest index, with
nothing of a higher rank to serve: a POLL frame goes to the slot's address and the ring driver is enabled. Neither begins, and
nothing changes, while the ring is busy; SWEEP_POLL needs a sweep that runs; OUTLET_POLL needs a due poll, and waits while a
sweep has a slot to poll or may start, a DEMAND or the GO waits, or an OPEN or CLOSE waits. That a DEMAND or the GO of a dispatch whose mode
has left CLIMB and TRIM, or which a change under way abandons, is nothing to serve is the model's reading
(notes/assumptions/13.md). -/
def Obligations.PollsBegin : Prop :=
  (∀ s : State, s.running = true →
    (s.ring ≠ none ∨ s.sweep.running = false ∨ s.sweep.cursor = none → exec .sweepPoll s = .next s) ∧
    (s.ring ≠ none ∨ s.SweepServes ∨ s.DispatchServes ∨ s.feed.waiting ≠ [] ∨ ¬ s.PollServes →
      exec .outletPoll s = .next s)) ∧
  (∀ (s : State) (i : Slot), s.running = true → s.ring = none → s.sweep.running = true → s.sweep.cursor = some i →
    exec .sweepPoll s = .next ((s.withRing (some (s.requestFor (.sweepPoll i) i 0x01 []))).withPower
      { s.power with ringDriver := true })) ∧
  (∀ (s : State) (i : Slot) (d : Nat), s.running = true → s.ring = none → ¬ s.SweepServes → ¬ s.DispatchServes →
    s.feed.waiting = [] → (s.node i).enabled = true → (s.record i).pollDue = some d → d ≤ s.now →
    (∀ (j : Slot) (e : Nat), (s.node j).enabled = true → (s.record j).pollDue = some e → e ≤ s.now →
      d < e ∨ (d = e ∧ i ≤ j)) →
    exec .outletPoll s = .next ((s.withRing (some (s.requestFor (.outletPoll i) i 0x01 []))).withPower
      { s.power with ringDriver := true }))

/-- DEMAND of the entry at the cursor and GO_BROADCAST once every DEMAND exchange has ended, in CLIMB or TRIM with no
change that abandons the dispatch under way to it: the DEMAND carries the cycle tag and the demand to the slot's
address, the GO the cycle tag to address 0. In another mode, or once such a change has been taken, neither begins, nor does
either while the ring is busy, a poll of a running sweep or a sweep start goes before it, or the dispatch is in another
state. -/
def Obligations.DispatchRequestsBegin : Prop :=
  (∀ (s : State) (tag : Nat), s.running = true → s.ring = none → ¬ s.SweepServes →
    (s.mode = .climb ∨ s.mode = .trim) → (∀ m ∈ s.transit.dispatchModes, m.new = .climb ∨ m.new = .trim) →
    s.dispatch.tag = some tag →
    (∀ e ∈ s.dispatch.entries, s.dispatch.state = .demanding → s.dispatch.cursor = some e.slot →
      (∀ x ∈ s.dispatch.entries, x.slot = e.slot → x = e) →
      exec .demand s = .next ((s.withRing (some (s.requestFor (.demand e.slot) e.slot 0x03
        (u8 tag :: u16 e.demand)))).withPower { s.power with ringDriver := true })) ∧
    (s.dispatch.state = .goReady →
      exec .goBroadcast s = .next ((s.withRing (some {
        kind := .go, address := 0, frame := envelopeFrame { address := 0, kind := 0x05, payload := [u8 tag] },
        retry := false, phase := .sending, discarded := false })).withPower { s.power with ringDriver := true }))) ∧
  (∀ s : State, s.running = true →
    let barred := s.ring ≠ none ∨ s.SweepServes ∨ (s.mode ≠ .climb ∧ s.mode ≠ .trim) ∨
      ∃ m ∈ s.transit.dispatchModes, m.new ≠ .climb ∧ m.new ≠ .trim
    (barred ∨ s.dispatch.state ≠ .demanding → exec .demand s = .next s) ∧
    (barred ∨ s.dispatch.state ≠ .goReady → exec .goBroadcast s = .next s))

/-- OPEN_EXCHANGE and CLOSE_EXCHANGE of the exchange that waits longest (channel A's of two equal ones), with no sweep
and no dispatch to serve; RELAY_EXCHANGE of the oldest relay that waits, with nothing else to serve. The exchange leaves the
waiting list, or the relay becomes IN_FLIGHT; OPEN carries tag and litres, CLOSE the tag, RELAY the tag and the
payload. None begins, and nothing changes, while the ring is busy or a sweep or a dispatch is to be served; OPEN not where a
CLOSE is first or none waits, CLOSE not where an OPEN is first or none waits, RELAY not while an OPEN or CLOSE waits or an
outlet poll is due, or where no relay waits: a relay to a jack waits for the end of a stroke window. When a dispatch is to be
served, and that a relay to a jack waits too while an entry to CLIMB or TRIM is on its way to the Relay Unit, is the model's
reading (notes/assumptions/13.md). -/
def Obligations.FeedAndRelayExchangesBegin : Prop :=
  (∀ s : State, s.running = true →
    let barred := s.ring ≠ none ∨ s.SweepServes ∨ s.DispatchServes
    let first (x : FeedExchange) := ∃ before after, s.feed.waiting = before ++ x :: after ∧
      (∀ y ∈ before, x.since < y.since ∨ (x.since = y.since ∧ x.channel = .a ∧ y.channel = .b)) ∧
      (∀ y ∈ after, x.since < y.since ∨ (x.since = y.since ∧ (x.channel = .a ∨ y.channel = .b)))
    (barred ∨ (∀ x, first x → x.isOpen = false) → exec .openExchange s = .next s) ∧
    (barred ∨ (∀ x, first x → x.isOpen = true) → exec .closeExchange s = .next s) ∧
    (barred ∨ s.feed.waiting ≠ [] ∨ s.PollServes ∨ (∀ i, ¬ s.RelayServes i) → exec .relayExchange s = .next s)) ∧
  (∀ (s : State) (before after : List FeedExchange) (x : FeedExchange), s.running = true → s.ring = none →
    ¬ s.SweepServes → ¬ s.DispatchServes → s.feed.waiting = before ++ x :: after →
    (∀ y ∈ before, x.since < y.since ∨ (x.since = y.since ∧ x.channel = .a ∧ y.channel = .b)) →
    (∀ y ∈ after, x.since < y.since ∨ (x.since = y.since ∧ (x.channel = .a ∨ y.channel = .b))) →
    let u := s.withFeed { s.feed with waiting := before ++ after }
    (x.isOpen = true → exec .openExchange s = .next ((u.withRing (some (s.requestFor
      (.openOutlet x.channel x.slot x.tag) x.slot 0x06 (u8 x.tag :: u16 x.litres)))).withPower
        { s.power with ringDriver := true })) ∧
    (x.isOpen = false → exec .closeExchange s = .next ((u.withRing (some (s.requestFor
      (.closeOutlet x.channel x.slot x.tag x.stray) x.slot 0x07 [u8 x.tag]))).withPower
        { s.power with ringDriver := true }))) ∧
  (∀ (s : State) (i : RelayIx) (x : RelaySlot), s.running = true → s.ring = none → ¬ s.SweepServes →
    ¬ s.DispatchServes → s.feed.waiting = [] → ¬ s.PollServes → s.relaySlot i = some x → s.RelayServes i →
    (∀ j y, s.relaySlot j = some y → s.RelayServes j → x.queuedAt < y.queuedAt ∨ (x.queuedAt = y.queuedAt ∧ i ≤ j)) →
    exec .relayExchange s = .next (((s.setRelaySlot i (some { x with state := .inFlight })).withRing (some
      (s.requestFor (.relay i x.target x.tag) x.target 0x08 (u8 x.tag :: x.payload)))).withPower
        { s.power with ringDriver := true }))

/-- REQUEST_FRAME_SENT releases the ring driver and opens the reply window of reply_window_ms. GO_SENT frees the ring and
releases the driver; with the dispatch still ready to go, every entry sets the stroke expectation of its slot and the
stroke window opens for stroke_ms. A change of mode to IDLE, HOLD or HALT that has been taken by then abandons the dispatch
instead: it is IDLE and no expectation is set, also where the change is still on its way to it (notes/assumptions/37.md).
One that reached it while the GO was on the line, or a RESTART, has left nothing to go (notes/assumptions/14.md). -/
def Obligations.RequestFramesLeave : Prop :=
  (∀ (s : State) (x : Exchange), s.running = true → s.ring = some x → x.phase = .sending → x.kind ≠ .go →
    exec .requestFrameSent s = .next ((s.withRing (some { x with
      phase := .window (s.now + s.params.replyWindowMs) })).withPower { s.power with ringDriver := false })) ∧
  (∀ (s : State) (x : Exchange), s.running = true → s.ring = some x → x.phase = .sending → x.kind = .go →
    ∃ t, exec .goSent s = .next t ∧
      t = (((s.withRing none).withPower { s.power with ringDriver := false }).withDispatch t.dispatch).withExpectations
        t.expectations ∧
      (x.discarded = true ∨ s.dispatch.state ≠ .goReady → t.dispatch = s.dispatch ∧ t.expectations = s.expectations) ∧
      (let stops := (s.mode ≠ .climb ∧ s.mode ≠ .trim) ∨
         ∃ m ∈ s.transit.dispatchModes, m.new ≠ .climb ∧ m.new ≠ .trim
       (x.discarded = false → s.dispatch.state = .goReady → stops →
        t.dispatch = { state := .idle, tag := none, entries := [], cursor := none, windowEndsAt := none } ∧
        t.expectations = s.expectations) ∧
       (x.discarded = false → s.dispatch.state = .goReady → ¬ stops →
        t.dispatch = { s.dispatch with state := .window, windowEndsAt := some (s.now + s.params.strokeMs) } ∧
        (∀ e ∈ s.dispatch.entries, (∀ y ∈ s.dispatch.entries, y.slot = e.slot → y = e) →
          t.expectation e.slot = some { tag := s.dispatch.tag.getD 0, demand := e.demand,
                                        confirmed := decide (e.outcome = .acked) }) ∧
        (∀ i, (∀ e ∈ s.dispatch.entries, e.slot ≠ i) → t.expectation i = s.expectation i))))

/-- RING_REPORT with a payload that spells a report of the slot's kind (Report.SpelledBy, Safety.lean) inside the open
window of a poll that RESTART has not made void: the ring is free, the slot's miss count is
0, the report is its last report, its state is FAULTED or ACTIVE by the fault flag, a slot that was LOST has its previous
height forgotten, and a claimed outlet's next poll is counted from now. A change of the node state re-evaluates JACK_LOST
and NODE_LOST. Then the report goes to the block of its kind: a jack's to stroke verification (StrokesAreVerified) against
the previous height, which its height then replaces, its expectation cleared; a sensor's change of state and, where ACTIVE,
its value to the monitors (MonitorsJudge); an outlet's to the Feed Chain Engine (AnEndCompletesTheOpening). Then the
Forwarding Unit takes it (ConsoleSendsByRank). For a sweep's poll the slot joins the reply list behind the earlier ones, and
the cursor moves to the lowest polled slot above it; behind the last polled slot the sweep is complete. The order inside
the step is the model's reading (notes/assumptions/16.md). Tables, dispatch and computation stay until the sweep is
complete, and so does the feed for a sensor, or for a jack but where its slip takes the mode to HALT. In the window of a poll that RESTART made void such a report frees the
ring and changes nothing else. A REPORT that no open window takes changes nothing: from another address, after the window's
end (notes/assumptions/2.md) or with none open, in an exchange that is no poll, or of another length than the kind's. -/
def Obligations.ReportUpdatesTheRecord : Prop :=
  (∀ (s : State) (x : Exchange) (i : Slot) (ends : Nat) (address : Byte) (payload : List Byte) (report : Report),
    s.running = true → s.ring = some x → x.phase = .window ends → s.now ≤ ends → address.toNat = x.address →
    x.discarded = false → report.SpelledBy (s.node i).kind payload →
    (x.kind = .outletPoll i ∨ x.kind = .sweepPoll i) →
    let state : NodeState := if report.fault then .faulted else .active
    let previous := if (s.record i).state = .lost then none else (s.record i).previousHeight
    let kept := (s.withRing none).setRecord i { s.record i with
      missCount := 0, lastReport := some report, state := state, previousHeight := previous
      lastExchangeEnd := some s.now
      pollDue := if (s.outletClaim i).isSome then some (s.now + s.params.outletPollMs) else (s.record i).pollDue }
    let judged := if (s.record i).state = state then kept else kept.evaluateNodes
    let handed : State := match report with
      | .jack height _ _ => let v := judged.verifyStroke i height previous
        v.setRecord i { v.record i with previousHeight := some height }
      | .sensor value _ =>
        let v := if (s.record i).state = state then judged else judged.sensorStateChanged i state
        if state = NodeState.active then v.judgeValue i value else v
      | .outlet _ _ _ _ _ => judged.outletReport i report
    let v := handed.offerReport i (s.node i).kind previous report
    let w := v.withSweep { s.sweep with
      replies := if i ∈ s.sweep.replies then s.sweep.replies else s.sweep.replies ++ [i] }
    (x.kind = .outletPoll i → exec (.ringReport address payload) s = .next v) ∧
    (x.kind = .sweepPoll i → s.sweep.polled.Pairwise (· < ·) →
      (∀ j ∈ s.sweep.polled, i < j → (∀ k ∈ s.sweep.polled, i < k → j ≤ k) →
        exec (.ringReport address payload) s = .next (w.withSweep { w.sweep with cursor := some j })) ∧
      ((∀ j ∈ s.sweep.polled, j ≤ i) → exec (.ringReport address payload) s = .next w.sweepComplete)) ∧
    (v.ring = none ∧ (v.record i).missCount = 0 ∧ (v.record i).lastReport = some report ∧ (v.record i).state = state ∧
      (v.record i).lastExchangeEnd = some s.now ∧ v.sweep = s.sweep) ∧
    (∀ height tag fault, report = .jack height tag fault → (v.record i).previousHeight = some height ∧
      v.expectation i = none) ∧
    ((s.node i).kind ≠ .jack → (v.record i).previousHeight = previous) ∧
    (∀ j, j ≠ i → v.record j = { s.record j with pollDue := (v.record j).pollDue }) ∧
    ((s.record i).state ≠ state →
      ((judged.condition .jackLost).source = true ↔ ∃ j, (s.node j).enabled = true ∧ (s.node j).kind = .jack ∧
        ((judged.record j).state = .lost ∨ (judged.record j).state = .faulted)) ∧
      ((judged.condition .nodeLost).source = true ↔ ∃ j, (s.node j).enabled = true ∧ (s.node j).kind ≠ .jack ∧
        (judged.record j).state = .lost)) ∧
    (v.power = s.power ∧ v.nodes = s.nodes ∧ v.dispatch = s.dispatch ∧ v.level = s.level ∧
      v.segments = s.segments ∧ v.pourClock = s.pourClock ∧ v.markers = s.markers ∧ v.command = s.command ∧
      v.params = s.params ∧ v.relays = s.relays ∧ v.jobs = s.jobs ∧ v.feed.descriptors = s.feed.descriptors) ∧
    v.console = { s.console with forward := v.console.forward, forwardHeld := v.console.forwardHeld } ∧
    (∀ j, j ≠ i → v.expectation j = s.expectation j) ∧
    ((s.node i).kind ≠ .outlet → v.walls = s.walls ∧
      ((s.node i).kind = .sensor ∨ s.mode = .halt ∨ v.mode ≠ .halt → v.feed = s.feed)) ∧
    ((s.node i).kind ≠ .sensor → v.monitors = s.monitors)) ∧
  (∀ (s : State) (address : Byte) (payload : List Byte), s.running = true →
    (∀ x i, s.Takes address x → x.kind = .outletPoll i ∨ x.kind = .sweepPoll i →
      ∀ report : Report, ¬ report.SpelledBy (s.node i).kind payload) →
    exec (.ringReport address payload) s = .next s) ∧
  (∀ (s : State) (x : Exchange) (i : Slot) (address : Byte) (payload : List Byte) (report : Report), s.running = true →
    s.Takes address x → x.discarded = true → x.kind = .outletPoll i ∨ x.kind = .sweepPoll i →
    report.SpelledBy (s.node i).kind payload → exec (.ringReport address payload) s = .next (s.withRing none))

/-- Stroke verification of a jack's report with a previous height: the achieved stroke is judged against the demand of a
confirmed expectation, or against 0 with none. Below -slip_tol JACK_SLIP is raised; above expected + over_tol JACK_OVER;
a positive expectation missed by more than short_tol counts one short up to 15, and every other stroke sets the short
counter to 0. An unconfirmed expectation raises only. The expectation is cleared; without a previous height nothing else
happens. A JACK_SLIP that leaves IDLE moves CLIMB, TRIM and HOLD to HALT, a JACK_OVER CLIMB and TRIM to HOLD, handed to the
six blocks. The slip that moves the mode to HALT stops both channels at once, with cause HALT (Halts, Safety.lean),
one after the other in a free order (notes/assumptions/5.md). Where the short counter changes, the source of JACK_SHORT is active exactly while an enabled jack's counter is
at or above short_limit: becoming active raises it with the lowest such slot, becoming inactive clears it; where no counter
changes the condition stays. Nothing else differs. -/
def Obligations.StrokesAreVerified : Prop :=
  (∀ (s : State) (i : Slot) (height : Nat), s.verifyStroke i height none = s.setExpectation i none) ∧
  (∀ (s : State) (i : Slot) (height p : Nat),
    ∃ t : State,
    let achieved : Int := (height : Int) - p
    let e := s.expectation i
    let expected : Nat := (e.map Expectation.demand).getD 0
    let confirmed := e = none ∨ ∃ x, e = some x ∧ x.confirmed = true
    let climbs := s.mode = .climb ∨ s.mode = .trim
    let moves (b : Prop) (new : RiseMode) :=
      (b → t.mode = new ∧ t.transit = s.transit.handed { old := s.mode, new := new, moment := s.now }) ∧
      (¬ b → t.mode = s.mode ∧ t.transit = s.transit)
    let short (j : Slot) := (s.node j).enabled = true ∧ (s.node j).kind = .jack ∧
      s.params.shortLimit ≤ (t.record j).shortCounter
    let old := s.condition .jackShort
    let new := t.condition .jackShort
    let halts := achieved < -(s.params.slipTol : Int) ∧ (s.condition .jackSlip).state = .idle ∧ (climbs ∨ s.mode = .hold)
    (halts → t.Halts (s.verifyStroke i height (some p))) ∧ (¬ halts → s.verifyStroke i height (some p) = t) ∧
    t = ((((s.withRecords t.records).withExpectations t.expectations).withConditions t.conditions).withMode
      t.mode).withTransit t.transit ∧
    t.conditions.masked = s.conditions.masked ∧
    t.expectation i = none ∧ (∀ j, j ≠ i → t.expectation j = s.expectation j) ∧
    (∀ j, t.record j = { s.record j with shortCounter := (t.record j).shortCounter }) ∧
    (∀ j, j ≠ i → t.record j = s.record j) ∧
    (achieved < -(s.params.slipTol : Int) → t.record i = s.record i ∧
      t.condition .jackSlip = { state := .uncleared, source := false, detail := some i.val,
                                count := min 255 ((s.condition .jackSlip).count + 1) } ∧
      (∀ c : Cond, c ≠ .jackSlip → t.condition c = s.condition c) ∧
      moves ((s.condition .jackSlip).state = .idle ∧ (climbs ∨ s.mode = .hold)) .halt) ∧
    (-(s.params.slipTol : Int) ≤ achieved → (expected : Int) + s.params.overTol < achieved →
      t.record i = s.record i ∧
      t.condition .jackOver = { state := .uncleared, source := false, detail := some i.val,
                                count := min 255 ((s.condition .jackOver).count + 1) } ∧
      (∀ c : Cond, c ≠ .jackOver → t.condition c = s.condition c) ∧
      moves ((s.condition .jackOver).state = .idle ∧ climbs) .hold) ∧
    (-(s.params.slipTol : Int) ≤ achieved → achieved ≤ (expected : Int) + s.params.overTol →
      (∀ c : Cond, c ≠ .jackShort → t.condition c = s.condition c) ∧ t.mode = s.mode ∧ t.transit = s.transit ∧
      (¬ confirmed → t.record i = s.record i) ∧
      (confirmed → 0 < expected → achieved < (expected : Int) - s.params.shortTol →
        (t.record i).shortCounter = min 15 ((s.record i).shortCounter + 1)) ∧
      (confirmed → expected = 0 ∨ (expected : Int) - s.params.shortTol ≤ achieved →
        (t.record i).shortCounter = 0) ∧
      ((t.record i).shortCounter = (s.record i).shortCounter → new = old) ∧
      ((t.record i).shortCounter ≠ (s.record i).shortCounter →
        (new.source = true ↔ ∃ j, short j) ∧ (new.source = old.source → new = old) ∧
        (∀ j, old.source = false → short j → (∀ k, k < j → ¬ short k) →
          new = { state := .raised, source := true, detail := some j.val, count := min 255 (old.count + 1) }) ∧
        (old.source = true → (∀ j, ¬ short j) → new = { old with source := false, state := (match old.state with
          | .raised => .uncleared
          | .standing => .idle
          | .uncleared => .uncleared
          | .idle => .idle) }))))

/-- A value of an ACTIVE sensor is judged by every enabled monitor on its slot: RISING trips at or above the level in force
and clears below it less the hysteresis, FALLING trips at or below it and clears above it plus the hysteresis, and in
between the state stays, a TRIPPED monitor taking the cause VALUE. The value and the pour clock are kept; the other monitors stay, and the sources of MONITOR_HOLD
and MONITOR_NOTE are active exactly while an enabled monitor of their class is TRIPPED.
A sensor whose node state becomes LOST, FAULTED or DISABLED trips every enabled monitor on its slot with cause SENSOR_LOST,
SENSOR_FAULTED or SENSOR_ABSENT, last value and judged at kept; ACTIVE and STALE change no monitor; the sources are
evaluated (ConditionsRaiseAndClear), the detail being the lowest such monitor. Nothing else differs. That a slot which no enabled monitor names hands no evaluation is the model's choice
(notes/assumptions/36.md). -/
def Obligations.MonitorsJudge : Prop :=
  (∀ (s : State) (i : Slot) (v : Int) (m : MonitorIx), let t := s.judgeValue i v
    let e := s.monitor m
    let level := e.levels.read e.select
    let mine := e.enabled = true ∧ e.sensor = i
    let r := t.monitorRecord m
    let stays := r.tripped = (s.monitorRecord m).tripped ∧
      r.cause = (if (s.monitorRecord m).tripped then some .value else (s.monitorRecord m).cause)
    t.monitors.entries = s.monitors.entries ∧
    (¬ mine → r = s.monitorRecord m) ∧
    (mine → r.lastValue = some v ∧ r.judgedAt = some s.pourClock ∧
      (e.direction = .rising → level ≤ v → r.tripped = true ∧ r.cause = some .value) ∧
      (e.direction = .rising → v < level - e.hysteresis → r.tripped = false ∧ r.cause = none) ∧
      (e.direction = .rising → v < level → level - e.hysteresis ≤ v → stays) ∧
      (e.direction = .falling → v ≤ level → r.tripped = true ∧ r.cause = some .value) ∧
      (e.direction = .falling → level + e.hysteresis < v → r.tripped = false ∧ r.cause = none) ∧
      (e.direction = .falling → level < v → v ≤ level + e.hysteresis → stays) ∧
      ((t.condition .monitorHold).source = true ↔
        ∃ n, (t.monitor n).enabled = true ∧ (t.monitor n).cls = .hold ∧ (t.monitorRecord n).tripped = true) ∧
      ((t.condition .monitorNote).source = true ↔
        ∃ n, (t.monitor n).enabled = true ∧ (t.monitor n).cls = .note ∧ (t.monitorRecord n).tripped = true)) ∧
    (∀ c : Cond, c ≠ .monitorHold → c ≠ .monitorNote → t.condition c = s.condition c) ∧
    (mine → t = (s.withMonitors t.monitors).evaluateMonitors)) ∧
  (∀ (s : State) (i : Slot), (∀ m, (s.monitor m).enabled = true → (s.monitor m).sensor ≠ i) →
    (∀ v, s.judgeValue i v = s) ∧ ∀ new, s.sensorStateChanged i new = s) ∧
  (∀ (s : State) (held noted : Option MonitorIx),
    let tripped (cls : MonitorClass) (m : MonitorIx) :=
      (s.monitor m).enabled = true ∧ (s.monitor m).cls = cls ∧ (s.monitorRecord m).tripped = true
    LowestOf (tripped .hold) held → LowestOf (tripped .note) noted →
    s.evaluateMonitors = (s.evaluate .monitorHold held.isSome (held.map fun m => m.val)).evaluate .monitorNote
      noted.isSome (noted.map fun m => m.val)) ∧
  (∀ (s : State) (i : Slot) (new : NodeState) (m : MonitorIx), let t := s.sensorStateChanged i new
    let mine := (s.monitor m).enabled = true ∧ (s.monitor m).sensor = i
    let tripped (c : TripCause) := t.monitorRecord m = { s.monitorRecord m with tripped := true, cause := some c }
    t.monitors.entries = s.monitors.entries ∧
    (¬ mine ∨ new = .active ∨ new = .stale → t.monitorRecord m = s.monitorRecord m) ∧
    (mine → (new = .lost → tripped .sensorLost) ∧ (new = .faulted → tripped .sensorFaulted) ∧
      (new = .disabled → tripped .sensorAbsent) ∧
      ((t.condition .monitorHold).source = true ↔
        ∃ n, (t.monitor n).enabled = true ∧ (t.monitor n).cls = .hold ∧ (t.monitorRecord n).tripped = true) ∧
      ((t.condition .monitorNote).source = true ↔
        ∃ n, (t.monitor n).enabled = true ∧ (t.monitor n).cls = .note ∧ (t.monitorRecord n).tripped = true)) ∧
    (∀ c : Cond, c ≠ .monitorHold → c ≠ .monitorNote → t.condition c = s.condition c) ∧
    (mine → t = (s.withMonitors t.monitors).evaluateMonitors))

/-- An ACK inside the open window of a DEMAND, OPEN or CLOSE exchange that RESTART has not made void: the ring is free and
the slot's record acknowledged: miss count 0, STALE and LOST become ACTIVE (LOST forgets the previous height), FAULTED
stays. A change of the node state re-evaluates JACK_LOST and NODE_LOST (ConditionsRaiseAndClear), the detail being the
lowest such slot, and, for an outlet, reaches the Feed Chain Engine, where nothing happens but for a channel that waits for that outlet. A DEMAND's entry becomes ACKED and the cursor moves on,
or the dispatch is ready to go after the last entry; a dispatch that has been abandoned while its DEMAND was on the ring
stays as it is. An OPEN of the channel's opening confirms it and starts the dwell; a closing channel queues its CLOSE
instead. A CLOSE changes no channel. In the window of an exchange that RESTART made void the ACK frees the ring and changes
nothing else. An ACK that no open window takes changes nothing: from another address, after the window's end
(notes/assumptions/2.md) or with none open, in an exchange of another kind, or with a payload. -/
def Obligations.AcksEndExchanges : Prop :=
  (∀ (s : State) (x : Exchange) (i : Slot) (ends : Nat) (address : Byte), s.running = true → s.ring = some x →
    x.phase = .window ends → s.now ≤ ends → address.toNat = x.address → x.discarded = false →
    let r := s.record i
    let acked : NodeRecord := { r with
      missCount := 0
      state := match r.state with
        | .active => .active
        | .stale => .active
        | .lost => .active
        | .faulted => .faulted
        | .disabled => .disabled
      previousHeight := if r.state = .lost then none else r.previousHeight }
    let changed := r.state = .stale ∨ r.state = .lost
    let due := if (s.outletClaim i).isSome then some (s.now + s.params.outletPollMs) else r.pollDue
    let y := (s.withRing none).setRecord i acked
    let z := (s.withRing none).setRecord i { acked with lastExchangeEnd := some s.now, pollDue := due }
    (x.kind = .demand i → s.dispatch.state ≠ .demanding ∨ s.dispatch.cursor ≠ some i →
      (changed → (s.node i).kind = .jack) →
      (¬ changed → exec (.demandAck address []) s = .next y) ∧
      (changed → exec (.demandAck address []) s = .next y.evaluateNodes)) ∧
    (x.kind = .demand i → s.dispatch.state = .demanding → s.dispatch.cursor = some i →
      (changed → (s.node i).kind = .jack) →
      ∃ t, exec (.demandAck address []) s = .next t ∧
        (¬ changed → t = y.withDispatch t.dispatch) ∧ (changed → t = y.evaluateNodes.withDispatch t.dispatch) ∧
        (∀ n after before, s.dispatch.entries = before ++ n :: after → i < n.slot → (∀ y ∈ before, y.slot ≤ i) →
          t.dispatch = { s.dispatch with
            entries := s.dispatch.entries.map (fun e => if e.slot = i then { e with outcome := .acked } else e),
            cursor := some n.slot }) ∧
        ((∃ e ∈ s.dispatch.entries, e.slot = i) → (∀ e ∈ s.dispatch.entries, e.slot ≤ i) →
          t.dispatch = { s.dispatch with
            state := .goReady, cursor := none
            entries := s.dispatch.entries.map (fun e => if e.slot = i then { e with outcome := .acked } else e) })) ∧
    ((changed → (s.node i).kind = .outlet) → ∃ u : State,
      (¬ changed → u = z) ∧ (changed → u = z.evaluateNodes.outletStateChanged i false) ∧
      (∀ c tag w, x.kind = .openOutlet c i tag → (s.channel c).tag = tag → (s.channel c).openConfirmed = false →
        (s.channel c).working = some w →
        ((s.channel c).state = .opened → exec (.openAck address []) s = .next (u.setChannel c { s.channel c with
          openConfirmed := true, dwellEndsAt := some (s.now + s.params.dwellS * 1000) })) ∧
        ((s.channel c).state = .closing → exec (.openAck address []) s = .next (u.withFeed { u.feed.setChannel c
            { s.channel c with openConfirmed := true, closeSent := true } with
          waiting := u.feed.waiting ++ [{
            isOpen := false, channel := c, slot := w.outlet, tag := tag, litres := 0, stray := false,
            since := s.now }] }))) ∧
      (∀ c tag stray, x.kind = .closeOutlet c i tag stray → exec (.closeAck address []) s = .next u) ∧
      ((∀ c w, (s.channel c).state = .wait → (s.channel c).working = some w → w.outlet ≠ i) → changed →
        u = z.evaluateNodes.withFree (s.free + 1)))) ∧
  (∀ s : State, let t := s.evaluateNodes
    t = ((s.withConditions t.conditions).withMode t.mode).withTransit t.transit ∧
    ((t.condition .jackLost).source = true ↔ ∃ j, (s.node j).enabled = true ∧ (s.node j).kind = .jack ∧
      ((s.record j).state = .lost ∨ (s.record j).state = .faulted)) ∧
    ((t.condition .nodeLost).source = true ↔ ∃ j, (s.node j).enabled = true ∧ (s.node j).kind ≠ .jack ∧
      (s.record j).state = .lost) ∧
    (∀ c : Cond, c ≠ .jackLost → c ≠ .nodeLost → t.condition c = s.condition c)) ∧
  (∀ (s : State) (jack node : Option Slot),
    LowestOf (fun j => (s.node j).enabled = true ∧ (s.node j).kind = .jack ∧
      ((s.record j).state = .lost ∨ (s.record j).state = .faulted)) jack →
    LowestOf (fun j => (s.node j).enabled = true ∧ (s.node j).kind ≠ .jack ∧ (s.record j).state = .lost) node →
    s.evaluateNodes = (s.evaluate .jackLost jack.isSome (jack.map fun i => i.val)).evaluate .nodeLost node.isSome
      (node.map fun i => i.val)) ∧
  (∀ (s : State) (address : Byte) (payload : List Byte), s.running = true →
    ((∀ x i, s.Takes address x → x.kind = .demand i → payload ≠ []) →
      exec (.demandAck address payload) s = .next s) ∧
    ((∀ x c i tag, s.Takes address x → x.kind = .openOutlet c i tag → payload ≠ []) →
      exec (.openAck address payload) s = .next s) ∧
    ((∀ x c i tag stray, s.Takes address x → x.kind = .closeOutlet c i tag stray → payload ≠ []) →
      exec (.closeAck address payload) s = .next s)) ∧
  (∀ (s : State) (x : Exchange) (address : Byte), s.running = true → s.Takes address x → x.discarded = true →
    (∀ i, x.kind = .demand i → exec (.demandAck address []) s = .next (s.withRing none)) ∧
    (∀ c i tag, x.kind = .openOutlet c i tag → exec (.openAck address []) s = .next (s.withRing none)) ∧
    (∀ c i tag stray, x.kind = .closeOutlet c i tag stray → exec (.closeAck address []) s = .next (s.withRing none)))

/-- RING_RELAY_BACK inside the open window with the tag of the exchange's relay and a result of 64 bytes at most: the ring
is free and the relay slot is DONE with the result and the moment; where RESTART made the exchange void the ring is free
and nothing else changes. A RELAY_BACK that no open window takes changes nothing: from another address, after the window's
end (notes/assumptions/2.md) or with none open, in an exchange of another kind, with another tag, empty or too long.
RING_FRAME_DISCARD changes nothing: an open window runs on. -/
def Obligations.RelayRepliesAndDiscards : Prop :=
  (∀ (s : State) (x : Exchange) (i : RelayIx) (target : Slot) (tag ends : Nat) (y : RelaySlot) (address : Byte)
    (result : List Byte), s.running = true → s.ring = some x → x.phase = .window ends → s.now ≤ ends →
    address.toNat = x.address → x.discarded = false → x.kind = .relay i target tag → result.length ≤ 64 →
    s.relaySlot i = some y →
    exec (.ringRelayBack address (u8 tag :: result)) s = .next ((s.withRing none).setRelaySlot i
      (some { y with state := .done, result := some result, completion := some s.now }))) ∧
  (∀ (s : State) (address : Byte) (payload : List Byte), s.running = true →
    (∀ x i target tag result, s.Takes address x → x.kind = .relay i target tag → payload = u8 tag :: result →
      64 < result.length) →
    exec (.ringRelayBack address payload) s = .next s) ∧
  (∀ (s : State) (x : Exchange) (i : RelayIx) (target : Slot) (tag : Nat) (address : Byte) (result : List Byte),
    s.running = true → s.Takes address x → x.discarded = true → x.kind = .relay i target tag → result.length ≤ 64 →
    exec (.ringRelayBack address (u8 tag :: result)) s = .next (s.withRing none)) ∧
  (∀ (s : State) (f : RxFrame), exec (.ringFrameDiscard f) s = .next s)

/-- REPLY_WINDOW_EXPIRY at or after the window's end (that the step may come later is the model's choice,
notes/assumptions/2.md): the first silence sends the same frame again as the retry; after the retry the exchange has missed.
A miss counts one up to 15; the slot is LOST at miss_limit and STALE below it, and from LOST to STALE forgets its previous
height. A change of the state re-evaluates JACK_LOST and NODE_LOST and reaches the monitors of a sensor or, for an outlet,
the Feed Chain Engine (AnEndCompletesTheOpening). A missed sweep poll moves the cursor to the lowest polled slot above, or
completes the sweep. A missed DEMAND makes its entry UNCONFIRMED; the cursor moves on, and after the last entry the
dispatch is ready to go, or IDLE if no entry was ACKED; a dispatch abandoned meanwhile stays as it is. A missed OPEN ends an opening that waits for it: both claims are
released, on which a waiting other channel tests (PlaceTurnsLitresIntoHeight), a CLOSE that belongs to no channel is queued,
and the channel is in WAIT again and tests, under the reason found with the other channel at rest; in CLOSING it is STOPPED for STOP and HALT, else the descriptor is finished. A missed CLOSE is
queued again while the channel is CLOSING on that opening. A missed relay ends FAILED. An exchange that RESTART made void
just frees the ring. Before the window's end, and with no exchange in its window, nothing changes
(notes/assumptions/2.md). -/
def Obligations.SilenceIsRetriedThenMissed : Prop :=
  (∀ s : State, s.running = true → (∀ x ends, s.ring = some x → x.phase = .window ends → s.now < ends) →
    exec .replyWindowExpiry s = .next s) ∧
  (∀ (s : State) (x : Exchange) (ends : Nat), s.running = true → s.ring = some x → x.phase = .window ends →
    ends ≤ s.now →
    let fires (t : State) := exec .replyWindowExpiry s = .next t
    let missed (i : Slot) : NodeRecord :=
      let r := s.record i
      let n := min 15 (r.missCount + 1)
      if s.params.missLimit ≤ n then { r with missCount := n, state := .lost }
      else { r with missCount := n, state := .stale
                    previousHeight := if r.state = .lost then none else r.previousHeight }
    let told (t : State) (i : Slot) (openMiss : Bool) : State :=
      if (missed i).state = (s.record i).state then t
      else match (s.node i).kind with
        | .jack => t.evaluateNodes
        | .sensor => t.evaluateNodes.sensorStateChanged i (missed i).state
        | .outlet => t.evaluateNodes.outletStateChanged i openMiss
    let ended (i : Slot) (openMiss : Bool) : State := told ((s.withRing none).setRecord i { missed i with
      lastExchangeEnd := some s.now
      pollDue := if (s.outletClaim i).isSome then some (s.now + s.params.outletPollMs) else (s.record i).pollDue })
      i openMiss
    (x.discarded = true → fires (s.withRing none)) ∧
    (x.discarded = false → x.retry = false → fires ((s.withRing (some { x with
      retry := true, phase := .sending })).withPower { s.power with ringDriver := true })) ∧
    (x.discarded = false → x.retry = true →
      (∀ i, x.kind = .outletPoll i → fires (ended i false)) ∧
      (∀ i, x.kind = .sweepPoll i → s.sweep.polled.Pairwise (· < ·) →
        (∀ j ∈ s.sweep.polled, i < j → (∀ k ∈ s.sweep.polled, i < k → j ≤ k) →
          fires ((ended i false).withSweep { s.sweep with cursor := some j })) ∧
        ((∀ j ∈ s.sweep.polled, j ≤ i) → fires (ended i false).sweepComplete)) ∧
      (∀ i, x.kind = .demand i → s.dispatch.state ≠ .demanding ∨ s.dispatch.cursor ≠ some i →
        fires (told ((s.withRing none).setRecord i (missed i)) i false)) ∧
      (∀ i, x.kind = .demand i → s.dispatch.state = .demanding → s.dispatch.cursor = some i →
        let entries := s.dispatch.entries.map (fun e => if e.slot = i then { e with outcome := .unconfirmed } else e)
        let u := told ((s.withRing none).setRecord i (missed i)) i false
        (∀ n after before, s.dispatch.entries = before ++ n :: after → i < n.slot → (∀ y ∈ before, y.slot ≤ i) →
          fires (u.withDispatch { s.dispatch with entries := entries, cursor := some n.slot })) ∧
        ((∀ e ∈ s.dispatch.entries, e.slot ≤ i) → (∃ e ∈ s.dispatch.entries, e.slot ≠ i ∧ e.outcome = .acked) →
          fires (u.withDispatch { s.dispatch with state := .goReady, entries := entries, cursor := none })) ∧
        ((∀ e ∈ s.dispatch.entries, e.slot ≤ i) → (∀ e ∈ s.dispatch.entries, e.slot = i ∨ e.outcome ≠ .acked) →
          fires (u.withDispatch { state := .idle, tag := none, entries := [], cursor := none, windowEndsAt := none }))) ∧
      (∀ c i tag, x.kind = .openOutlet c i tag → fires ((ended i true).openMissed c tag)) ∧
      (∀ c i tag stray, x.kind = .closeOutlet c i tag stray → fires ((ended i false).closeMissed c tag stray)) ∧
      (∀ i target tag y, x.kind = .relay i target tag → s.relaySlot i = some y →
        fires ((s.withRing none).setRelaySlot i (some { y with
          state := .failed, completion := some s.now, result := none }))))) ∧
  (∀ (s : State) (c : Channel) (tag : Nat), let x := s.channel c
    let t := s.openMissed c tag
    (x.tag ≠ tag ∨ x.openConfirmed = true ∨ (x.state ≠ .opened ∧ x.state ≠ .closing) → t = s) ∧
    (∀ w, x.tag = tag → x.openConfirmed = false → x.working = some w → (s.channel (otherChannel c)).working = none →
      let held := s.outletClaim w.outlet = some c
      let stray : FeedExchange := {
        isOpen := false, channel := c, slot := w.outlet, tag := tag, litres := 0, stray := true, since := s.now }
      let released (u : State) := (∀ k, u.wall k = if k = w.segment ∧ (s.wall k).claim = some c
          then { s.wall k with claim := none } else s.wall k) ∧
        (∀ i, u.outletClaim i = if i = w.outlet ∧ held then none else s.outletClaim i) ∧
        (∀ i, u.record i = if i = w.outlet ∧ held then { s.record i with pollDue := none } else s.record i) ∧
        u.feed.waiting = s.feed.waiting ++ [stray] ∧ u.channel (otherChannel c) = s.channel (otherChannel c)
      (x.state = .opened → (s.record w.outlet).state ≠ .active →
        released t ∧ (t.condition .feedJam).source = (t.meetsJam .a || t.meetsJam .b) ∧
        (∀ y : Cond, y ≠ .feedJam → t.condition y = s.condition y) ∧
        t.channel c = { x with
          state := .wait, pause := none, blockedSince := some s.now
          blockTimer := some (s.now + s.params.blockS * 1000)
          blockReason := match s.acceptance w.segment with
            | .noReference => .noRef
            | .full => .segmentFull
            | .accepts => if (s.wall w.segment).claim = some (otherChannel c) then .segmentBusy
              else if s.outletClaim w.outlet = some (otherChannel c) then .outletBusy else .notReady }) ∧
      (x.state = .closing → x.closeCause = some .stop ∨ x.closeCause = some .halt →
        released t ∧ t.channel c = { x with state := .stopped }) ∧
      (x.state = .closing → x.closeCause ≠ some .stop → x.closeCause ≠ some .halt →
        ∃ u, released u ∧ u.channel c = x ∧ u = ((s.withFeed u.feed).withWalls u.walls).withRecords u.records ∧
          t = (u.finishDescriptor c).evaluateJam))) ∧
  (∀ (s : State) (c : Channel) (tag : Nat) (w : WorkingCopy), let x := s.channel c
    let r := s.releaseClaims c w
    let u := r.withFeed { r.feed with waiting := r.feed.waiting ++ [{
      isOpen := false, channel := c, slot := w.outlet, tag := tag, litres := 0, stray := true, since := s.now }] }
    x.tag = tag → x.openConfirmed = false → x.working = some w →
    (x.state = .opened → s.openMissed c tag = (u.resumeWait c).evaluateJam) ∧
    (x.state = .closing → x.closeCause = some .stop ∨ x.closeCause = some .halt →
      s.openMissed c tag = (u.setChannel c { x with state := .stopped }).evaluateJam) ∧
    (x.state = .closing → x.closeCause ≠ some .stop → x.closeCause ≠ some .halt →
      s.openMissed c tag = (u.finishDescriptor c).evaluateJam)) ∧
  (∀ (s : State) (c : Channel) (tag : Nat) (stray : Bool), let x := s.channel c
    (∀ w, stray = false → x.state = .closing → x.tag = tag → x.working = some w →
      s.closeMissed c tag stray = s.withFeed { s.feed with
        waiting := s.feed.waiting ++ [{
          isOpen := false, channel := c, slot := w.outlet, tag := tag, litres := 0, stray := false,
          since := s.now }] }) ∧
    (stray = true ∨ x.state ≠ .closing ∨ x.tag ≠ tag → s.closeMissed c tag stray = s))

/-! ## Timers -/

/-- SILENCE_EXPIRY in CLIMB, TRIM or HOLD at or after the expiry time raises CONSOLE_SILENT if its source is inactive; where
the condition was IDLE, CLIMB and TRIM become HOLD, handed to the six blocks, and else mode and hand-offs stay.
STROKE_WINDOW_EXPIRY at or after the window's end makes the dispatch IDLE; RELAY_RESULT_EXPIRY 30,000 ms after completion
frees the relay slot and counts a discard. Before its time, or where its timer does not run, none of the three changes
anything (notes/assumptions/2.md). -/
def Obligations.PlainTimersExpire : Prop :=
  (∀ s : State, s.running = true → s.console.silence.latestValid + s.params.silenceMs ≤ s.now →
    s.console.silence.evaluated = true → s.mode = .climb ∨ s.mode = .trim ∨ s.mode = .hold →
    (s.condition .consoleSilent).source = false →
    ∃ t, exec .silenceExpiry s = .next t ∧
      t = ((s.withConditions t.conditions).withMode t.mode).withTransit t.transit ∧
      t.condition .consoleSilent = { s.condition .consoleSilent with
        state := .raised, source := true, count := min 255 ((s.condition .consoleSilent).count + 1) } ∧
      (∀ c : Cond, c ≠ .consoleSilent → t.condition c = s.condition c) ∧ t.conditions.masked = s.conditions.masked ∧
      (let holds := (s.condition .consoleSilent).state = .idle ∧ (s.mode = .climb ∨ s.mode = .trim)
       (holds → t.mode = .hold ∧ t.transit = s.transit.handed { old := s.mode, new := .hold, moment := s.now }) ∧
       (¬ holds → t.mode = s.mode ∧ t.transit = s.transit))) ∧
  (∀ s : State, s.running = true → s.now < s.console.silence.latestValid + s.params.silenceMs ∨
    s.console.silence.evaluated = false ∨ s.mode = .idle ∨ s.mode = .halt ∨ (s.condition .consoleSilent).source = true →
    exec .silenceExpiry s = .next s) ∧
  (∀ (s : State) (ends : Nat), s.running = true → s.dispatch.state = .window → s.dispatch.windowEndsAt = some ends →
    ends ≤ s.now → exec .strokeWindowExpiry s = .next (s.withDispatch
      { state := .idle, tag := none, entries := [], cursor := none, windowEndsAt := none })) ∧
  (∀ s : State, s.running = true → s.dispatch.state ≠ .window ∨ (∀ ends ∈ s.dispatch.windowEndsAt, s.now < ends) →
    exec .strokeWindowExpiry s = .next s) ∧
  (∀ (s : State) (i : RelayIx), s.running = true →
    (∀ x done, s.relaySlot i = some x → x.completion = some done → s.now < done + 30000) →
    exec (.relayResultExpiry i) s = .next s) ∧
  (∀ (s : State) (i : RelayIx) (x : RelaySlot) (done : Nat), s.running = true → s.relaySlot i = some x →
    x.completion = some done → done + 30000 ≤ s.now →
    ∃ t, exec (.relayResultExpiry i) s = .next t ∧ t = s.withRelays t.relays ∧ t.relaySlot i = none ∧
      (∀ j, j ≠ i → t.relaySlot j = s.relaySlot j) ∧ t.relays.discards = min 65535 (s.relays.discards + 1))

/-- DWELL_EXPIRY at or after the dwell's end: the open channel asks for CLOSE with cause DWELL. PAUSE_EXPIRY of a pause before the same descriptor returns the channel to WAIT, where it
opens or waits under the reason found; with a void copy the descriptor is finished; a pause AFTER a descriptor ends in the
choice of the next work. BLOCK_TIMER_EXPIRY of a waiting channel is an open test: a void copy finishes the descriptor, a
test that passes opens, another reason than the recorded one starts the block anew, and the same reason makes FEED_JAM's
source active unless it is SEGMENT_FULL and the deferral test passes: then the descriptor joins the deferred list, unless
it is in it, and the channel chooses its next work without a working copy. The other channel stays, and so do the
conditions but FEED_JAM, which is evaluated (ConditionsRaiseAndClear): active while a channel meets the jam test (Jams,
Safety.lean), the detail being 0 for channel A, also where both meet it, and 1 for channel B. Before its time, or where no
such timer runs, none of the three changes anything (notes/assumptions/2.md). That the deferral test judges by the result that has reached the engine, not by
one published since, is the model's reading (notes/assumptions/11.md). -/
def Obligations.FeedTimersExpire : Prop :=
  (∀ (s : State) (c : Channel) (w : WorkingCopy), s.running = true → (s.channel c).working = some w →
    let x := s.channel c
    let block (r : BlockReason) : ChannelContext := { x with
      state := .wait, pause := none, blockReason := r, blockedSince := some s.now
      blockTimer := some (s.now + s.params.blockS * 1000) }
    (∀ ends, x.state = .opened → x.dwellEndsAt = some ends → ends ≤ s.now →
      ∃ t, exec (.dwellExpiry c) s = .next t ∧ t = (s.withFeed t.feed).withConditions t.conditions ∧
        (∀ y : Cond, y ≠ .feedJam → t.condition y = s.condition y) ∧
        t.feed = { s.feed.setChannel c { x with
            state := .closing, closeCause := some .dwell, closeSent := x.openConfirmed } with
          waiting := s.feed.waiting ++ (if x.openConfirmed then
            [{ isOpen := false, channel := c, slot := w.outlet, tag := x.tag, litres := 0, stray := false,
               since := s.now }] else []) }) ∧
    (∀ ends, x.state = .paused → x.pause = some { endsAt := ends, kind := .resume } → ends ≤ s.now → x.void = false →
      ∃ t, exec (.pauseExpiry c) s = .next t ∧
        t = (((s.withFeed t.feed).withWalls t.walls).withRecords t.records).withConditions t.conditions ∧
        (∀ y : Cond, y ≠ .feedJam → t.condition y = s.condition y) ∧
        (t.condition .feedJam).source = (t.meetsJam .a || t.meetsJam .b) ∧
        (s.blockFor c w = .none → s.Opens c { x with pause := none } w t) ∧
        (s.blockFor c w ≠ .none → t.walls = s.walls ∧ t.records = s.records ∧
          t.feed = s.feed.setChannel c (block (s.blockFor c w)))) ∧
    (∀ ends, x.state = .paused → x.pause = some { endsAt := ends, kind := .resume } → ends ≤ s.now → x.void = true →
      exec (.pauseExpiry c) s = .next (s.finishDescriptor c).evaluateJam) ∧
    (∀ ends, x.state = .wait → x.blockTimer = some ends → ends ≤ s.now →
      (x.void = true → exec (.blockTimerExpiry c) s = .next (s.finishDescriptor c).evaluateJam) ∧
      (x.void = false → s.blockFor c w = .none →
        ∃ t, exec (.blockTimerExpiry c) s = .next t ∧ s.Opens c x w t ∧
          t = (((s.withFeed t.feed).withWalls t.walls).withRecords t.records).withConditions t.conditions ∧
          (∀ y : Cond, y ≠ .feedJam → t.condition y = s.condition y)) ∧
      (x.void = false → s.blockFor c w ≠ .none → s.blockFor c w ≠ x.blockReason → 0 < s.params.blockS →
        ∃ t, exec (.blockTimerExpiry c) s = .next t ∧ t = (s.withFeed t.feed).withConditions t.conditions ∧
          (∀ y : Cond, y ≠ .feedJam → t.condition y = s.condition y) ∧
          t.feed = s.feed.setChannel c { x with
            blockReason := s.blockFor c w, blockedSince := some s.now
            blockTimer := some (s.now + s.params.blockS * 1000) }) ∧
      (x.void = false → s.blockFor c w = x.blockReason → x.blockReason ≠ .none →
        x.blockReason ≠ .segmentFull ∨ (∃ d, x.current = some d ∧ ¬ s.MayDefer x d) →
        ∃ t, exec (.blockTimerExpiry c) s = .next t ∧ t = s.withConditions t.conditions ∧
          (∀ y : Cond, y ≠ .feedJam → t.condition y = s.condition y) ∧
          (t.condition .feedJam).source = true ∧
          ((s.condition .feedJam).source = false → (t.condition .feedJam).state = .raised ∧
            (t.condition .feedJam).count = min 255 ((s.condition .feedJam).count + 1))) ∧
      (∀ d, x.void = false → s.blockFor c w = .segmentFull → s.MayDefer x d →
        exec (.blockTimerExpiry c) s = .next (((s.setChannel c { x with
          working := none, deferred := if d ∈ x.deferred then x.deferred else x.deferred ++ [d] }).chooseNext
            c).evaluateJam)))) ∧
  (∀ (s : State) (c : Channel) (ends : Nat), s.running = true → (s.channel c).state = .paused →
    (s.channel c).pause = some { endsAt := ends, kind := .after } → ends ≤ s.now →
    exec (.pauseExpiry c) s = .next (s.chooseNext c).evaluateJam) ∧
  (∀ (s : State) (c : Channel), s.running = true → let x := s.channel c
    (x.state ≠ .opened ∨ (∀ ends ∈ x.dwellEndsAt, s.now < ends) → exec (.dwellExpiry c) s = .next s) ∧
    (x.state ≠ .paused ∨ (∀ p ∈ x.pause, s.now < p.endsAt) → exec (.pauseExpiry c) s = .next s) ∧
    (x.state ≠ .wait ∨ (∀ ends ∈ x.blockTimer, s.now < ends) → exec (.blockTimerExpiry c) s = .next s)) ∧
  (∀ s : State, ∃ a b : Bool, (a = true ↔ s.Jams (s.channel .a)) ∧ (b = true ↔ s.Jams (s.channel .b)) ∧
    s.evaluateJam = s.evaluate .feedJam (a || b) (some (if a then 0 else 1)))

/-! ## Arrivals -/

/-- DISPATCH_RESULT_ARRIVAL in CLIMB or TRIM with the dispatch IDLE starts a dispatch of every demand above 0, its tag the
low byte of the cycle number; the changes of mode taken before it have no further effect on it (notes/assumptions/13.md).
With no such demand, in another mode or during a dispatch the result has no effect. DISPATCH_MODE_ARRIVAL of a change to
IDLE, HOLD or HALT abandons a dispatch that is demanding or ready to go; it has no effect on a stroke window or an idle
dispatch. Each list is taken oldest first (notes/assumptions/3.md). A change that the result's own computation made has been
taken when the result arrives (notes/assumptions/38.md). -/
def Obligations.DispatcherArrivals : Prop :=
  (∀ (s : State) (r : CycleResult) (rest : List CycleResult), s.running = true → s.transit.dispatchResults = r :: rest →
    let entries := (r.demands.filter fun d => decide (0 < d.demand)).map fun d =>
      ({ slot := d.slot, demand := d.demand, outcome := .pending } : DispatchEntry)
    (s.dispatch.state = .idle → s.mode = .climb ∨ s.mode = .trim → ∀ e es, entries = e :: es →
      exec .dispatchResultArrival s = .next ((s.withDispatch {
          state := .demanding, tag := some (r.cycleNumber % 256), entries := entries, cursor := some e.slot
          windowEndsAt := none }).withTransit
        { s.transit with dispatchResults := rest, dispatchModes := [] })) ∧
    (s.dispatch.state ≠ .idle ∨ (s.mode ≠ .climb ∧ s.mode ≠ .trim) ∨ entries = [] →
      exec .dispatchResultArrival s = .next (s.withTransit { s.transit with dispatchResults := rest }))) ∧
  (∀ (s : State) (m : ModeChange) (rest : List ModeChange), s.running = true → s.transit.dispatchModes = m :: rest →
    let u := s.withTransit { s.transit with dispatchModes := rest }
    let abandons := (m.new ≠ .climb ∧ m.new ≠ .trim) ∧ (s.dispatch.state = .demanding ∨ s.dispatch.state = .goReady)
    (abandons → exec .dispatchModeArrival s = .next (u.withDispatch
      { state := .idle, tag := none, entries := [], cursor := none, windowEndsAt := none })) ∧
    (¬ abandons → exec .dispatchModeArrival s = .next u))

/-- PLACEMENT_RESULT_ARRIVAL with a bottom B: every enabled segment retires from the old end the records whose top is at
or below B, its base becoming the top of the last one retired; a record left that is unset with its bottom below B is
flagged. Every record retired unset and unflagged, and every record newly flagged, raises GREEN_EXIT once, the detail the
highest segment that raised; leaving IDLE it moves CLIMB and TRIM to HOLD. Tops, remainders, totals and claims stay, and so
do segments that are not enabled. Without a B no queue changes. The result becomes the Placement Store's latest. The segment
summary then goes to the oldest beacon that waits for one: the enabled segments in ascending order, each with its top, its
queue length and the bottom of its oldest unset record, or none (Summarises, Safety.lean). Results are taken oldest first (notes/assumptions/3.md); one that was under way at a
RESTART comes before them, retires and checks, and does no more (notes/assumptions/10.md). -/
def Obligations.PlacementResultRetires : Prop :=
  let acts (s t : State) (r : CycleResult) (transit : Transit) : Prop :=
    let gone (k : SegmentIx) (b : Int) := (s.wall k).queue.takeWhile fun l => decide ((l.top : Int) ≤ b)
    let left (k : SegmentIx) (b : Int) := (s.wall k).queue.drop (gone k b).length
    let green (l : Layer) := decide (s.pourClock - l.placedAt < s.params.setAgeS)
    let raises (k : SegmentIx) : Nat := match r.bottom with
      | some b => if (s.segment k).enabled then (gone k b).countP (fun l => green l && !l.greenExited) +
          ((t.wall k).queue.countP Layer.greenExited - (left k b).countP Layer.greenExited) else 0
      | none => 0
    let n := (allSegments.map raises).sum
    let moved := 0 < n ∧ (s.condition .greenExit).state = .idle ∧ (s.mode = .climb ∨ s.mode = .trim)
    (∀ c : Cond, c ≠ .greenExit → t.condition c = s.condition c) ∧ t.conditions.masked = s.conditions.masked ∧
    (r.bottom = none → t.walls = s.walls) ∧
    (n = 0 → t.conditions = s.conditions) ∧
    (∀ k, 0 < raises k → (∀ j, k < j → raises j = 0) → t.condition .greenExit = {
      state := .uncleared, source := false, detail := some k.val
      count := min 255 ((s.condition .greenExit).count + n) }) ∧
    (moved → t.mode = .hold ∧ t.transit = transit.handed { old := s.mode, new := .hold, moment := s.now }) ∧
    (¬ moved → t.mode = s.mode ∧ t.transit = transit) ∧
    (∀ k, (s.segment k).enabled = false → t.wall k = s.wall k) ∧
    (∀ (b : Int) (k : SegmentIx), r.bottom = some b → (s.segment k).enabled = true →
      t.wall k = { s.wall k with base := (t.wall k).base, queue := (t.wall k).queue } ∧
      (t.wall k).base = (((gone k b).getLast?).map Layer.top).getD (s.wall k).base ∧
      (t.wall k).queue.length = (left k b).length ∧
      (∀ (n : Nat) (l : Layer), (left k b)[n]? = some l → (t.wall k).queue[n]? = some { l with
        greenExited := l.greenExited || (green l &&
          decide (((((left k b).take n).getLast?.map Layer.top).getD (t.wall k).base : Int) < b)) }))
  (∀ (s : State) (r : CycleResult) (rest : List CycleResult), s.running = true → s.transit.retirements = [] →
    s.transit.placementResults = r :: rest →
    ∃ t, exec .placementResultArrival s = .next t ∧ t.placementSeen = some r ∧
      acts s t r { s.transit with placementResults := rest } ∧
      t = (((((s.withPlacementSeen (some r)).withWalls t.walls).withConditions t.conditions).withMode t.mode).withTransit
        t.transit).withJobs t.jobs ∧
      ∃ summary, t.Summarises summary ∧
        (∀ before j after, s.jobs = before ++ j :: after → (∀ x ∈ before, x.summary ≠ none) → j.summary = none →
          t.jobs = before ++ { j with summary := some summary } :: after) ∧
        ((∀ x ∈ s.jobs, x.summary ≠ none) → t.jobs = s.jobs)) ∧
  (∀ (s : State) (r : CycleResult) (rest : List CycleResult), s.running = true → s.transit.retirements = r :: rest →
    ∃ t, exec .placementResultArrival s = .next t ∧ acts s t r { s.transit with retirements := rest } ∧
      t = (((s.withWalls t.walls).withConditions t.conditions).withMode t.mode).withTransit t.transit)

/-- MARKER_RESULT_ARRIVAL: a marker crosses if it is enabled and armed and its height is above the previous H_ref and not
above H_ref. The markers that cross fire one after another in ascending height, then index: exactly they become SPENT, and
the last of them is the latest fired, which goes to the beacon.
Each HOLD marker among them raises MARKER_HOLD, whose detail is the last one to fire; where it was IDLE, CLIMB or TRIM
becomes HOLD, handed to the six blocks. The last RATE marker sets rate_req within rate_max. Each FEED_STOP marker acts on
its channel as FEED STOP does: an OPEN one asks for CLOSE with cause STOP, sent now if its OPEN is confirmed, a CLOSING
one takes the cause STOP, a waiting or paused one stops; FEED_JAM is evaluated after each, in the mode in force then, so a
HOLD marker that fires after the last of them does not count for it. What no crossing marker names
stays. Each list is taken oldest first (notes/assumptions/3.md). -/
def Obligations.MarkersFire : Prop :=
  ∀ (s : State) (r : CycleResult) (rest : List CycleResult), s.running = true → s.transit.markerResults = r :: rest →
    let crosses (m : MarkerIx) := ∃ p h, r.previousHRef = some p ∧ r.hRef = some h ∧ (s.marker m).enabled = true ∧
      s.markers.spent.read m = false ∧ p < ((s.marker m).height : Int) ∧ ((s.marker m).height : Int) ≤ h
    ∃ (t : State) (fired : List MarkerIx), exec .markerResultArrival s = .next t ∧
      t = (((((((s.withMarkers t.markers).withConditions t.conditions).withMode t.mode).withTransit t.transit).withFeed
        t.feed).withParams t.params).withJobs t.jobs) ∧
      (∀ before j after, s.jobs = before ++ j :: after → (∀ x ∈ before, x.marker ≠ none) → j.marker = none →
        t.jobs = before ++ { j with marker := some t.markers.latest } :: after) ∧
      ((∀ x ∈ s.jobs, x.marker ≠ none) → t.jobs = s.jobs) ∧
      fired.Pairwise (fun a b => (s.marker a).height < (s.marker b).height ∨
        ((s.marker a).height = (s.marker b).height ∧ a < b)) ∧
      (∀ m, m ∈ fired ↔ crosses m) ∧
      t.markers.entries = s.markers.entries ∧
      (∀ m, t.markers.spent.read m = true ↔ s.markers.spent.read m = true ∨ m ∈ fired) ∧
      t.markers.latest = (match fired.getLast? with
        | some m => some m
        | none => s.markers.latest) ∧
      t.params = (match (fired.filterMap fun m => match (s.marker m).action with
          | .rate v => some v
          | _ => none).getLast? with
        | some v => s.params.set 11 (min v s.params.rateMax)
        | none => s.params) ∧
      (let stopped := fired.filterMap fun m => match (s.marker m).action with
          | .feedStop c => some c
          | _ => none
       t.feed = stopped.foldl (fun f c => f.stopped s.now .stop c) s.feed ∧
       (stopped = [] → t.condition .feedJam = s.condition .feedJam) ∧
       (∀ before m after c, fired = before ++ m :: after → (s.marker m).action = .feedStop c →
         (∀ n ∈ after, ∀ d, (s.marker n).action ≠ .feedStop d) →
         let u := t.withMode (if before.any (fun n => decide ((s.marker n).action = .hold)) = true ∧
           (s.condition .markerHold).state = .idle ∧ (s.mode = .climb ∨ s.mode = .trim) then .hold else s.mode)
         (t.condition .feedJam).source = (u.meetsJam .a || u.meetsJam .b))) ∧
      (let held := fired.filter fun m => decide ((s.marker m).action = .hold)
       let old := s.condition .markerHold
       let u : Transit := { s.transit with markerResults := rest }
       (held = [] → t.condition .markerHold = old) ∧
       (∀ m, held.getLast? = some m → t.condition .markerHold = {
         state := .uncleared, source := false, detail := some m.val, count := min 255 (old.count + held.length) }) ∧
       (held ≠ [] → old.state = .idle → s.mode = .climb ∨ s.mode = .trim → t.mode = .hold ∧
         t.transit = u.handed { old := s.mode, new := .hold, moment := s.now }) ∧
       (held = [] ∨ old.state ≠ .idle ∨ (s.mode ≠ .climb ∧ s.mode ≠ .trim) → t.mode = s.mode ∧ t.transit = u)) ∧
      (∀ c : Cond, c ≠ .markerHold → c ≠ .feedJam → t.condition c = s.condition c) ∧
      t.conditions.masked = s.conditions.masked

/-- FEED_RESULT_ARRIVAL makes the result the engine's latest and FEED_MODE_ARRIVAL takes a change of rise mode, each oldest
first (notes/assumptions/3.md). At a result each channel makes its open test and its FULL test, at a change its open
test, one channel after the other in an order that is free (notes/assumptions/5.md). At a change to HALT in HALT both
channels stop with cause HALT, as they did in the event that made it (Halts, Safety.lean; that it stops no channel once the
mode has left HALT is the model's reading, notes/assumptions/3.md). FEED_JAM is evaluated (FeedTimersExpire).
The open test, of a waiting channel only: a void copy finishes the descriptor; with no reason the channel opens; else a
new reason is recorded, and SEGMENT_FULL makes the deferral test. The reason is, in this order: NO_REF without an H_ref,
SEGMENT_FULL unless the segment is enabled and its top below H_ref - freeboard, SEGMENT_BUSY and OUTLET_BUSY by the other
channel's claims, NOT_READY unless the outlet is ACTIVE with READY and no fault. Acceptance is judged by the result that has
reached the Placement Store, the FULL test by the one that has reached the engine (notes/assumptions/11.md); a segment not
enabled counts as full (notes/assumptions/28.md). The FULL test, of a confirmed opening: at a provisional top at or above
H_ref - freeboard the channel asks for CLOSE with cause FULL.
At a commit a copy whose segment or outlet goes is void and the block timers count anew; then the channels act one after the
other in a free order, on which a release lets the other one test (PlaceTurnsLitresIntoHeight). A waiting channel makes its
open test; an opening whose segment goes asks for CLOSE with cause VOID; one whose outlet goes ends with its claims, in STOPPED
for STOP and HALT, else with the descriptor finished. Waiting exchanges of slots not enabled are withdrawn
(notes/assumptions/20.md). -/
def Obligations.FeedArrivals : Prop :=
  (∀ (s : State) (r : CycleResult) (rest : List CycleResult), s.running = true → s.transit.feedResults = r :: rest →
    let u := ((s.withTransit { s.transit with feedResults := rest }).withFeed { s.feed with seen := some r }).withFree
      (s.free + 1)
    ∃ c, exec .feedResultArrival s = .next ((((((u.openTest c).fullTest c).openTest (otherChannel c)).fullTest
      (otherChannel c))).evaluateJam)) ∧
  (∀ (s : State) (m : ModeChange) (rest : List ModeChange), s.running = true → s.transit.feedModes = m :: rest →
    let u := (s.withTransit { s.transit with feedModes := rest }).withFree (s.free + 1)
    let closes (c : Channel) : List FeedExchange := match (s.channel c).state, (s.channel c).working with
      | .opened, some w => if (s.channel c).openConfirmed then
          [{ isOpen := false, channel := c, slot := w.outlet, tag := (s.channel c).tag, litres := 0, stray := false,
             since := s.now }] else []
      | _, _ => []
    (m.new ≠ .halt ∨ s.mode ≠ .halt → ∃ c, exec .feedModeArrival s = .next ((u.openTest c).openTest (otherChannel c)).evaluateJam) ∧
    (m.new = .halt → s.mode = .halt → ∃ t, exec .feedModeArrival s = .next t ∧
      (s.withTransit { s.transit with feedModes := rest }).Halts t ∧ t = (u.withFeed t.feed).withConditions t.conditions ∧
      (∀ y : Cond, y ≠ .feedJam → t.condition y = s.condition y) ∧ (t.condition .feedJam).source = false ∧
      t.feed = { s.feed with channelA := t.feed.channelA, channelB := t.feed.channelB, waiting := t.feed.waiting } ∧
      (t.feed.waiting = s.feed.waiting ++ closes .a ++ closes .b ∨
        t.feed.waiting = s.feed.waiting ++ closes .b ++ closes .a) ∧
      (∀ c, let x := s.channel c
        (x.state = .opened → x.working ≠ none → t.channel c = { x with
          state := .closing, closeCause := some .halt, closeSent := x.openConfirmed }) ∧
        (x.state = .closing → t.channel c = { x with closeCause := some .halt }) ∧
        (x.state = .wait → t.channel c = { x with
          state := .stopped, blockReason := .none, blockedSince := none, blockTimer := none }) ∧
        (x.state = .paused → t.channel c = { x with state := .stopped, pause := none }) ∧
        (x.state = .idle ∨ x.state = .done ∨ x.state = .stopped → t.channel c = x)))) ∧
  (∀ (s : State) (c : Channel) (w : WorkingCopy), (s.channel c).working = some w →
    let x := s.channel c
    let o := otherChannel c
    let t := s.openTest c
    let reason := s.blockFor c w
    let y : ChannelContext := if x.blockReason = reason then x else { x with
      blockReason := reason, blockedSince := some s.now, blockTimer := some (s.now + s.params.blockS * 1000) }
    let h := s.placementSeen.bind CycleResult.hRef
    let accepts := ∃ z, h = some z ∧ (s.segment w.segment).enabled = true ∧ (s.wall w.segment).top < z - s.params.freeboard
    let ready := (s.record w.outlet).state = .active ∧ ∃ ended delivered tag,
      (s.record w.outlet).lastReport = some (.outlet true ended false delivered tag)
    (x.state ≠ .wait → t = s) ∧
    (x.state = .wait → x.void = true → t = (s.finishDescriptor c).evaluateJam) ∧
    (x.state = .wait → x.void = false → reason = .none → s.Opens c x w t ∧
      t = (((s.withFeed t.feed).withWalls t.walls).withRecords t.records).withConditions t.conditions ∧
      (t.condition .feedJam).source = (t.meetsJam .a || t.meetsJam .b) ∧
      (∀ z : Cond, z ≠ .feedJam → t.condition z = s.condition z)) ∧
    (x.state = .wait → x.void = false → reason ≠ .none →
      ((∀ d, ¬ s.MayDefer y d) → t = (s.setChannel c y).evaluateJam) ∧
      (∀ d, s.MayDefer y d → t = ((s.setChannel c { y with
        working := none, deferred := if d ∈ x.deferred then x.deferred else x.deferred ++ [d] }).chooseNext
          c).evaluateJam)) ∧
    (h = none → reason = .noRef) ∧
    (h ≠ none → ¬ accepts → reason = .segmentFull) ∧
    (accepts → (s.wall w.segment).claim = some o → reason = .segmentBusy) ∧
    (accepts → (s.wall w.segment).claim ≠ some o → s.outletClaim w.outlet = some o → reason = .outletBusy) ∧
    (accepts → (s.wall w.segment).claim ≠ some o → s.outletClaim w.outlet ≠ some o → ¬ ready → reason = .notReady) ∧
    (accepts → (s.wall w.segment).claim ≠ some o → s.outletClaim w.outlet ≠ some o → ready → reason = .none)) ∧
  (∀ (s : State) (c : Channel) (w : WorkingCopy), (s.channel c).working = some w →
    let x := s.channel c
    let top : Int := (((s.wall w.segment).top +
      (x.delivered * 100000 + (s.wall w.segment).remainder) / (s.segment w.segment).area : Nat) : Int)
    let full := x.state = .opened ∧ x.openConfirmed = true ∧ ∃ h, s.feed.seen.bind CycleResult.hRef = some h ∧
      h - s.params.freeboard ≤ top
    (full → s.fullTest c = s.askClose c .full) ∧ (¬ full → s.fullTest c = s) ∧
    (∀ cause, x.state = .opened → s.askClose c cause = (s.withFeed { s.feed.setChannel c { x with
        state := .closing, closeCause := some cause, closeSent := x.openConfirmed } with
      waiting := s.feed.waiting ++ (if x.openConfirmed then
        [{ isOpen := false, channel := c, slot := w.outlet, tag := x.tag, litres := 0, stray := false,
           since := s.now }] else []) }).evaluateJam) ∧
    (∀ cause, x.state ≠ .opened → s.askClose c cause = s)) ∧
  (∀ (s : State) (nodes : Table NodeEntry 128) (segments : Table SegmentEntry 32) (c : Channel) (w : WorkingCopy),
    (s.channel c).working = some w → (s.channel (otherChannel c)).working = none →
    let x := s.channel c
    let o := nodes.read w.outlet
    let n := s.node w.outlet
    let segmentGone := (segments.read w.segment).enabled = true ∧ (s.segment w.segment).enabled = false
    let outletGone := (o.enabled = true ∧ n.enabled = false) ∨
      (n.enabled = true ∧ (o.enabled = false ∨ o.address ≠ n.address ∨ o.kind ≠ n.kind))
    let timed (y : ChannelContext) : ChannelContext := { y with
      blockTimer := y.blockedSince.map fun since => since + s.params.blockS * 1000 }
    let base := (((s.setChannel c (timed x)).setChannel (otherChannel c) (timed (s.channel (otherChannel c))))).withFree
      (s.free + 1)
    let u := base.setChannel c { timed x with void := true }
    let ends (v : State) := s.commitFeed nodes segments = (v.withFeed { v.feed with
      waiting := v.feed.waiting.filter fun e => (v.node e.slot).enabled }).evaluateJam
    (¬ segmentGone → ¬ outletGone → x.state = .wait → ends (base.openTest c)) ∧
    (¬ segmentGone → ¬ outletGone → x.state ≠ .wait → ends base) ∧
    (segmentGone ∨ outletGone → x.state = .wait → ends (u.openTest c)) ∧
    (segmentGone → ¬ outletGone → x.state = .opened → ends (u.askClose c .void)) ∧
    (outletGone → x.state = .opened ∨ x.state = .closing →
      let v := (u.withFeed { u.feed with waiting := u.feed.waiting.filter fun e => decide (e.channel ≠ c) || e.stray
        }).dropClaims c w
      let y : ChannelContext := { timed x with void := true, dwellEndsAt := none }
      (x.closeCause = some .stop ∨ x.closeCause = some .halt → ends (v.setChannel c { y with state := .stopped })) ∧
      (x.closeCause ≠ some .stop → x.closeCause ≠ some .halt → ends ((v.setChannel c y).finishDescriptor c))) ∧
    (segmentGone ∨ outletGone → (x.state = .closing ∧ ¬ outletGone) ∨ x.state = .idle ∨ x.state = .paused ∨
      x.state = .done ∨ x.state = .stopped → ends u)) ∧
  (∀ (s : State) (nodes : Table NodeEntry 128) (segments : Table SegmentEntry 32),
    let segmentGone (w : WorkingCopy) := (segments.read w.segment).enabled = true ∧ (s.segment w.segment).enabled = false
    let outletGone (w : WorkingCopy) := let o := nodes.read w.outlet
      let n := s.node w.outlet
      (o.enabled = true ∧ n.enabled = false) ∨
        (n.enabled = true ∧ (o.enabled = false ∨ o.address ≠ n.address ∨ o.kind ≠ n.kind))
    let timed (x : ChannelContext) : ChannelContext := { x with
      blockTimer := x.blockedSince.map fun since => since + s.params.blockS * 1000
      void := x.void || match x.working with
        | some w => decide (segmentGone w ∨ outletGone w)
        | none => false }
    let removed (c : Channel) (w : WorkingCopy) (v : State) : State :=
      let r := (v.withFeed { v.feed with waiting := v.feed.waiting.filter fun e => decide (e.channel ≠ c) || e.stray
        }).releaseClaims c w
      let y : ChannelContext := { r.channel c with dwellEndsAt := none }
      if y.closeCause = some .stop ∨ y.closeCause = some .halt then r.setChannel c { y with state := .stopped }
      else (r.setChannel c y).finishDescriptor c
    let acts (c : Channel) (v : State) : State := match (s.channel c).working, (s.channel c).state with
      | some _, .wait => v.openTest c
      | some w, .opened => if outletGone w then removed c w v else if segmentGone w then v.askClose c .void else v
      | some w, .closing => if outletGone w then removed c w v else v
      | _, _ => v
    let u := ((s.setChannel .a (timed (s.channel .a))).setChannel .b (timed (s.channel .b))).withFree (s.free + 1)
    ∃ first, let v := acts (otherChannel first) (acts first u)
      s.commitFeed nodes segments = (v.withFeed { v.feed with
        waiting := v.feed.waiting.filter fun e => (v.node e.slot).enabled }).evaluateJam)

/-- SPREAD_SWITCH_ARRIVAL: the switch takes effect only if the rise mode is still the one it leaves; the change is then
handed to each of the six blocks. Nothing else changes. -/
def Obligations.SpreadSwitchTakesEffect : Prop :=
  ∀ (s : State) (x : SpreadSwitch) (rest : List SpreadSwitch), s.running = true →
    s.transit.spreadSwitches = x :: rest →
    (s.mode ≠ x.leaves → exec .spreadSwitchArrival s = .next (s.withTransit { s.transit with spreadSwitches := rest })) ∧
    (s.mode = x.leaves → x.leaves ≠ x.enters →
      let m : ModeChange := { old := x.leaves, new := x.enters, moment := s.now }
      exec .spreadSwitchArrival s = .next ((s.withMode x.enters).withTransit { s.transit with
        spreadSwitches := rest
        sweepModes := s.transit.sweepModes ++ [m], dispatchModes := s.transit.dispatchModes ++ [m]
        rateModes := s.transit.rateModes ++ [m], feedModes := s.transit.feedModes ++ [m]
        silenceModes := s.transit.silenceModes ++ [m], relayModes := s.transit.relayModes ++ [m] }))

/-- A change of rise mode at the other blocks. SWEEP_MODE_ARRIVAL counts the due time afresh from the latest sweep start
with the period of the mode, an instant passed becoming the present one. RATE_CLOCK_MODE_ARRIVAL sets the rate clock start
at an entry to CLIMB from IDLE or HOLD, drops it on leaving CLIMB and keeps it at a change from TRIM to CLIMB, whose
computation has set it. SILENCE_MODE_ARRIVAL starts the silence timer on
entering CLIMB, TRIM or HOLD from IDLE or HALT and ends it on leaving for them. RELAY_MODE_ARRIVAL of an entry to CLIMB or
TRIM from IDLE or HOLD fails the relays to enabled jacks that were queued by the moment of the entry; that those queued
in a later millisecond stay is the model's reading (notes/assumptions/30.md). An entry that arrives after a later valid frame does not
move the silence timer back (notes/assumptions/24.md). Each list is taken oldest first (notes/assumptions/3.md). -/
def Obligations.ModeArrivals : Prop :=
  (∀ (s : State) (m : ModeChange) (rest : List ModeChange), s.running = true → s.transit.sweepModes = m :: rest →
    let u := s.withTransit { s.transit with sweepModes := rest }
    let period := if s.mode = .idle ∨ s.mode = .halt then s.params.idleMs else s.params.cycleMs
    (∀ start, s.sweep.startedAt = some start → exec .sweepModeArrival s = .next (u.withSweep { s.sweep with
      dueAt := max s.now (start + period) })) ∧
    (s.sweep.startedAt = none → exec .sweepModeArrival s = .next u)) ∧
  (∀ (s : State) (m : ModeChange) (rest : List ModeChange), s.running = true → s.transit.rateModes = m :: rest →
    ∃ t, exec .rateClockModeArrival s = .next t ∧
      t = (s.withTransit { s.transit with rateModes := rest }).withLevel { s.level with rateClock := t.level.rateClock } ∧
      (m.new = .climb → m.old = .idle ∨ m.old = .hold → t.level.rateClock = some m.moment) ∧
      (m.new = .climb → m.old = .trim → t.level.rateClock = s.level.rateClock) ∧
      (m.old = .climb → m.new ≠ .climb → t.level.rateClock = none) ∧
      (m.old ≠ .climb → m.new ≠ .climb → t.level.rateClock = s.level.rateClock)) ∧
  (∀ (s : State) (m : ModeChange) (rest : List ModeChange), s.running = true → s.transit.silenceModes = m :: rest →
    let live (x : RiseMode) := x = .climb ∨ x = .trim ∨ x = .hold
    ∃ t, exec .silenceModeArrival s = .next t ∧
      t = (s.withTransit { s.transit with silenceModes := rest }).withConsole { s.console with
        silence := t.console.silence } ∧
      (live m.new → ¬ live m.old → t.console.silence.evaluated = true ∧
        (s.console.silence.latestValid ≤ m.moment → t.console.silence.latestValid = m.moment) ∧
        (m.moment < s.console.silence.latestValid →
          t.console.silence.latestValid = s.console.silence.latestValid)) ∧
      (live m.new → live m.old → t.console.silence = s.console.silence) ∧
      (¬ live m.new → t.console.silence.evaluated = false ∧
        t.console.silence.latestValid = s.console.silence.latestValid)) ∧
  (∀ (s : State) (m : ModeChange) (rest : List ModeChange), s.running = true → s.transit.relayModes = m :: rest →
    let enters := (m.new = .climb ∨ m.new = .trim) ∧ (m.old = .idle ∨ m.old = .hold)
    ∃ t, exec .relayModeArrival s = .next t ∧
      t = (s.withTransit { s.transit with relayModes := rest }).withRelays t.relays ∧
      t.relays.discards = s.relays.discards ∧
      (∀ i x, s.relaySlot i = some x → enters → x.state = .queued → (s.node x.target).enabled = true →
        (s.node x.target).kind = .jack → x.queuedAt ≤ m.moment →
        t.relaySlot i = some { x with state := .failed, completion := some m.moment, result := none }) ∧
      (∀ i x, s.relaySlot i = some x → ¬ enters ∨ x.state ≠ .queued ∨ (s.node x.target).enabled = false ∨
        (s.node x.target).kind ≠ .jack ∨ m.moment < x.queuedAt → t.relaySlot i = some x) ∧
      (∀ i, s.relaySlot i = none → t.relaySlot i = none))

/-! ## The console line and the beacon -/

/-- CONSOLE_SEND with the transmitter free: the oldest reply first, then the next frame of the beacon being sent, then the
unsent beacon, then the head of the forward queue if its frame fits the forward budget, which it is taken from. A frame is
built when its sending begins (notes/assumptions/23.md), goes on the line, and nothing else changes. With a frame on the
line nothing begins.
How the forward queue fills: a valid report goes to the lowest enabled agent whose kind and range take its slot, and to no
other. The agent counts it; at every N it counts from 0 again and makes a record, FULL with the node state, the pour clock
and the report, or COMPACT with one value, a jack's being its height less the previous height. A record joins a queue of
fewer than 32 behind all of equal or higher rank. In a full queue a record of higher rank than the newest of the lowest rank
takes that one's place in the queue's order, at the cost of a drop counted for that one's agent; any other is dropped and
counted for its own agent, up to 65,535. A head that does not fit, as it becomes the head or the budget falls, holds every FORWARD frame until the next refill; that it
is judged at that moment, the line busy or not, is the model's reading (notes/assumptions/40.md).
The bytes (SpelledBy, Safety.lean): a reply, COMMIT_DONE or OVERFLOW record, a time being its signed distance from this
moment, four free bytes where it does not fit (notes/assumptions/8.md); a FORWARD record; the entry of each beacon section;
an enumerated field by its place among its values (a condition's class and kind by notes/assumptions/18.md). A BEACON frame
takes the next entries in order, as many whole ones as fit in 234 bytes. -/
def Obligations.ConsoleSendsByRank : Prop :=
  let tooLong (q : List ForwardRecord) (budget : Nat) : Bool := match q with
    | [] => false
    | r :: _ => decide (budget < (envelopeFrame { address := 0, kind := 0x24, payload := r.payload }).length)
  (∀ s : State, s.running = true → let k := s.console
    let beacon (left : Option Beacon) (b : BeaconSending) : Console :=
      let f := fillFrame 234 b.rest
      { k with
        unsent := left
        sending := some { b with nextEntry := b.nextEntry + f.1.length, rest := f.2 }
        tx := some { kind := .beacon (b.nextEntry == 0) f.2.isEmpty b.start
                     frame := envelopeFrame { address := 0, kind := 0x23
                                              payload := u32 b.cycle ++ u16 b.nextEntry ++
                                                (f.1.map BeaconEntry.encode).flatten } } }
    (k.tx ≠ none → exec .consoleSend s = .next s) ∧
    (∀ r rest, k.tx = none → k.replies = r :: rest → exec .consoleSend s = .next (s.withConsole { k with
      replies := rest
      tx := some { kind := .reply
                   frame := envelopeFrame { address := 0, kind := 0x22, payload := r.payload s.now } } })) ∧
    (∀ b, k.tx = none → k.replies = [] → k.sending = some b → exec .consoleSend s = .next (s.withConsole (beacon k.unsent b))) ∧
    (∀ b, k.tx = none → k.replies = [] → k.sending = none → k.unsent = some b →
      exec .consoleSend s = .next (s.withConsole (beacon none
        { cycle := b.cycle, start := b.start, nextEntry := 0, rest := b.entries }))) ∧
    (∀ r rest, k.tx = none → k.replies = [] → k.sending = none → k.unsent = none → k.forward = r :: rest →
      let frame := envelopeFrame { address := 0, kind := 0x24, payload := r.payload }
      let budget := k.budget - frame.length
      (k.forwardHeld = false → frame.length ≤ k.budget → exec .consoleSend s = .next (s.withConsole { k with
        forward := rest, budget := budget, forwardHeld := tooLong rest budget
        tx := some { kind := .forward, frame := frame } })) ∧
      (k.forwardHeld = true ∨ k.budget < frame.length → exec .consoleSend s = .next s))) ∧
  (∀ (s : State) (i : Slot) (kind : NodeKind) (previous : Option Nat) (report : Report),
    let entry (a : AgentIx) := s.agents.entries.read a
    let takes (a : AgentIx) := (entry a).enabled = true ∧ (entry a).low ≤ i ∧ i ≤ (entry a).high ∧
      match (entry a).matchKind with
        | .any => True
        | .jack => kind = .jack
        | .outlet => kind = .outlet
        | .sensor => kind = .sensor
    let t := s.offerReport i kind previous report
    ((∀ a, ¬ takes a) → t = s) ∧
    (∀ a, takes a → (∀ b, b < a → ¬ takes b) →
      let n := s.agents.counters.read a + 1
      let counted (n : Nat) := s.withAgents { s.agents with counters := s.agents.counters.write a n }
      let r : ForwardRecord := {
        agent := a, rank := (entry a).rank, slot := i, kind := kind
        content := match (entry a).form, report with
          | .full, _ => .full (s.record i).state s.pourClock report
          | .compact, .jack height _ _ => .compact (previous.map fun p => (height : Int) - p)
          | .compact, .outlet _ _ _ delivered _ => .compact (some delivered)
          | .compact, .sensor value _ => .compact (some value) }
      (n ≠ (entry a).everyN → t = counted n) ∧ (n = (entry a).everyN → t = (counted 0).enqueueForward r))) ∧
  (∀ (s : State) (r : ForwardRecord), s.ForwardInv →
    let q := s.console.forward
    let t := s.enqueueForward r
    let joins (q : List ForwardRecord) : Console :=
      let joined := q.filter (fun x => decide (x.rank ≤ r.rank)) ++ r :: q.filter (fun x => decide (r.rank < x.rank))
      { s.console with forward := joined, forwardHeld := s.console.forwardHeld || tooLong joined s.console.budget }
    let drops (a : AgentIx) : Agents := { s.agents with
      drops := s.agents.drops.write a (min 65535 (s.agents.drops.read a + 1)) }
    (q.length < 32 → t = s.withConsole (joins q)) ∧
    (∀ before newest, q.length = 32 → q = before ++ [newest] →
      (r.rank < newest.rank → t = (s.withConsole (joins before)).withAgents (drops newest.agent)) ∧
      (newest.rank ≤ r.rank → t = s.withAgents (drops r.agent)))) ∧
  (∀ (r : ReplyRecord) (now : Nat), r.SpelledBy now (r.payload now)) ∧
  (∀ r : ForwardRecord, r.SpelledBy r.payload) ∧
  (∀ e : BeaconEntry, e.SpelledBy e.encode) ∧
  CodesInOrder ∧
  (∀ (room : Nat) (es : List BeaconEntry), let f := fillFrame room es
    let size (xs : List BeaconEntry) := (xs.map fun e => e.encode.length).sum
    f.1 ++ f.2 = es ∧ size f.1 ≤ room ∧ ∀ e rest, f.2 = e :: rest → room < size f.1 + e.encode.length)

/-- CONSOLE_FRAME_SENT frees the transmitter; the first frame of a beacon with START ends the start flag, the last frame of
a beacon ends its sending. CONSOLE_FRAME_REJECT counts a frame that is not valid, up to 65,535. Nothing else changes. -/
def Obligations.FramesSentAndRejected : Prop :=
  (∀ (s : State) (x : ConsoleTx), s.running = true → s.console.tx = some x →
    ∃ t, exec .consoleFrameSent s = .next t ∧ t = s.withConsole { s.console with
        tx := none, startFlag := t.console.startFlag, sending := t.console.sending } ∧
      (x.kind = .reply ∨ x.kind = .forward → t.console.startFlag = s.console.startFlag ∧
        t.console.sending = s.console.sending) ∧
      (∀ first last start, x.kind = .beacon first last start →
        t.console.startFlag = (s.console.startFlag && !(first && start)) ∧
        t.console.sending = if last then none else s.console.sending)) ∧
  (∀ (s : State) (f : RxFrame), s.running = true → (Instr.consoleFrameReject f).wf = true →
    exec (.consoleFrameReject f) s = .next (s.withConsole { s.console with
      receptionErrors := min 65535 (s.console.receptionErrors + 1) }))

/-- BEACON_BUILD with the segment summary and the latest fired marker of the oldest computation in hand: the beacon
replaces an unsent one; its entries are the head, the enabled sections in their order, and the end. A section is enabled
where its parameter is 1 (notes/assumptions/41.md). The CONDITIONS section carries the lowest-numbered condition that is not
IDLE and unmasked, or none, and the set of all such conditions. Without a computation, or with one of the two hand-offs
missing, nothing is built. -/
def Obligations.BeaconsAreBuilt : Prop :=
  (∀ s : State, s.running = true → (∀ j js, s.jobs = j :: js → j.summary = none ∨ j.marker = none) →
    exec .beaconBuild s = .next s) ∧
  (∀ (s : State) (j : BeaconJob) (js : List BeaconJob) (summary : List SegmentSummary) (marker : Option MarkerIx),
    s.running = true → s.jobs = j :: js → j.summary = some summary → j.marker = some marker →
    let on (i : ParamIx) (es : List BeaconEntry) : List BeaconEntry := if s.params.value i = 1 then es else []
    ∃ top reported, s.TopIs top ∧ s.Reports reported ∧
      exec .beaconBuild s = .next ((s.withConsole { s.console with unsent := some {
        cycle := j.result.cycleNumber, start := s.console.startFlag
        entries := [.head s.console.startFlag j.result.cycleNumber s.console.receptionErrors s.relays.discards] ++
          on 27 [.cycle j.result j.clock marker s.feed.note] ++
          on 28 [.conditions top reported] ++
          on 29 (summary.map BeaconEntry.wall) ++
          on 30 ((allSlots.filter fun i => (s.node i).enabled && decide ((s.node i).kind = .jack)).map fun i =>
            .jack i ((j.result.errors.find? fun e => decide (e.slot = i)).map SlotError.error)
              (((j.result.demands.find? fun d => decide (d.slot = i)).map SlotDemand.demand).getD 0)
              (s.record i).state) ++
          on 31 [.user s.command.user] ++ [.finish] } }).withJobs js))

/-! ## Computation, conditions, the end of an opening -/

/-- A computation: the participants are the enabled ACTIVE jacks whose replies the sweep took; H_ref is the floor of the
mean corrected height, B lies form_height below it, an error is a corrected height less H_ref, the spread is the greatest
difference of two errors. Above trim_band it takes CLIMB to TRIM, at or below trim_exit TRIM to CLIMB, and the switch is
handed to the Rise Mode Controller. In CLIMB from a rate clock start the requested step and the remainder make up rate_req
times the credited time and the remainder carried (without a start the credited time is free within its cap,
notes/assumptions/6.md); on the switch from TRIM and in another step mode both are 0. The fill gate is the least room
top + max_void - H_ref, the set gate the least height of an oldest unset record's bottom above B. The common step is the
least of requested step, gates and s_max, not below 0, bound by the first term that gives it. A demand is the step less
gain × error / 16 rounded half away from zero, within 0 and stroke_max, in CLIMB and TRIM, and 0 in another mode. QUORUM
then LEVEL_LIMIT (notes/assumptions/33.md) are evaluated, and a LEVEL_LIMIT that moves the mode to HALT stops both channels at
once (Halts, Safety.lean), in a free order (notes/assumptions/5.md); the changes of mode under way to the rate clock are taken before
the computation, and its own do not stop a CLIMB's clock (notes/assumptions/15.md). The result is the latest and goes to
four blocks and the beacon. A sweep-complete event ends the sweep, evaluates RING_DOWN, stops both channels
if that moves the mode to HALT, evaluates the monitor sources (notes/assumptions/17.md), applies a pending commit, and computes. The changes of mode that its own tests make are taken
inside it (notes/assumptions/38.md). -/
def Obligations.ComputationsFollowTheHeights : Prop :=
  (∀ s : State, let t := s.compute
    let corrected (i : Slot) : Int := (match (s.record i).lastReport with
      | some (.jack h _ _) => (h : Int)
      | _ => 0) - (s.node i).zero.getD 0
    let clock := s.transit.rateModes.foldl rateClockAfter s.level.rateClock
    let unsetBottom (k : SegmentIx) (u : Nat) : Prop := ∃ n l, (s.wall k).queue[n]? = some l ∧
      s.pourClock - l.placedAt < s.params.setAgeS ∧
      (∀ (m : Nat) (x : Layer), m < n → (s.wall k).queue[m]? = some x → s.params.setAgeS ≤ s.pourClock - x.placedAt) ∧
      u = ((((s.wall k).queue.take n).getLast?).map Layer.top).getD (s.wall k).base
    ∃ r, t.level = { cycleNumber := r.cycleNumber, remainder := r.remainder
                     rateClock := if r.stepMode = .climb then some s.now else none, latest := some r } ∧
      r.cycleNumber = (s.level.cycleNumber + 1) % 4294967296 ∧ r.time = s.now ∧
      r.previousHRef = s.level.latest.bind CycleResult.hRef ∧
      (∀ i, i ∈ r.errors.map SlotError.slot ↔ (s.node i).enabled = true ∧ (s.node i).kind = .jack ∧
        (s.record i).state = .active ∧ i ∈ s.sweep.replies) ∧
      r.n = r.errors.length ∧ r.errors.Pairwise (fun x y => x.slot < y.slot) ∧
      (r.n = 0 → r.hRef = none ∧ r.bottom = none ∧ r.spread = 0 ∧ r.s = 0 ∧ r.binding = .none) ∧
      (0 < r.n → ∃ h, r.hRef = some h ∧ r.bottom = some (h - s.params.formHeight) ∧
        h * r.n ≤ (r.errors.map fun e => corrected e.slot).sum ∧
        (r.errors.map fun e => corrected e.slot).sum < (h + 1) * r.n ∧
        (∀ e ∈ r.errors, e.error = corrected e.slot - h) ∧
        (∀ e ∈ r.errors, ∀ f ∈ r.errors, e.error - f.error ≤ r.spread) ∧
        (∃ e ∈ r.errors, ∃ f ∈ r.errors, e.error - f.error = r.spread)) ∧
      r.stepMode = (if r.n = 0 then s.mode else if s.mode = .climb ∧ s.params.trimBand < r.spread then .trim
        else if s.mode = .trim ∧ r.spread ≤ s.params.trimExit then .climb else s.mode) ∧
      (s.mode = .climb → r.stepMode = .climb → ∃ credit,
        (∀ c, clock = some c → credit = min (s.now - c) (2 * s.params.cycleMs)) ∧ credit ≤ 2 * s.params.cycleMs ∧
        r.sReq * 3600000 + r.remainder = s.params.rateReq * credit + s.level.remainder ∧ r.remainder < 3600000) ∧
      (s.mode ≠ .climb ∨ r.stepMode ≠ .climb → r.sReq = 0 ∧ r.remainder = 0) ∧
      (∀ a, r.aFill = some a ↔ ∃ h, r.hRef = some h ∧
        (∀ k, (s.segment k).enabled = true → a ≤ (s.wall k).top + s.params.maxVoid - h) ∧
        (∃ k, (s.segment k).enabled = true ∧ a = (s.wall k).top + s.params.maxVoid - h)) ∧
      (∀ a, r.aSet = some a ↔ ∃ b, r.bottom = some b ∧
        (∀ k u, (s.segment k).enabled = true → unsetBottom k u → a ≤ u - b) ∧
        (∃ k u, (s.segment k).enabled = true ∧ unsetBottom k u ∧ a = u - b)) ∧
      (0 < r.n → ∃ m : Int, r.s = m.toNat ∧ m ≤ r.sReq ∧ m ≤ s.params.sMax ∧ (∀ a, r.aFill = some a → m ≤ a) ∧
        (∀ a, r.aSet = some a → m ≤ a) ∧
        (m = r.sReq ∨ r.aFill = some m ∨ r.aSet = some m ∨ m = s.params.sMax) ∧
        r.binding = (if r.sReq = 0 then .none else if m = r.sReq then .rate else if r.aFill = some m then .fill
          else if r.aSet = some m then .set else .cap)) ∧
      r.demands.length = r.errors.length ∧
      (∀ (n : Nat) (e : SlotError), r.errors[n]? = some e → ∃ d, r.demands[n]? = some d ∧ d.slot = e.slot ∧
        (let x : Int := s.params.gain * e.error
         let correction : Int := x.sign * ((x.natAbs + 8) / 16 : Nat)
         (r.stepMode = .climb ∨ r.stepMode = .trim →
           (d.demand : Int) = max 0 (min (((s.node e.slot).strokeMax.getD 0 : Nat) : Int) ((r.s : Int) - correction))) ∧
         (r.stepMode ≠ .climb → r.stepMode ≠ .trim → d.demand = 0))) ∧
      (let jacks := ∃ i, (s.node i).enabled = true ∧ (s.node i).kind = .jack
       let u := (s.withTransit { s.transit with rateModes := [] }).withFree (s.free + 1)
       ∃ quorum limit : Bool, (quorum = true ↔ (0 < r.n ∧ r.n < s.params.minJacks) ∨ (r.n = 0 ∧ jacks)) ∧
         (limit = true ↔ s.params.haltBand < r.spread) ∧
         (let w := (u.evaluate .quorum quorum none).evaluate .levelLimit limit none
          ∃ v : State, (s.mode ≠ .halt → w.mode = .halt → w.Halts v) ∧ (s.mode = .halt ∨ w.mode ≠ .halt → v = w) ∧
          t = ((v.withLevel t.level).withTransit { v.transit with
            dispatchResults := v.transit.dispatchResults ++ [r], placementResults := v.transit.placementResults ++ [r]
            markerResults := v.transit.markerResults ++ [r], feedResults := v.transit.feedResults ++ [r]
            spreadSwitches := if r.stepMode = s.mode then v.transit.spreadSwitches
              else v.transit.spreadSwitches ++ [{ leaves := s.mode, enters := r.stepMode }]
            rateModes := if r.stepMode = .climb then [] else v.transit.rateModes }).withJobs
              (s.jobs ++ [{ result := r, clock := s.pourClock, summary := none, marker := none }])) ∧
         (t.condition .quorum).source = quorum ∧ (t.condition .levelLimit).source = limit ∧
         (∀ c : Cond, c ≠ .quorum → c ≠ .levelLimit → c ≠ .feedJam ∨ s.mode = .halt ∨ t.mode ≠ .halt →
           t.condition c = s.condition c))) ∧
  (∀ s : State, let u := s.withSweep { s.sweep with running := false, cursor := none }
    ∃ down : Bool, (down = true ↔ s.sweep.polled ≠ [] ∧ s.sweep.replies = []) ∧
      (let w := u.evaluate .ringDown down none
       ∃ v : State, (s.mode ≠ .halt → w.mode = .halt → w.Halts v) ∧ (s.mode = .halt ∨ w.mode ≠ .halt → v = w) ∧
         s.sweepComplete = (v.evaluateMonitors.commitAtComplete).compute))

/-- Conditions. A raise makes a LEVEL condition RAISED with its source active, a MOMENTARY one UNCLEARED, takes the detail
where the condition holds one and counts up to 255. A clear makes RAISED UNCLEARED and STANDING IDLE. An evaluation raises
where the source becomes active, clears where it becomes inactive, and else does nothing. A HALT-class
condition that leaves IDLE moves CLIMB, TRIM and HOLD to HALT; a HOLD-class one moves CLIMB and TRIM to HOLD; a NOTE-class
one moves nothing. A clear that returns a STANDING HOLD-class condition to IDLE in HOLD ends the hold if every HOLD-class
and HALT-class condition is then IDLE: in CLIMB, or in TRIM when the spread of the latest result is above trim_band. Every
change of mode is handed to the six blocks that act on it, and nothing else changes. -/
def Obligations.ConditionsRaiseAndClear : Prop :=
  ∀ (s : State) (c : Cond) (detail : Option Nat),
    let r := s.condition c
    let t := s.raise c detail
    let u := s.clear c
    let halts := r.state = .idle ∧ c.cls = .halt ∧ (s.mode = .climb ∨ s.mode = .trim ∨ s.mode = .hold)
    let holds := r.state = .idle ∧ c.cls = .hold ∧ (s.mode = .climb ∨ s.mode = .trim)
    let ends := r.state = .standing ∧ c.cls = .hold ∧ s.mode = .hold ∧
      ∀ d : Cond, d ≠ c → d.cls = .hold ∨ d.cls = .halt → (s.condition d).state = .idle
    t = ((s.withConditions t.conditions).withMode t.mode).withTransit t.transit ∧
    u = ((s.withConditions u.conditions).withMode u.mode).withTransit u.transit ∧
    t.condition c = { state := (if c.kind = .level then .raised else .uncleared)
                      source := decide (c.kind = .level)
                      detail := if c.hasDetail then detail else r.detail
                      count := min 255 (r.count + 1) } ∧
    u.condition c = { r with source := false, state := (match r.state with
      | .idle => .idle
      | .raised => .uncleared
      | .standing => .idle
      | .uncleared => .uncleared) } ∧
    (∀ d : Cond, d ≠ c → t.condition d = s.condition d ∧ u.condition d = s.condition d) ∧
    t.conditions.masked = s.conditions.masked ∧ u.conditions.masked = s.conditions.masked ∧
    (halts → t.mode = .halt ∧ t.transit = s.transit.handed { old := s.mode, new := .halt, moment := s.now }) ∧
    (holds → t.mode = .hold ∧ t.transit = s.transit.handed { old := s.mode, new := .hold, moment := s.now }) ∧
    (¬ halts → ¬ holds → t.mode = s.mode ∧ t.transit = s.transit) ∧
    (ends → u.mode = (match s.level.latest with
        | some x => if x.spread ≤ s.params.trimBand then .climb else .trim
        | none => .climb) ∧
      u.transit = s.transit.handed { old := .hold, new := u.mode, moment := s.now }) ∧
    (¬ ends → u.mode = s.mode ∧ u.transit = s.transit) ∧
    (r.source = false → s.evaluate c true detail = t ∧ s.evaluate c false detail = s) ∧
    (r.source = true → s.evaluate c true detail = s ∧ s.evaluate c false detail = u)

/-- The end of an opening and the work after it. A report with the fault flag, or the loss of the outlet (but by the miss
of an OPEN), ends an opening as a fault: FEED_FAULT with the outlet is raised, the channel's exchanges are withdrawn and it
is STOPPED. A report of another tag changes nothing; else its litres are the delivered ones, and an END completes the
opening; in a confirmed OPEN the channel asks for CLOSE without READY and makes the FULL test with it. At both ends the
delivered litres are placed if the segment is enabled, with the channel as source and its descriptor, and may raise
GREEN_EXIT (Places; PlaceTurnsLitresIntoHeight for a working other channel); the claims and the dwell end, the litres still
to deliver fall down to 0; with the other channel at rest little else changes before the next state.
After an END: STOP and HALT stop the channel; without litres left, or with a void cause, the descriptor is finished; an END
that no CLOSE asked for drops them, raises FEED_SHORT with the descriptor and finishes it; DWELL, FULL and NOT_READY pause,
or end the pause at once where pause_s is 0. A finished descriptor is noted if it has mark; it pauses if it has pause-after
and pause_s is not 0, else the channel chooses: the oldest deferred descriptor that is enabled and whose segment accepts
feed and is unclaimed, else the next of the chain, else the oldest deferred one, else DONE; disabled ones leave the list as
they are examined. The chosen descriptor is loaded and tested at once (delivered 0 by the load, notes/assumptions/42.md). Each channel that waits for an outlet or has an opening on it acts on a
report or change of state, by the state it was in, in a free order where both do (notes/assumptions/5.md). B is of the result at
the Placement Store (notes/assumptions/11.md). That a finished descriptor, a pause and DONE clear block reason, blocked since
and block timer is the model's reading (notes/assumptions/29.md). -/
def Obligations.AnEndCompletesTheOpening : Prop :=
  (∀ (s : State) (c : Channel) (w : WorkingCopy) (ready ended fault : Bool) (d tag : Nat),
    let x := s.channel c
    let t := s.judgeOutletReport c w ready ended fault d tag
    let litres := if fault then x.delivered else d
    let y : ChannelContext := { x with
      delivered := litres, dwellEndsAt := none, working := some { w with litres := w.litres - litres } }
    let u := s.setChannel c { x with delivered := d }
    let source : LayerSource := match c with
      | .a => .a
      | .b => .b
    let delivers (u : State) : State := if litres = 0 then u else u.place w.segment litres source x.current (some c)
    let placed (v : State) := v.outletClaim w.outlet = none ∧ (v.wall w.segment).claim = none ∧
      v.record w.outlet = { s.record w.outlet with pollDue := none } ∧
      (∀ i, i ≠ w.outlet → v.outletClaim i = s.outletClaim i ∧ v.record i = s.record i) ∧
      (∀ k, k ≠ w.segment → v.wall k = s.wall k) ∧
      (litres = 0 ∨ (s.segment w.segment).enabled = false →
        v.wall w.segment = { s.wall w.segment with claim := none } ∧ v.condition .greenExit = s.condition .greenExit ∧
        v.mode = s.mode ∧ v.transit = s.transit) ∧
      (0 < litres → (s.segment w.segment).enabled = true → (s.wall w.segment).Form s.pourClock →
        ∃ p, s.Places w.segment litres source x.current p ∧
          v.wall w.segment = { p.wall w.segment with claim := none } ∧ v.condition .greenExit = p.condition .greenExit ∧
          v.mode = p.mode ∧ v.transit = p.transit) ∧
      (0 < litres → (s.segment w.segment).enabled = true →
        let num := litres * 100000 + (s.wall w.segment).remainder
        let area := (s.segment w.segment).area
        (v.wall w.segment).remainder = num % area ∧
        (v.wall w.segment).placedTotal = min 4294967295 ((s.wall w.segment).placedTotal + litres) ∧
        (v.wall w.segment).top = (s.wall w.segment).top + min (num / area) (16777215 - (s.wall w.segment).top))
    x.working = some w → x.state = .opened ∨ x.state = .closing →
    (fault = true → t = ((((((delivers s).setChannel c y).withFeed { ((delivers s).setChannel c y).feed with
      waiting := ((delivers s).setChannel c y).feed.waiting.filter fun e => decide (e.channel ≠ c) || e.stray
      }).releaseClaims c w).raise .feedFault (some w.outlet.val)).setChannel c { y with state := .stopped }).evaluateJam) ∧
    (fault = false → tag = x.tag → ended = true →
      t = ((((delivers u).releaseClaims c w).setChannel c y).afterOpening c).evaluateJam) ∧
    (fault = false → tag ≠ x.tag → t = s) ∧
    (fault = false → tag = x.tag → ended = false →
      (x.state = .opened → x.openConfirmed = true → ready = true → t = u.fullTest c) ∧
      (x.state = .opened → x.openConfirmed = true → ready = false → t = u.askClose c .notReady) ∧
      (x.state = .closing ∨ x.openConfirmed = false → t = u)) ∧
    ((s.channel (otherChannel c)).working = none → s.outletClaim w.outlet = some c →
    (s.wall w.segment).claim = some c →
    (fault = true → placed t ∧ t.channel c = { y with state := .stopped } ∧
      t.channel (otherChannel c) = s.channel (otherChannel c) ∧
      t.feed.waiting = s.feed.waiting.filter (fun e => decide (e.channel ≠ c) || e.stray) ∧
      t.condition .feedFault = { state := .uncleared, source := false, detail := some w.outlet.val
                                 count := min 255 ((s.condition .feedFault).count + 1) }) ∧
    (fault = false → tag = x.tag → ended = true → ∃ v, placed v ∧
      v = ((((((s.withFeed v.feed).withWalls v.walls).withRecords v.records).withConditions v.conditions).withMode
        v.mode).withTransit v.transit).withFree v.free ∧
      v.free = (if 0 < litres ∧ (s.segment w.segment).enabled = true then s.free + 1 else s.free) ∧
      v.feed = { s.feed.setChannel c y with outletClaims := v.feed.outletClaims } ∧
      (∀ z : Cond, z ≠ .greenExit → z ≠ .feedJam → v.condition z = s.condition z) ∧
      v.conditions.masked = s.conditions.masked ∧
      t = (v.afterOpening c).evaluateJam ∧
      (x.closeCause = some .stop ∨ x.closeCause = some .halt → placed t ∧ t.channel c = { y with state := .stopped } ∧
        t.channel (otherChannel c) = s.channel (otherChannel c))))) ∧
  (∀ (s : State) (c : Channel) (w : WorkingCopy), let x := s.channel c
    x.working = some w →
    (x.closeCause = some .stop ∨ x.closeCause = some .halt →
      s.afterOpening c = s.setChannel c { x with state := .stopped }) ∧
    (x.closeCause ≠ some .stop → x.closeCause ≠ some .halt → w.litres = 0 ∨ x.closeCause = some .void →
      s.afterOpening c = s.finishDescriptor c) ∧
    (x.closeCause = none → 0 < w.litres → s.afterOpening c =
      ((s.setChannel c { x with working := some { w with litres := 0 } }).raise .feedShort
        (x.current.map fun d => d.val)).finishDescriptor c) ∧
    (x.closeCause = some .dwell ∨ x.closeCause = some .full ∨ x.closeCause = some .notReady → 0 < w.litres →
      (s.params.pauseS ≠ 0 → s.afterOpening c = s.setChannel c { x with
        state := .paused, blockReason := .none, blockedSince := none, blockTimer := none
        pause := some { endsAt := s.now + s.params.pauseS * 1000, kind := .resume } }) ∧
      (s.params.pauseS = 0 → x.void = true → s.afterOpening c = s.finishDescriptor c) ∧
      (s.params.pauseS = 0 → x.void = false → s.afterOpening c = s.resumeWait c))) ∧
  (∀ (s : State) (c : Channel), let x := s.channel c
    let n := match x.current with
      | some d => if (s.descriptor d).mark then some d else s.feed.note
      | none => s.feed.note
    let u := s.withFeed { s.feed with note := n }
    let pauses := s.params.pauseS ≠ 0 ∧ ∃ d, x.current = some d ∧ (s.descriptor d).pauseAfter = true
    (pauses → s.finishDescriptor c = u.setChannel c { x with
      state := .paused, blockReason := .none, blockedSince := none, blockTimer := none
      pause := some { endsAt := s.now + s.params.pauseS * 1000, kind := .after } }) ∧
    (¬ pauses → s.finishDescriptor c = u.chooseNext c)) ∧
  (∀ (s : State) (c : Channel), let x := s.channel c
    let enabled (d : DescriptorIx) : Bool := (s.descriptor d).enabled
    let ready (d : DescriptorIx) := enabled d = true ∧ s.acceptance (s.descriptor d).segment = .accepts ∧
      (s.wall (s.descriptor d).segment).claim = none
    let follows (n : DescriptorIx) := enabled n = true ∧ ∃ d, x.current = some d ∧ enabled d = true ∧
      (s.descriptor d).next = some n
    let rests (ds : List DescriptorIx) : State := s.setChannel c { x with
      working := none, pause := none, blockReason := .none, blockedSince := none, blockTimer := none, deferred := ds }
    (∀ before d after, x.deferred = before ++ d :: after → ready d → (∀ e ∈ before, ¬ ready e) →
      s.chooseNext c = (rests (before.filter enabled ++ after)).loadAndTest c d) ∧
    ((∀ d ∈ x.deferred, ¬ ready d) →
      (∀ n, follows n → s.chooseNext c = (rests (x.deferred.filter enabled)).loadAndTest c n) ∧
      ((∀ n, ¬ follows n) →
        (∀ d ds, x.deferred.filter enabled = d :: ds → s.chooseNext c = (rests ds).loadAndTest c d) ∧
        (x.deferred.filter enabled = [] → s.chooseNext c = s.setChannel c { x with
          state := .done, current := none, working := none, pause := none, blockReason := .none, blockedSince := none
          blockTimer := none, deferred := [] })))) ∧
  (∀ (s : State) (c : Channel) (d : DescriptorIx) (w : WorkingCopy), let x := s.channel c
    let e := s.descriptor d
    let y : ChannelContext := { x with
      state := .wait, current := some d, working := some { segment := e.segment, outlet := e.outlet, litres := e.litres }
      delivered := 0, closeCause := none, closeSent := false, void := false, blockReason := .none, blockedSince := none
      blockTimer := none, dwellEndsAt := none, pause := none }
    let waits (y : ChannelContext) (r : BlockReason) : State := s.setChannel c { y with
      blockReason := r, blockedSince := some s.now, blockTimer := some (s.now + s.params.blockS * 1000) }
    (y.working = some w → (s.blockFor c w = .none → s.Opens c y w (s.loadAndTest c d)) ∧
      (s.blockFor c w ≠ .none → s.loadAndTest c d = waits y (s.blockFor c w))) ∧
    (let z : ChannelContext := { x with
       state := .wait, pause := none, blockReason := .none, blockedSince := none, blockTimer := none }
     x.working = some w → (s.blockFor c w = .none → s.Opens c z w (s.resumeWait c)) ∧
      (s.blockFor c w ≠ .none → s.resumeWait c = waits z (s.blockFor c w)))) ∧
  (∀ (s : State) (i : Slot) (report : Report), let u := s.withFree (s.free + 1)
    let acts (c : Channel) := ∃ w, (s.channel c).working = some w ∧ w.outlet = i ∧
      ((s.channel c).state = .wait ∨ (s.channel c).state = .opened ∨ (s.channel c).state = .closing)
    (¬ acts .a → ¬ acts .b → s.outletReport i report = u ∧ ∀ miss, s.outletStateChanged i miss = u) ∧
    (∀ c w, (s.channel c).working = some w → w.outlet = i → ¬ acts (otherChannel c) →
      ((s.channel c).state = .wait → (∀ miss, s.outletStateChanged i miss = u.openTest c) ∧
        (∀ ready ended fault d tag, report = .outlet ready ended fault d tag → s.outletReport i report = u.openTest c)) ∧
      ((s.channel c).state = .opened ∨ (s.channel c).state = .closing →
        (∀ ready ended fault d tag, report = .outlet ready ended fault d tag →
          s.outletReport i report = u.judgeOutletReport c w ready ended fault d tag) ∧
        (∀ ready ended d tag, (s.record i).state = .lost →
          s.outletStateChanged i false = u.judgeOutletReport c w ready ended true d tag) ∧
        ((s.record i).state ≠ .lost → ∀ miss, s.outletStateChanged i miss = u) ∧ s.outletStateChanged i true = u)) ∧
    (let judges (c : Channel) (opening : WorkingCopy → State → State) (v : State) : State :=
       match (s.channel c).working, (s.channel c).state with
       | some w, .wait => if w.outlet = i then v.openTest c else v
       | some w, .opened => if w.outlet = i then opening w v else v
       | some w, .closing => if w.outlet = i then opening w v else v
       | _, _ => v
     (∀ ready ended fault d tag, report = .outlet ready ended fault d tag →
       let one (c : Channel) := judges c fun w v => v.judgeOutletReport c w ready ended fault d tag
       ∃ first, s.outletReport i report = one (otherChannel first) (one first u)) ∧
     (∀ miss, let one (c : Channel) := judges c fun w v =>
         if (v.record i).state = .lost ∧ miss = false then v.judgeOutletReport c w false false true 0 0 else v
       ∃ first, s.outletStateChanged i miss = one (otherChannel first) (one first u))))
end

