-- ==== Sys2Proof/Laws/Beacon.lean ====
section
/-! SUPPORT. What the beacon takes and how its frames are filled, said once: the two hand-offs, the segment summary, the
conditions shown and the entries of a frame. -/

namespace Sys2Proof.Laws

open Sys2Proof Sys2Proof.Machine

/-! ## The two hand-offs (R79, R151, R185) -/

/-- The segment summary goes to the oldest computation that waits for one. -/
theorem handSummary_oldest (x : List SegmentSummary) (before : List BeaconJob) (j : BeaconJob) (after : List BeaconJob)
    (h : ∀ y ∈ before, y.summary ≠ none) (k : j.summary = none) :
    handSummary x (before ++ j :: after) = before ++ { j with summary := some x } :: after := by
  induction before with
  | nil => simp [handSummary, k]
  | cons y ys ih =>
    obtain ⟨z, hz⟩ := Option.ne_none_iff_exists'.1 (h y List.mem_cons_self)
    simp [handSummary, hz, ih fun a ha => h a (List.mem_cons_of_mem _ ha)]

/-- No computation waits for a segment summary. -/
theorem handSummary_none (x : List SegmentSummary) (js : List BeaconJob) (h : ∀ y ∈ js, y.summary ≠ none) :
    handSummary x js = js := by
  induction js with
  | nil => rfl
  | cons y ys ih =>
    obtain ⟨z, hz⟩ := Option.ne_none_iff_exists'.1 (h y List.mem_cons_self)
    simp [handSummary, hz, ih fun a ha => h a (List.mem_cons_of_mem _ ha)]

/-- The latest fired marker goes to the oldest computation that waits for one. -/
theorem handMarker_oldest (m : Option MarkerIx) (before : List BeaconJob) (j : BeaconJob) (after : List BeaconJob)
    (h : ∀ y ∈ before, y.marker ≠ none) (k : j.marker = none) :
    handMarker m (before ++ j :: after) = before ++ { j with marker := some m } :: after := by
  induction before with
  | nil => simp [handMarker, k]
  | cons y ys ih =>
    obtain ⟨z, hz⟩ := Option.ne_none_iff_exists'.1 (h y List.mem_cons_self)
    simp [handMarker, hz, ih fun a ha => h a (List.mem_cons_of_mem _ ha)]

/-- No computation waits for the latest fired marker. -/
theorem handMarker_none (m : Option MarkerIx) (js : List BeaconJob) (h : ∀ y ∈ js, y.marker ≠ none) :
    handMarker m js = js := by
  induction js with
  | nil => rfl
  | cons y ys ih =>
    obtain ⟨z, hz⟩ := Option.ne_none_iff_exists'.1 (h y List.mem_cons_self)
    simp [handMarker, hz, ih fun a ha => h a (List.mem_cons_of_mem _ ha)]

/-! ## The conditions shown (R135) -/

/-- The reported set holds exactly the conditions that are shown, each once. -/
theorem reportedSet_reports (s : State) : s.Reports s.reportedSet := by
  refine ⟨List.Nodup.filter _ (by decide), fun c => ?_⟩
  have : c ∈ Cond.all := by cases c <;> decide
  simp [State.reportedSet, State.Shows, State.quiet, this]

/-- The top condition is the lowest-numbered one that is shown. -/
theorem topCondition_is (s : State) : s.TopIs s.topCondition := by
  intro c
  have sorted : s.reportedSet.Pairwise fun a b => a.num < b.num := List.Pairwise.filter _ (by decide)
  have mem := (reportedSet_reports s).2
  unfold State.topCondition
  match h : s.reportedSet with
  | [] => simp [← mem, h]
  | d :: ds =>
    rw [h] at sorted
    have low := (List.pairwise_cons.1 sorted).1
    simp only [List.head?_cons, Option.some.injEq, ← mem, h, List.mem_cons]
    constructor
    · rintro rfl
      exact ⟨.inl rfl, fun e he hm => hm.elim (fun k => by simp [k] at he) fun k => absurd (low e k) (by omega)⟩
    · rintro ⟨rfl | hc, hlow⟩
      · rfl
      · exact absurd (Or.inl rfl) (hlow d (low c hc))

/-! ## The segment summary (R79) -/

/-- The bottom found first among the unset records of a queue. -/
theorem lowestUnset_first (clock setAge base : Nat) (before : List Layer) (l : Layer) (after : List Layer)
    (h : l.unset clock setAge = true) (k : ∀ m ∈ before, m.unset clock setAge = false) :
    ((withBottoms base (before ++ l :: after)).find? fun p => p.2.unset clock setAge).map Prod.fst =
      some ((before.getLast?.map Layer.top).getD base) := by
  induction before generalizing base with
  | nil => simp [withBottoms, h]
  | cons m ms ih =>
    rw [List.cons_append, withBottoms, List.find?_cons, k m List.mem_cons_self,
      ih m.top fun x hx => k x (List.mem_cons_of_mem _ hx)]
    cases ms <;> simp [List.getLast?_cons]

/-- A queue with no unset record has no lowest unset bottom. -/
theorem lowestUnset_none (clock setAge base : Nat) (ls : List Layer) (h : ∀ l ∈ ls, l.unset clock setAge = false) :
    (withBottoms base ls).find? (fun p => p.2.unset clock setAge) = none := by
  induction ls generalizing base with
  | nil => rfl
  | cons m ms ih =>
    rw [withBottoms, List.find?_cons, h m List.mem_cons_self, ih m.top fun x hx => h x (List.mem_cons_of_mem _ hx)]

/-- The segment summary names the enabled segments with what they hold. -/
theorem segmentSummary_summarises (s : State) : s.Summarises s.segmentSummary := by
  refine ⟨?_, fun x hx => ?_⟩
  · simp [State.segmentSummary, Function.comp_def]
  · obtain ⟨k, -, rfl⟩ := List.mem_map.1 hx
    refine ⟨rfl, rfl, fun before l after hq hl hb => ?_, fun h => ?_⟩
    · show SegmentLive.lowestUnset _ _ _ = _
      rw [SegmentLive.lowestUnset, hq]
      exact lowestUnset_first _ _ _ _ _ _ (by simpa [Layer.unset] using hl) fun m hm => by
        simpa [Layer.unset] using hb m hm
    · show SegmentLive.lowestUnset _ _ _ = _
      rw [SegmentLive.lowestUnset, lowestUnset_none _ _ _ _ fun l hl => by simpa [Layer.unset] using h l hl]
      rfl

/-! ## Filling a frame (R187) -/

/-- A frame takes the next entries in order, as many whole ones as fit. -/
theorem fillFrame_takes (room : Nat) (es : List BeaconEntry) :
    (fillFrame room es).1 ++ (fillFrame room es).2 = es ∧
    ((fillFrame room es).1.map fun e => e.encode.length).sum ≤ room ∧
    ∀ e rest, (fillFrame room es).2 = e :: rest →
      room < ((fillFrame room es).1.map fun e => e.encode.length).sum + e.encode.length := by
  induction es generalizing room with
  | nil => simp [fillFrame]
  | cons e es ih =>
    rw [fillFrame]
    split
    · obtain ⟨h1, h2, h3⟩ := ih (room - e.encode.length)
      refine ⟨by simp [h1], by simp; omega, fun x rest hx => ?_⟩
      have := h3 x rest hx
      simp only [List.map_cons, List.sum_cons]
      omega
    · refine ⟨rfl, Nat.zero_le _, fun x rest hx => ?_⟩
      cases hx
      simp only [List.map_nil, List.sum_nil]
      omega

end Sys2Proof.Laws
end

