-- ==== Sys2Proof/Laws/State.lean ====
section
/-! SUPPORT. One lemma per field per update of the state, each true by unfolding, and the read and write laws of the
tables. -/

namespace Sys2Proof.Laws

open Sys2Proof Sys2Proof.Machine

/-! ## Tables -/

@[simp] theorem table_read_write_same {α : Type} {n : Nat} (t : Table α n) (i : Fin n) (x : α) :
    (t.write i x).read i = x := by
  simp [Table.read, Table.write]

theorem table_read_write_other {α : Type} {n : Nat} (t : Table α n) (i j : Fin n) (x : α) (h : j ≠ i) :
    (t.write i x).read j = t.read j := by
  have h' : (i : Nat) ≠ (j : Nat) := fun e => h (Fin.ext e.symm)
  simp [Table.read, Table.write, h']

theorem table_read_write {α : Type} {n : Nat} (t : Table α n) (i j : Fin n) (x : α) :
    (t.write i x).read j = if j = i then x else t.read j := by
  by_cases h : j = i
  · subst h; simp
  · simp [h, table_read_write_other t i j x h]

@[simp] theorem table_read_tabulate {α : Type} {n : Nat} (f : Fin n → α) (i : Fin n) :
    (Table.tabulate f).read i = f i := by
  simp [Table.read, Table.tabulate]

@[simp] theorem table_read_const {α : Type} (n : Nat) (x : α) (i : Fin n) : (Table.const n x).read i = x := by
  simp [Table.read, Table.const]

theorem table_ext {α : Type} {n : Nat} (t u : Table α n) (h : ∀ i, t.read i = u.read i) : t = u := by
  apply Vector.ext
  intro i hi
  exact h ⟨i, hi⟩

/-! ## Updates of the state -/

@[simp] theorem withPower_power (s : State) (x : Power) : (s.withPower x).power = x := rfl
@[simp] theorem withPower_now (s : State) (x : Power) : (s.withPower x).now = s.now := rfl
@[simp] theorem withPower_free (s : State) (x : Power) : (s.withPower x).free = s.free := rfl
@[simp] theorem withPower_pending (s : State) (x : Power) : (s.withPower x).pending = s.pending := rfl
@[simp] theorem withPower_nodes (s : State) (x : Power) : (s.withPower x).nodes = s.nodes := rfl
@[simp] theorem withPower_records (s : State) (x : Power) : (s.withPower x).records = s.records := rfl
@[simp] theorem withPower_expectations (s : State) (x : Power) : (s.withPower x).expectations = s.expectations := rfl
@[simp] theorem withPower_sweep (s : State) (x : Power) : (s.withPower x).sweep = s.sweep := rfl
@[simp] theorem withPower_ring (s : State) (x : Power) : (s.withPower x).ring = s.ring := rfl
@[simp] theorem withPower_dispatch (s : State) (x : Power) : (s.withPower x).dispatch = s.dispatch := rfl
@[simp] theorem withPower_mode (s : State) (x : Power) : (s.withPower x).mode = s.mode := rfl
@[simp] theorem withPower_level (s : State) (x : Power) : (s.withPower x).level = s.level := rfl
@[simp] theorem withPower_segments (s : State) (x : Power) : (s.withPower x).segments = s.segments := rfl
@[simp] theorem withPower_walls (s : State) (x : Power) : (s.withPower x).walls = s.walls := rfl
@[simp] theorem withPower_pourClock (s : State) (x : Power) : (s.withPower x).pourClock = s.pourClock := rfl
@[simp] theorem withPower_placementSeen (s : State) (x : Power) : (s.withPower x).placementSeen = s.placementSeen := rfl
@[simp] theorem withPower_feed (s : State) (x : Power) : (s.withPower x).feed = s.feed := rfl
@[simp] theorem withPower_conditions (s : State) (x : Power) : (s.withPower x).conditions = s.conditions := rfl
@[simp] theorem withPower_monitors (s : State) (x : Power) : (s.withPower x).monitors = s.monitors := rfl
@[simp] theorem withPower_markers (s : State) (x : Power) : (s.withPower x).markers = s.markers := rfl
@[simp] theorem withPower_command (s : State) (x : Power) : (s.withPower x).command = s.command := rfl
@[simp] theorem withPower_params (s : State) (x : Power) : (s.withPower x).params = s.params := rfl
@[simp] theorem withPower_agents (s : State) (x : Power) : (s.withPower x).agents = s.agents := rfl
@[simp] theorem withPower_console (s : State) (x : Power) : (s.withPower x).console = s.console := rfl
@[simp] theorem withPower_relays (s : State) (x : Power) : (s.withPower x).relays = s.relays := rfl
@[simp] theorem withPower_transit (s : State) (x : Power) : (s.withPower x).transit = s.transit := rfl
@[simp] theorem withPower_jobs (s : State) (x : Power) : (s.withPower x).jobs = s.jobs := rfl

@[simp] theorem withNow_power (s : State) (x : Nat) : (s.withNow x).power = s.power := rfl
@[simp] theorem withNow_now (s : State) (x : Nat) : (s.withNow x).now = x := rfl
@[simp] theorem withNow_free (s : State) (x : Nat) : (s.withNow x).free = s.free := rfl
@[simp] theorem withNow_pending (s : State) (x : Nat) : (s.withNow x).pending = s.pending := rfl
@[simp] theorem withNow_nodes (s : State) (x : Nat) : (s.withNow x).nodes = s.nodes := rfl
@[simp] theorem withNow_records (s : State) (x : Nat) : (s.withNow x).records = s.records := rfl
@[simp] theorem withNow_expectations (s : State) (x : Nat) : (s.withNow x).expectations = s.expectations := rfl
@[simp] theorem withNow_sweep (s : State) (x : Nat) : (s.withNow x).sweep = s.sweep := rfl
@[simp] theorem withNow_ring (s : State) (x : Nat) : (s.withNow x).ring = s.ring := rfl
@[simp] theorem withNow_dispatch (s : State) (x : Nat) : (s.withNow x).dispatch = s.dispatch := rfl
@[simp] theorem withNow_mode (s : State) (x : Nat) : (s.withNow x).mode = s.mode := rfl
@[simp] theorem withNow_level (s : State) (x : Nat) : (s.withNow x).level = s.level := rfl
@[simp] theorem withNow_segments (s : State) (x : Nat) : (s.withNow x).segments = s.segments := rfl
@[simp] theorem withNow_walls (s : State) (x : Nat) : (s.withNow x).walls = s.walls := rfl
@[simp] theorem withNow_pourClock (s : State) (x : Nat) : (s.withNow x).pourClock = s.pourClock := rfl
@[simp] theorem withNow_placementSeen (s : State) (x : Nat) : (s.withNow x).placementSeen = s.placementSeen := rfl
@[simp] theorem withNow_feed (s : State) (x : Nat) : (s.withNow x).feed = s.feed := rfl
@[simp] theorem withNow_conditions (s : State) (x : Nat) : (s.withNow x).conditions = s.conditions := rfl
@[simp] theorem withNow_monitors (s : State) (x : Nat) : (s.withNow x).monitors = s.monitors := rfl
@[simp] theorem withNow_markers (s : State) (x : Nat) : (s.withNow x).markers = s.markers := rfl
@[simp] theorem withNow_command (s : State) (x : Nat) : (s.withNow x).command = s.command := rfl
@[simp] theorem withNow_params (s : State) (x : Nat) : (s.withNow x).params = s.params := rfl
@[simp] theorem withNow_agents (s : State) (x : Nat) : (s.withNow x).agents = s.agents := rfl
@[simp] theorem withNow_console (s : State) (x : Nat) : (s.withNow x).console = s.console := rfl
@[simp] theorem withNow_relays (s : State) (x : Nat) : (s.withNow x).relays = s.relays := rfl
@[simp] theorem withNow_transit (s : State) (x : Nat) : (s.withNow x).transit = s.transit := rfl
@[simp] theorem withNow_jobs (s : State) (x : Nat) : (s.withNow x).jobs = s.jobs := rfl

@[simp] theorem withFree_power (s : State) (x : Nat) : (s.withFree x).power = s.power := rfl
@[simp] theorem withFree_now (s : State) (x : Nat) : (s.withFree x).now = s.now := rfl
@[simp] theorem withFree_free (s : State) (x : Nat) : (s.withFree x).free = x := rfl
@[simp] theorem withFree_pending (s : State) (x : Nat) : (s.withFree x).pending = s.pending := rfl
@[simp] theorem withFree_nodes (s : State) (x : Nat) : (s.withFree x).nodes = s.nodes := rfl
@[simp] theorem withFree_records (s : State) (x : Nat) : (s.withFree x).records = s.records := rfl
@[simp] theorem withFree_expectations (s : State) (x : Nat) : (s.withFree x).expectations = s.expectations := rfl
@[simp] theorem withFree_sweep (s : State) (x : Nat) : (s.withFree x).sweep = s.sweep := rfl
@[simp] theorem withFree_ring (s : State) (x : Nat) : (s.withFree x).ring = s.ring := rfl
@[simp] theorem withFree_dispatch (s : State) (x : Nat) : (s.withFree x).dispatch = s.dispatch := rfl
@[simp] theorem withFree_mode (s : State) (x : Nat) : (s.withFree x).mode = s.mode := rfl
@[simp] theorem withFree_level (s : State) (x : Nat) : (s.withFree x).level = s.level := rfl
@[simp] theorem withFree_segments (s : State) (x : Nat) : (s.withFree x).segments = s.segments := rfl
@[simp] theorem withFree_walls (s : State) (x : Nat) : (s.withFree x).walls = s.walls := rfl
@[simp] theorem withFree_pourClock (s : State) (x : Nat) : (s.withFree x).pourClock = s.pourClock := rfl
@[simp] theorem withFree_placementSeen (s : State) (x : Nat) : (s.withFree x).placementSeen = s.placementSeen := rfl
@[simp] theorem withFree_feed (s : State) (x : Nat) : (s.withFree x).feed = s.feed := rfl
@[simp] theorem withFree_conditions (s : State) (x : Nat) : (s.withFree x).conditions = s.conditions := rfl
@[simp] theorem withFree_monitors (s : State) (x : Nat) : (s.withFree x).monitors = s.monitors := rfl
@[simp] theorem withFree_markers (s : State) (x : Nat) : (s.withFree x).markers = s.markers := rfl
@[simp] theorem withFree_command (s : State) (x : Nat) : (s.withFree x).command = s.command := rfl
@[simp] theorem withFree_params (s : State) (x : Nat) : (s.withFree x).params = s.params := rfl
@[simp] theorem withFree_agents (s : State) (x : Nat) : (s.withFree x).agents = s.agents := rfl
@[simp] theorem withFree_console (s : State) (x : Nat) : (s.withFree x).console = s.console := rfl
@[simp] theorem withFree_relays (s : State) (x : Nat) : (s.withFree x).relays = s.relays := rfl
@[simp] theorem withFree_transit (s : State) (x : Nat) : (s.withFree x).transit = s.transit := rfl
@[simp] theorem withFree_jobs (s : State) (x : Nat) : (s.withFree x).jobs = s.jobs := rfl

@[simp] theorem withPending_power (s : State) (x : List Instr) : (s.withPending x).power = s.power := rfl
@[simp] theorem withPending_now (s : State) (x : List Instr) : (s.withPending x).now = s.now := rfl
@[simp] theorem withPending_free (s : State) (x : List Instr) : (s.withPending x).free = s.free := rfl
@[simp] theorem withPending_pending (s : State) (x : List Instr) : (s.withPending x).pending = x := rfl
@[simp] theorem withPending_nodes (s : State) (x : List Instr) : (s.withPending x).nodes = s.nodes := rfl
@[simp] theorem withPending_records (s : State) (x : List Instr) : (s.withPending x).records = s.records := rfl
@[simp] theorem withPending_expectations (s : State) (x : List Instr) : (s.withPending x).expectations = s.expectations := rfl
@[simp] theorem withPending_sweep (s : State) (x : List Instr) : (s.withPending x).sweep = s.sweep := rfl
@[simp] theorem withPending_ring (s : State) (x : List Instr) : (s.withPending x).ring = s.ring := rfl
@[simp] theorem withPending_dispatch (s : State) (x : List Instr) : (s.withPending x).dispatch = s.dispatch := rfl
@[simp] theorem withPending_mode (s : State) (x : List Instr) : (s.withPending x).mode = s.mode := rfl
@[simp] theorem withPending_level (s : State) (x : List Instr) : (s.withPending x).level = s.level := rfl
@[simp] theorem withPending_segments (s : State) (x : List Instr) : (s.withPending x).segments = s.segments := rfl
@[simp] theorem withPending_walls (s : State) (x : List Instr) : (s.withPending x).walls = s.walls := rfl
@[simp] theorem withPending_pourClock (s : State) (x : List Instr) : (s.withPending x).pourClock = s.pourClock := rfl
@[simp] theorem withPending_placementSeen (s : State) (x : List Instr) : (s.withPending x).placementSeen = s.placementSeen := rfl
@[simp] theorem withPending_feed (s : State) (x : List Instr) : (s.withPending x).feed = s.feed := rfl
@[simp] theorem withPending_conditions (s : State) (x : List Instr) : (s.withPending x).conditions = s.conditions := rfl
@[simp] theorem withPending_monitors (s : State) (x : List Instr) : (s.withPending x).monitors = s.monitors := rfl
@[simp] theorem withPending_markers (s : State) (x : List Instr) : (s.withPending x).markers = s.markers := rfl
@[simp] theorem withPending_command (s : State) (x : List Instr) : (s.withPending x).command = s.command := rfl
@[simp] theorem withPending_params (s : State) (x : List Instr) : (s.withPending x).params = s.params := rfl
@[simp] theorem withPending_agents (s : State) (x : List Instr) : (s.withPending x).agents = s.agents := rfl
@[simp] theorem withPending_console (s : State) (x : List Instr) : (s.withPending x).console = s.console := rfl
@[simp] theorem withPending_relays (s : State) (x : List Instr) : (s.withPending x).relays = s.relays := rfl
@[simp] theorem withPending_transit (s : State) (x : List Instr) : (s.withPending x).transit = s.transit := rfl
@[simp] theorem withPending_jobs (s : State) (x : List Instr) : (s.withPending x).jobs = s.jobs := rfl

@[simp] theorem withNodes_power (s : State) (x : Table NodeEntry 128) : (s.withNodes x).power = s.power := rfl
@[simp] theorem withNodes_now (s : State) (x : Table NodeEntry 128) : (s.withNodes x).now = s.now := rfl
@[simp] theorem withNodes_free (s : State) (x : Table NodeEntry 128) : (s.withNodes x).free = s.free := rfl
@[simp] theorem withNodes_pending (s : State) (x : Table NodeEntry 128) : (s.withNodes x).pending = s.pending := rfl
@[simp] theorem withNodes_nodes (s : State) (x : Table NodeEntry 128) : (s.withNodes x).nodes = x := rfl
@[simp] theorem withNodes_records (s : State) (x : Table NodeEntry 128) : (s.withNodes x).records = s.records := rfl
@[simp] theorem withNodes_expectations (s : State) (x : Table NodeEntry 128) : (s.withNodes x).expectations = s.expectations := rfl
@[simp] theorem withNodes_sweep (s : State) (x : Table NodeEntry 128) : (s.withNodes x).sweep = s.sweep := rfl
@[simp] theorem withNodes_ring (s : State) (x : Table NodeEntry 128) : (s.withNodes x).ring = s.ring := rfl
@[simp] theorem withNodes_dispatch (s : State) (x : Table NodeEntry 128) : (s.withNodes x).dispatch = s.dispatch := rfl
@[simp] theorem withNodes_mode (s : State) (x : Table NodeEntry 128) : (s.withNodes x).mode = s.mode := rfl
@[simp] theorem withNodes_level (s : State) (x : Table NodeEntry 128) : (s.withNodes x).level = s.level := rfl
@[simp] theorem withNodes_segments (s : State) (x : Table NodeEntry 128) : (s.withNodes x).segments = s.segments := rfl
@[simp] theorem withNodes_walls (s : State) (x : Table NodeEntry 128) : (s.withNodes x).walls = s.walls := rfl
@[simp] theorem withNodes_pourClock (s : State) (x : Table NodeEntry 128) : (s.withNodes x).pourClock = s.pourClock := rfl
@[simp] theorem withNodes_placementSeen (s : State) (x : Table NodeEntry 128) : (s.withNodes x).placementSeen = s.placementSeen := rfl
@[simp] theorem withNodes_feed (s : State) (x : Table NodeEntry 128) : (s.withNodes x).feed = s.feed := rfl
@[simp] theorem withNodes_conditions (s : State) (x : Table NodeEntry 128) : (s.withNodes x).conditions = s.conditions := rfl
@[simp] theorem withNodes_monitors (s : State) (x : Table NodeEntry 128) : (s.withNodes x).monitors = s.monitors := rfl
@[simp] theorem withNodes_markers (s : State) (x : Table NodeEntry 128) : (s.withNodes x).markers = s.markers := rfl
@[simp] theorem withNodes_command (s : State) (x : Table NodeEntry 128) : (s.withNodes x).command = s.command := rfl
@[simp] theorem withNodes_params (s : State) (x : Table NodeEntry 128) : (s.withNodes x).params = s.params := rfl
@[simp] theorem withNodes_agents (s : State) (x : Table NodeEntry 128) : (s.withNodes x).agents = s.agents := rfl
@[simp] theorem withNodes_console (s : State) (x : Table NodeEntry 128) : (s.withNodes x).console = s.console := rfl
@[simp] theorem withNodes_relays (s : State) (x : Table NodeEntry 128) : (s.withNodes x).relays = s.relays := rfl
@[simp] theorem withNodes_transit (s : State) (x : Table NodeEntry 128) : (s.withNodes x).transit = s.transit := rfl
@[simp] theorem withNodes_jobs (s : State) (x : Table NodeEntry 128) : (s.withNodes x).jobs = s.jobs := rfl

@[simp] theorem withRecords_power (s : State) (x : Table NodeRecord 128) : (s.withRecords x).power = s.power := rfl
@[simp] theorem withRecords_now (s : State) (x : Table NodeRecord 128) : (s.withRecords x).now = s.now := rfl
@[simp] theorem withRecords_free (s : State) (x : Table NodeRecord 128) : (s.withRecords x).free = s.free := rfl
@[simp] theorem withRecords_pending (s : State) (x : Table NodeRecord 128) : (s.withRecords x).pending = s.pending := rfl
@[simp] theorem withRecords_nodes (s : State) (x : Table NodeRecord 128) : (s.withRecords x).nodes = s.nodes := rfl
@[simp] theorem withRecords_records (s : State) (x : Table NodeRecord 128) : (s.withRecords x).records = x := rfl
@[simp] theorem withRecords_expectations (s : State) (x : Table NodeRecord 128) : (s.withRecords x).expectations = s.expectations := rfl
@[simp] theorem withRecords_sweep (s : State) (x : Table NodeRecord 128) : (s.withRecords x).sweep = s.sweep := rfl
@[simp] theorem withRecords_ring (s : State) (x : Table NodeRecord 128) : (s.withRecords x).ring = s.ring := rfl
@[simp] theorem withRecords_dispatch (s : State) (x : Table NodeRecord 128) : (s.withRecords x).dispatch = s.dispatch := rfl
@[simp] theorem withRecords_mode (s : State) (x : Table NodeRecord 128) : (s.withRecords x).mode = s.mode := rfl
@[simp] theorem withRecords_level (s : State) (x : Table NodeRecord 128) : (s.withRecords x).level = s.level := rfl
@[simp] theorem withRecords_segments (s : State) (x : Table NodeRecord 128) : (s.withRecords x).segments = s.segments := rfl
@[simp] theorem withRecords_walls (s : State) (x : Table NodeRecord 128) : (s.withRecords x).walls = s.walls := rfl
@[simp] theorem withRecords_pourClock (s : State) (x : Table NodeRecord 128) : (s.withRecords x).pourClock = s.pourClock := rfl
@[simp] theorem withRecords_placementSeen (s : State) (x : Table NodeRecord 128) : (s.withRecords x).placementSeen = s.placementSeen := rfl
@[simp] theorem withRecords_feed (s : State) (x : Table NodeRecord 128) : (s.withRecords x).feed = s.feed := rfl
@[simp] theorem withRecords_conditions (s : State) (x : Table NodeRecord 128) : (s.withRecords x).conditions = s.conditions := rfl
@[simp] theorem withRecords_monitors (s : State) (x : Table NodeRecord 128) : (s.withRecords x).monitors = s.monitors := rfl
@[simp] theorem withRecords_markers (s : State) (x : Table NodeRecord 128) : (s.withRecords x).markers = s.markers := rfl
@[simp] theorem withRecords_command (s : State) (x : Table NodeRecord 128) : (s.withRecords x).command = s.command := rfl
@[simp] theorem withRecords_params (s : State) (x : Table NodeRecord 128) : (s.withRecords x).params = s.params := rfl
@[simp] theorem withRecords_agents (s : State) (x : Table NodeRecord 128) : (s.withRecords x).agents = s.agents := rfl
@[simp] theorem withRecords_console (s : State) (x : Table NodeRecord 128) : (s.withRecords x).console = s.console := rfl
@[simp] theorem withRecords_relays (s : State) (x : Table NodeRecord 128) : (s.withRecords x).relays = s.relays := rfl
@[simp] theorem withRecords_transit (s : State) (x : Table NodeRecord 128) : (s.withRecords x).transit = s.transit := rfl
@[simp] theorem withRecords_jobs (s : State) (x : Table NodeRecord 128) : (s.withRecords x).jobs = s.jobs := rfl

@[simp] theorem withExpectations_power (s : State) (x : Table (Option Expectation) 128) : (s.withExpectations x).power = s.power := rfl
@[simp] theorem withExpectations_now (s : State) (x : Table (Option Expectation) 128) : (s.withExpectations x).now = s.now := rfl
@[simp] theorem withExpectations_free (s : State) (x : Table (Option Expectation) 128) : (s.withExpectations x).free = s.free := rfl
@[simp] theorem withExpectations_pending (s : State) (x : Table (Option Expectation) 128) : (s.withExpectations x).pending = s.pending := rfl
@[simp] theorem withExpectations_nodes (s : State) (x : Table (Option Expectation) 128) : (s.withExpectations x).nodes = s.nodes := rfl
@[simp] theorem withExpectations_records (s : State) (x : Table (Option Expectation) 128) : (s.withExpectations x).records = s.records := rfl
@[simp] theorem withExpectations_expectations (s : State) (x : Table (Option Expectation) 128) : (s.withExpectations x).expectations = x := rfl
@[simp] theorem withExpectations_sweep (s : State) (x : Table (Option Expectation) 128) : (s.withExpectations x).sweep = s.sweep := rfl
@[simp] theorem withExpectations_ring (s : State) (x : Table (Option Expectation) 128) : (s.withExpectations x).ring = s.ring := rfl
@[simp] theorem withExpectations_dispatch (s : State) (x : Table (Option Expectation) 128) : (s.withExpectations x).dispatch = s.dispatch := rfl
@[simp] theorem withExpectations_mode (s : State) (x : Table (Option Expectation) 128) : (s.withExpectations x).mode = s.mode := rfl
@[simp] theorem withExpectations_level (s : State) (x : Table (Option Expectation) 128) : (s.withExpectations x).level = s.level := rfl
@[simp] theorem withExpectations_segments (s : State) (x : Table (Option Expectation) 128) : (s.withExpectations x).segments = s.segments := rfl
@[simp] theorem withExpectations_walls (s : State) (x : Table (Option Expectation) 128) : (s.withExpectations x).walls = s.walls := rfl
@[simp] theorem withExpectations_pourClock (s : State) (x : Table (Option Expectation) 128) : (s.withExpectations x).pourClock = s.pourClock := rfl
@[simp] theorem withExpectations_placementSeen (s : State) (x : Table (Option Expectation) 128) : (s.withExpectations x).placementSeen = s.placementSeen := rfl
@[simp] theorem withExpectations_feed (s : State) (x : Table (Option Expectation) 128) : (s.withExpectations x).feed = s.feed := rfl
@[simp] theorem withExpectations_conditions (s : State) (x : Table (Option Expectation) 128) : (s.withExpectations x).conditions = s.conditions := rfl
@[simp] theorem withExpectations_monitors (s : State) (x : Table (Option Expectation) 128) : (s.withExpectations x).monitors = s.monitors := rfl
@[simp] theorem withExpectations_markers (s : State) (x : Table (Option Expectation) 128) : (s.withExpectations x).markers = s.markers := rfl
@[simp] theorem withExpectations_command (s : State) (x : Table (Option Expectation) 128) : (s.withExpectations x).command = s.command := rfl
@[simp] theorem withExpectations_params (s : State) (x : Table (Option Expectation) 128) : (s.withExpectations x).params = s.params := rfl
@[simp] theorem withExpectations_agents (s : State) (x : Table (Option Expectation) 128) : (s.withExpectations x).agents = s.agents := rfl
@[simp] theorem withExpectations_console (s : State) (x : Table (Option Expectation) 128) : (s.withExpectations x).console = s.console := rfl
@[simp] theorem withExpectations_relays (s : State) (x : Table (Option Expectation) 128) : (s.withExpectations x).relays = s.relays := rfl
@[simp] theorem withExpectations_transit (s : State) (x : Table (Option Expectation) 128) : (s.withExpectations x).transit = s.transit := rfl
@[simp] theorem withExpectations_jobs (s : State) (x : Table (Option Expectation) 128) : (s.withExpectations x).jobs = s.jobs := rfl

@[simp] theorem withSweep_power (s : State) (x : Sweep) : (s.withSweep x).power = s.power := rfl
@[simp] theorem withSweep_now (s : State) (x : Sweep) : (s.withSweep x).now = s.now := rfl
@[simp] theorem withSweep_free (s : State) (x : Sweep) : (s.withSweep x).free = s.free := rfl
@[simp] theorem withSweep_pending (s : State) (x : Sweep) : (s.withSweep x).pending = s.pending := rfl
@[simp] theorem withSweep_nodes (s : State) (x : Sweep) : (s.withSweep x).nodes = s.nodes := rfl
@[simp] theorem withSweep_records (s : State) (x : Sweep) : (s.withSweep x).records = s.records := rfl
@[simp] theorem withSweep_expectations (s : State) (x : Sweep) : (s.withSweep x).expectations = s.expectations := rfl
@[simp] theorem withSweep_sweep (s : State) (x : Sweep) : (s.withSweep x).sweep = x := rfl
@[simp] theorem withSweep_ring (s : State) (x : Sweep) : (s.withSweep x).ring = s.ring := rfl
@[simp] theorem withSweep_dispatch (s : State) (x : Sweep) : (s.withSweep x).dispatch = s.dispatch := rfl
@[simp] theorem withSweep_mode (s : State) (x : Sweep) : (s.withSweep x).mode = s.mode := rfl
@[simp] theorem withSweep_level (s : State) (x : Sweep) : (s.withSweep x).level = s.level := rfl
@[simp] theorem withSweep_segments (s : State) (x : Sweep) : (s.withSweep x).segments = s.segments := rfl
@[simp] theorem withSweep_walls (s : State) (x : Sweep) : (s.withSweep x).walls = s.walls := rfl
@[simp] theorem withSweep_pourClock (s : State) (x : Sweep) : (s.withSweep x).pourClock = s.pourClock := rfl
@[simp] theorem withSweep_placementSeen (s : State) (x : Sweep) : (s.withSweep x).placementSeen = s.placementSeen := rfl
@[simp] theorem withSweep_feed (s : State) (x : Sweep) : (s.withSweep x).feed = s.feed := rfl
@[simp] theorem withSweep_conditions (s : State) (x : Sweep) : (s.withSweep x).conditions = s.conditions := rfl
@[simp] theorem withSweep_monitors (s : State) (x : Sweep) : (s.withSweep x).monitors = s.monitors := rfl
@[simp] theorem withSweep_markers (s : State) (x : Sweep) : (s.withSweep x).markers = s.markers := rfl
@[simp] theorem withSweep_command (s : State) (x : Sweep) : (s.withSweep x).command = s.command := rfl
@[simp] theorem withSweep_params (s : State) (x : Sweep) : (s.withSweep x).params = s.params := rfl
@[simp] theorem withSweep_agents (s : State) (x : Sweep) : (s.withSweep x).agents = s.agents := rfl
@[simp] theorem withSweep_console (s : State) (x : Sweep) : (s.withSweep x).console = s.console := rfl
@[simp] theorem withSweep_relays (s : State) (x : Sweep) : (s.withSweep x).relays = s.relays := rfl
@[simp] theorem withSweep_transit (s : State) (x : Sweep) : (s.withSweep x).transit = s.transit := rfl
@[simp] theorem withSweep_jobs (s : State) (x : Sweep) : (s.withSweep x).jobs = s.jobs := rfl

@[simp] theorem withRing_power (s : State) (x : Option Exchange) : (s.withRing x).power = s.power := rfl
@[simp] theorem withRing_now (s : State) (x : Option Exchange) : (s.withRing x).now = s.now := rfl
@[simp] theorem withRing_free (s : State) (x : Option Exchange) : (s.withRing x).free = s.free := rfl
@[simp] theorem withRing_pending (s : State) (x : Option Exchange) : (s.withRing x).pending = s.pending := rfl
@[simp] theorem withRing_nodes (s : State) (x : Option Exchange) : (s.withRing x).nodes = s.nodes := rfl
@[simp] theorem withRing_records (s : State) (x : Option Exchange) : (s.withRing x).records = s.records := rfl
@[simp] theorem withRing_expectations (s : State) (x : Option Exchange) : (s.withRing x).expectations = s.expectations := rfl
@[simp] theorem withRing_sweep (s : State) (x : Option Exchange) : (s.withRing x).sweep = s.sweep := rfl
@[simp] theorem withRing_ring (s : State) (x : Option Exchange) : (s.withRing x).ring = x := rfl
@[simp] theorem withRing_dispatch (s : State) (x : Option Exchange) : (s.withRing x).dispatch = s.dispatch := rfl
@[simp] theorem withRing_mode (s : State) (x : Option Exchange) : (s.withRing x).mode = s.mode := rfl
@[simp] theorem withRing_level (s : State) (x : Option Exchange) : (s.withRing x).level = s.level := rfl
@[simp] theorem withRing_segments (s : State) (x : Option Exchange) : (s.withRing x).segments = s.segments := rfl
@[simp] theorem withRing_walls (s : State) (x : Option Exchange) : (s.withRing x).walls = s.walls := rfl
@[simp] theorem withRing_pourClock (s : State) (x : Option Exchange) : (s.withRing x).pourClock = s.pourClock := rfl
@[simp] theorem withRing_placementSeen (s : State) (x : Option Exchange) : (s.withRing x).placementSeen = s.placementSeen := rfl
@[simp] theorem withRing_feed (s : State) (x : Option Exchange) : (s.withRing x).feed = s.feed := rfl
@[simp] theorem withRing_conditions (s : State) (x : Option Exchange) : (s.withRing x).conditions = s.conditions := rfl
@[simp] theorem withRing_monitors (s : State) (x : Option Exchange) : (s.withRing x).monitors = s.monitors := rfl
@[simp] theorem withRing_markers (s : State) (x : Option Exchange) : (s.withRing x).markers = s.markers := rfl
@[simp] theorem withRing_command (s : State) (x : Option Exchange) : (s.withRing x).command = s.command := rfl
@[simp] theorem withRing_params (s : State) (x : Option Exchange) : (s.withRing x).params = s.params := rfl
@[simp] theorem withRing_agents (s : State) (x : Option Exchange) : (s.withRing x).agents = s.agents := rfl
@[simp] theorem withRing_console (s : State) (x : Option Exchange) : (s.withRing x).console = s.console := rfl
@[simp] theorem withRing_relays (s : State) (x : Option Exchange) : (s.withRing x).relays = s.relays := rfl
@[simp] theorem withRing_transit (s : State) (x : Option Exchange) : (s.withRing x).transit = s.transit := rfl
@[simp] theorem withRing_jobs (s : State) (x : Option Exchange) : (s.withRing x).jobs = s.jobs := rfl

@[simp] theorem withDispatch_power (s : State) (x : Dispatch) : (s.withDispatch x).power = s.power := rfl
@[simp] theorem withDispatch_now (s : State) (x : Dispatch) : (s.withDispatch x).now = s.now := rfl
@[simp] theorem withDispatch_free (s : State) (x : Dispatch) : (s.withDispatch x).free = s.free := rfl
@[simp] theorem withDispatch_pending (s : State) (x : Dispatch) : (s.withDispatch x).pending = s.pending := rfl
@[simp] theorem withDispatch_nodes (s : State) (x : Dispatch) : (s.withDispatch x).nodes = s.nodes := rfl
@[simp] theorem withDispatch_records (s : State) (x : Dispatch) : (s.withDispatch x).records = s.records := rfl
@[simp] theorem withDispatch_expectations (s : State) (x : Dispatch) : (s.withDispatch x).expectations = s.expectations := rfl
@[simp] theorem withDispatch_sweep (s : State) (x : Dispatch) : (s.withDispatch x).sweep = s.sweep := rfl
@[simp] theorem withDispatch_ring (s : State) (x : Dispatch) : (s.withDispatch x).ring = s.ring := rfl
@[simp] theorem withDispatch_dispatch (s : State) (x : Dispatch) : (s.withDispatch x).dispatch = x := rfl
@[simp] theorem withDispatch_mode (s : State) (x : Dispatch) : (s.withDispatch x).mode = s.mode := rfl
@[simp] theorem withDispatch_level (s : State) (x : Dispatch) : (s.withDispatch x).level = s.level := rfl
@[simp] theorem withDispatch_segments (s : State) (x : Dispatch) : (s.withDispatch x).segments = s.segments := rfl
@[simp] theorem withDispatch_walls (s : State) (x : Dispatch) : (s.withDispatch x).walls = s.walls := rfl
@[simp] theorem withDispatch_pourClock (s : State) (x : Dispatch) : (s.withDispatch x).pourClock = s.pourClock := rfl
@[simp] theorem withDispatch_placementSeen (s : State) (x : Dispatch) : (s.withDispatch x).placementSeen = s.placementSeen := rfl
@[simp] theorem withDispatch_feed (s : State) (x : Dispatch) : (s.withDispatch x).feed = s.feed := rfl
@[simp] theorem withDispatch_conditions (s : State) (x : Dispatch) : (s.withDispatch x).conditions = s.conditions := rfl
@[simp] theorem withDispatch_monitors (s : State) (x : Dispatch) : (s.withDispatch x).monitors = s.monitors := rfl
@[simp] theorem withDispatch_markers (s : State) (x : Dispatch) : (s.withDispatch x).markers = s.markers := rfl
@[simp] theorem withDispatch_command (s : State) (x : Dispatch) : (s.withDispatch x).command = s.command := rfl
@[simp] theorem withDispatch_params (s : State) (x : Dispatch) : (s.withDispatch x).params = s.params := rfl
@[simp] theorem withDispatch_agents (s : State) (x : Dispatch) : (s.withDispatch x).agents = s.agents := rfl
@[simp] theorem withDispatch_console (s : State) (x : Dispatch) : (s.withDispatch x).console = s.console := rfl
@[simp] theorem withDispatch_relays (s : State) (x : Dispatch) : (s.withDispatch x).relays = s.relays := rfl
@[simp] theorem withDispatch_transit (s : State) (x : Dispatch) : (s.withDispatch x).transit = s.transit := rfl
@[simp] theorem withDispatch_jobs (s : State) (x : Dispatch) : (s.withDispatch x).jobs = s.jobs := rfl

@[simp] theorem withMode_power (s : State) (x : RiseMode) : (s.withMode x).power = s.power := rfl
@[simp] theorem withMode_now (s : State) (x : RiseMode) : (s.withMode x).now = s.now := rfl
@[simp] theorem withMode_free (s : State) (x : RiseMode) : (s.withMode x).free = s.free := rfl
@[simp] theorem withMode_pending (s : State) (x : RiseMode) : (s.withMode x).pending = s.pending := rfl
@[simp] theorem withMode_nodes (s : State) (x : RiseMode) : (s.withMode x).nodes = s.nodes := rfl
@[simp] theorem withMode_records (s : State) (x : RiseMode) : (s.withMode x).records = s.records := rfl
@[simp] theorem withMode_expectations (s : State) (x : RiseMode) : (s.withMode x).expectations = s.expectations := rfl
@[simp] theorem withMode_sweep (s : State) (x : RiseMode) : (s.withMode x).sweep = s.sweep := rfl
@[simp] theorem withMode_ring (s : State) (x : RiseMode) : (s.withMode x).ring = s.ring := rfl
@[simp] theorem withMode_dispatch (s : State) (x : RiseMode) : (s.withMode x).dispatch = s.dispatch := rfl
@[simp] theorem withMode_mode (s : State) (x : RiseMode) : (s.withMode x).mode = x := rfl
@[simp] theorem withMode_level (s : State) (x : RiseMode) : (s.withMode x).level = s.level := rfl
@[simp] theorem withMode_segments (s : State) (x : RiseMode) : (s.withMode x).segments = s.segments := rfl
@[simp] theorem withMode_walls (s : State) (x : RiseMode) : (s.withMode x).walls = s.walls := rfl
@[simp] theorem withMode_pourClock (s : State) (x : RiseMode) : (s.withMode x).pourClock = s.pourClock := rfl
@[simp] theorem withMode_placementSeen (s : State) (x : RiseMode) : (s.withMode x).placementSeen = s.placementSeen := rfl
@[simp] theorem withMode_feed (s : State) (x : RiseMode) : (s.withMode x).feed = s.feed := rfl
@[simp] theorem withMode_conditions (s : State) (x : RiseMode) : (s.withMode x).conditions = s.conditions := rfl
@[simp] theorem withMode_monitors (s : State) (x : RiseMode) : (s.withMode x).monitors = s.monitors := rfl
@[simp] theorem withMode_markers (s : State) (x : RiseMode) : (s.withMode x).markers = s.markers := rfl
@[simp] theorem withMode_command (s : State) (x : RiseMode) : (s.withMode x).command = s.command := rfl
@[simp] theorem withMode_params (s : State) (x : RiseMode) : (s.withMode x).params = s.params := rfl
@[simp] theorem withMode_agents (s : State) (x : RiseMode) : (s.withMode x).agents = s.agents := rfl
@[simp] theorem withMode_console (s : State) (x : RiseMode) : (s.withMode x).console = s.console := rfl
@[simp] theorem withMode_relays (s : State) (x : RiseMode) : (s.withMode x).relays = s.relays := rfl
@[simp] theorem withMode_transit (s : State) (x : RiseMode) : (s.withMode x).transit = s.transit := rfl
@[simp] theorem withMode_jobs (s : State) (x : RiseMode) : (s.withMode x).jobs = s.jobs := rfl

@[simp] theorem withLevel_power (s : State) (x : LevelUnit) : (s.withLevel x).power = s.power := rfl
@[simp] theorem withLevel_now (s : State) (x : LevelUnit) : (s.withLevel x).now = s.now := rfl
@[simp] theorem withLevel_free (s : State) (x : LevelUnit) : (s.withLevel x).free = s.free := rfl
@[simp] theorem withLevel_pending (s : State) (x : LevelUnit) : (s.withLevel x).pending = s.pending := rfl
@[simp] theorem withLevel_nodes (s : State) (x : LevelUnit) : (s.withLevel x).nodes = s.nodes := rfl
@[simp] theorem withLevel_records (s : State) (x : LevelUnit) : (s.withLevel x).records = s.records := rfl
@[simp] theorem withLevel_expectations (s : State) (x : LevelUnit) : (s.withLevel x).expectations = s.expectations := rfl
@[simp] theorem withLevel_sweep (s : State) (x : LevelUnit) : (s.withLevel x).sweep = s.sweep := rfl
@[simp] theorem withLevel_ring (s : State) (x : LevelUnit) : (s.withLevel x).ring = s.ring := rfl
@[simp] theorem withLevel_dispatch (s : State) (x : LevelUnit) : (s.withLevel x).dispatch = s.dispatch := rfl
@[simp] theorem withLevel_mode (s : State) (x : LevelUnit) : (s.withLevel x).mode = s.mode := rfl
@[simp] theorem withLevel_level (s : State) (x : LevelUnit) : (s.withLevel x).level = x := rfl
@[simp] theorem withLevel_segments (s : State) (x : LevelUnit) : (s.withLevel x).segments = s.segments := rfl
@[simp] theorem withLevel_walls (s : State) (x : LevelUnit) : (s.withLevel x).walls = s.walls := rfl
@[simp] theorem withLevel_pourClock (s : State) (x : LevelUnit) : (s.withLevel x).pourClock = s.pourClock := rfl
@[simp] theorem withLevel_placementSeen (s : State) (x : LevelUnit) : (s.withLevel x).placementSeen = s.placementSeen := rfl
@[simp] theorem withLevel_feed (s : State) (x : LevelUnit) : (s.withLevel x).feed = s.feed := rfl
@[simp] theorem withLevel_conditions (s : State) (x : LevelUnit) : (s.withLevel x).conditions = s.conditions := rfl
@[simp] theorem withLevel_monitors (s : State) (x : LevelUnit) : (s.withLevel x).monitors = s.monitors := rfl
@[simp] theorem withLevel_markers (s : State) (x : LevelUnit) : (s.withLevel x).markers = s.markers := rfl
@[simp] theorem withLevel_command (s : State) (x : LevelUnit) : (s.withLevel x).command = s.command := rfl
@[simp] theorem withLevel_params (s : State) (x : LevelUnit) : (s.withLevel x).params = s.params := rfl
@[simp] theorem withLevel_agents (s : State) (x : LevelUnit) : (s.withLevel x).agents = s.agents := rfl
@[simp] theorem withLevel_console (s : State) (x : LevelUnit) : (s.withLevel x).console = s.console := rfl
@[simp] theorem withLevel_relays (s : State) (x : LevelUnit) : (s.withLevel x).relays = s.relays := rfl
@[simp] theorem withLevel_transit (s : State) (x : LevelUnit) : (s.withLevel x).transit = s.transit := rfl
@[simp] theorem withLevel_jobs (s : State) (x : LevelUnit) : (s.withLevel x).jobs = s.jobs := rfl

@[simp] theorem withSegments_power (s : State) (x : Table SegmentEntry 32) : (s.withSegments x).power = s.power := rfl
@[simp] theorem withSegments_now (s : State) (x : Table SegmentEntry 32) : (s.withSegments x).now = s.now := rfl
@[simp] theorem withSegments_free (s : State) (x : Table SegmentEntry 32) : (s.withSegments x).free = s.free := rfl
@[simp] theorem withSegments_pending (s : State) (x : Table SegmentEntry 32) : (s.withSegments x).pending = s.pending := rfl
@[simp] theorem withSegments_nodes (s : State) (x : Table SegmentEntry 32) : (s.withSegments x).nodes = s.nodes := rfl
@[simp] theorem withSegments_records (s : State) (x : Table SegmentEntry 32) : (s.withSegments x).records = s.records := rfl
@[simp] theorem withSegments_expectations (s : State) (x : Table SegmentEntry 32) : (s.withSegments x).expectations = s.expectations := rfl
@[simp] theorem withSegments_sweep (s : State) (x : Table SegmentEntry 32) : (s.withSegments x).sweep = s.sweep := rfl
@[simp] theorem withSegments_ring (s : State) (x : Table SegmentEntry 32) : (s.withSegments x).ring = s.ring := rfl
@[simp] theorem withSegments_dispatch (s : State) (x : Table SegmentEntry 32) : (s.withSegments x).dispatch = s.dispatch := rfl
@[simp] theorem withSegments_mode (s : State) (x : Table SegmentEntry 32) : (s.withSegments x).mode = s.mode := rfl
@[simp] theorem withSegments_level (s : State) (x : Table SegmentEntry 32) : (s.withSegments x).level = s.level := rfl
@[simp] theorem withSegments_segments (s : State) (x : Table SegmentEntry 32) : (s.withSegments x).segments = x := rfl
@[simp] theorem withSegments_walls (s : State) (x : Table SegmentEntry 32) : (s.withSegments x).walls = s.walls := rfl
@[simp] theorem withSegments_pourClock (s : State) (x : Table SegmentEntry 32) : (s.withSegments x).pourClock = s.pourClock := rfl
@[simp] theorem withSegments_placementSeen (s : State) (x : Table SegmentEntry 32) : (s.withSegments x).placementSeen = s.placementSeen := rfl
@[simp] theorem withSegments_feed (s : State) (x : Table SegmentEntry 32) : (s.withSegments x).feed = s.feed := rfl
@[simp] theorem withSegments_conditions (s : State) (x : Table SegmentEntry 32) : (s.withSegments x).conditions = s.conditions := rfl
@[simp] theorem withSegments_monitors (s : State) (x : Table SegmentEntry 32) : (s.withSegments x).monitors = s.monitors := rfl
@[simp] theorem withSegments_markers (s : State) (x : Table SegmentEntry 32) : (s.withSegments x).markers = s.markers := rfl
@[simp] theorem withSegments_command (s : State) (x : Table SegmentEntry 32) : (s.withSegments x).command = s.command := rfl
@[simp] theorem withSegments_params (s : State) (x : Table SegmentEntry 32) : (s.withSegments x).params = s.params := rfl
@[simp] theorem withSegments_agents (s : State) (x : Table SegmentEntry 32) : (s.withSegments x).agents = s.agents := rfl
@[simp] theorem withSegments_console (s : State) (x : Table SegmentEntry 32) : (s.withSegments x).console = s.console := rfl
@[simp] theorem withSegments_relays (s : State) (x : Table SegmentEntry 32) : (s.withSegments x).relays = s.relays := rfl
@[simp] theorem withSegments_transit (s : State) (x : Table SegmentEntry 32) : (s.withSegments x).transit = s.transit := rfl
@[simp] theorem withSegments_jobs (s : State) (x : Table SegmentEntry 32) : (s.withSegments x).jobs = s.jobs := rfl

@[simp] theorem withWalls_power (s : State) (x : Table SegmentLive 32) : (s.withWalls x).power = s.power := rfl
@[simp] theorem withWalls_now (s : State) (x : Table SegmentLive 32) : (s.withWalls x).now = s.now := rfl
@[simp] theorem withWalls_free (s : State) (x : Table SegmentLive 32) : (s.withWalls x).free = s.free := rfl
@[simp] theorem withWalls_pending (s : State) (x : Table SegmentLive 32) : (s.withWalls x).pending = s.pending := rfl
@[simp] theorem withWalls_nodes (s : State) (x : Table SegmentLive 32) : (s.withWalls x).nodes = s.nodes := rfl
@[simp] theorem withWalls_records (s : State) (x : Table SegmentLive 32) : (s.withWalls x).records = s.records := rfl
@[simp] theorem withWalls_expectations (s : State) (x : Table SegmentLive 32) : (s.withWalls x).expectations = s.expectations := rfl
@[simp] theorem withWalls_sweep (s : State) (x : Table SegmentLive 32) : (s.withWalls x).sweep = s.sweep := rfl
@[simp] theorem withWalls_ring (s : State) (x : Table SegmentLive 32) : (s.withWalls x).ring = s.ring := rfl
@[simp] theorem withWalls_dispatch (s : State) (x : Table SegmentLive 32) : (s.withWalls x).dispatch = s.dispatch := rfl
@[simp] theorem withWalls_mode (s : State) (x : Table SegmentLive 32) : (s.withWalls x).mode = s.mode := rfl
@[simp] theorem withWalls_level (s : State) (x : Table SegmentLive 32) : (s.withWalls x).level = s.level := rfl
@[simp] theorem withWalls_segments (s : State) (x : Table SegmentLive 32) : (s.withWalls x).segments = s.segments := rfl
@[simp] theorem withWalls_walls (s : State) (x : Table SegmentLive 32) : (s.withWalls x).walls = x := rfl
@[simp] theorem withWalls_pourClock (s : State) (x : Table SegmentLive 32) : (s.withWalls x).pourClock = s.pourClock := rfl
@[simp] theorem withWalls_placementSeen (s : State) (x : Table SegmentLive 32) : (s.withWalls x).placementSeen = s.placementSeen := rfl
@[simp] theorem withWalls_feed (s : State) (x : Table SegmentLive 32) : (s.withWalls x).feed = s.feed := rfl
@[simp] theorem withWalls_conditions (s : State) (x : Table SegmentLive 32) : (s.withWalls x).conditions = s.conditions := rfl
@[simp] theorem withWalls_monitors (s : State) (x : Table SegmentLive 32) : (s.withWalls x).monitors = s.monitors := rfl
@[simp] theorem withWalls_markers (s : State) (x : Table SegmentLive 32) : (s.withWalls x).markers = s.markers := rfl
@[simp] theorem withWalls_command (s : State) (x : Table SegmentLive 32) : (s.withWalls x).command = s.command := rfl
@[simp] theorem withWalls_params (s : State) (x : Table SegmentLive 32) : (s.withWalls x).params = s.params := rfl
@[simp] theorem withWalls_agents (s : State) (x : Table SegmentLive 32) : (s.withWalls x).agents = s.agents := rfl
@[simp] theorem withWalls_console (s : State) (x : Table SegmentLive 32) : (s.withWalls x).console = s.console := rfl
@[simp] theorem withWalls_relays (s : State) (x : Table SegmentLive 32) : (s.withWalls x).relays = s.relays := rfl
@[simp] theorem withWalls_transit (s : State) (x : Table SegmentLive 32) : (s.withWalls x).transit = s.transit := rfl
@[simp] theorem withWalls_jobs (s : State) (x : Table SegmentLive 32) : (s.withWalls x).jobs = s.jobs := rfl

@[simp] theorem withPourClock_power (s : State) (x : Nat) : (s.withPourClock x).power = s.power := rfl
@[simp] theorem withPourClock_now (s : State) (x : Nat) : (s.withPourClock x).now = s.now := rfl
@[simp] theorem withPourClock_free (s : State) (x : Nat) : (s.withPourClock x).free = s.free := rfl
@[simp] theorem withPourClock_pending (s : State) (x : Nat) : (s.withPourClock x).pending = s.pending := rfl
@[simp] theorem withPourClock_nodes (s : State) (x : Nat) : (s.withPourClock x).nodes = s.nodes := rfl
@[simp] theorem withPourClock_records (s : State) (x : Nat) : (s.withPourClock x).records = s.records := rfl
@[simp] theorem withPourClock_expectations (s : State) (x : Nat) : (s.withPourClock x).expectations = s.expectations := rfl
@[simp] theorem withPourClock_sweep (s : State) (x : Nat) : (s.withPourClock x).sweep = s.sweep := rfl
@[simp] theorem withPourClock_ring (s : State) (x : Nat) : (s.withPourClock x).ring = s.ring := rfl
@[simp] theorem withPourClock_dispatch (s : State) (x : Nat) : (s.withPourClock x).dispatch = s.dispatch := rfl
@[simp] theorem withPourClock_mode (s : State) (x : Nat) : (s.withPourClock x).mode = s.mode := rfl
@[simp] theorem withPourClock_level (s : State) (x : Nat) : (s.withPourClock x).level = s.level := rfl
@[simp] theorem withPourClock_segments (s : State) (x : Nat) : (s.withPourClock x).segments = s.segments := rfl
@[simp] theorem withPourClock_walls (s : State) (x : Nat) : (s.withPourClock x).walls = s.walls := rfl
@[simp] theorem withPourClock_pourClock (s : State) (x : Nat) : (s.withPourClock x).pourClock = x := rfl
@[simp] theorem withPourClock_placementSeen (s : State) (x : Nat) : (s.withPourClock x).placementSeen = s.placementSeen := rfl
@[simp] theorem withPourClock_feed (s : State) (x : Nat) : (s.withPourClock x).feed = s.feed := rfl
@[simp] theorem withPourClock_conditions (s : State) (x : Nat) : (s.withPourClock x).conditions = s.conditions := rfl
@[simp] theorem withPourClock_monitors (s : State) (x : Nat) : (s.withPourClock x).monitors = s.monitors := rfl
@[simp] theorem withPourClock_markers (s : State) (x : Nat) : (s.withPourClock x).markers = s.markers := rfl
@[simp] theorem withPourClock_command (s : State) (x : Nat) : (s.withPourClock x).command = s.command := rfl
@[simp] theorem withPourClock_params (s : State) (x : Nat) : (s.withPourClock x).params = s.params := rfl
@[simp] theorem withPourClock_agents (s : State) (x : Nat) : (s.withPourClock x).agents = s.agents := rfl
@[simp] theorem withPourClock_console (s : State) (x : Nat) : (s.withPourClock x).console = s.console := rfl
@[simp] theorem withPourClock_relays (s : State) (x : Nat) : (s.withPourClock x).relays = s.relays := rfl
@[simp] theorem withPourClock_transit (s : State) (x : Nat) : (s.withPourClock x).transit = s.transit := rfl
@[simp] theorem withPourClock_jobs (s : State) (x : Nat) : (s.withPourClock x).jobs = s.jobs := rfl

@[simp] theorem withPlacementSeen_power (s : State) (x : Option CycleResult) : (s.withPlacementSeen x).power = s.power := rfl
@[simp] theorem withPlacementSeen_now (s : State) (x : Option CycleResult) : (s.withPlacementSeen x).now = s.now := rfl
@[simp] theorem withPlacementSeen_free (s : State) (x : Option CycleResult) : (s.withPlacementSeen x).free = s.free := rfl
@[simp] theorem withPlacementSeen_pending (s : State) (x : Option CycleResult) : (s.withPlacementSeen x).pending = s.pending := rfl
@[simp] theorem withPlacementSeen_nodes (s : State) (x : Option CycleResult) : (s.withPlacementSeen x).nodes = s.nodes := rfl
@[simp] theorem withPlacementSeen_records (s : State) (x : Option CycleResult) : (s.withPlacementSeen x).records = s.records := rfl
@[simp] theorem withPlacementSeen_expectations (s : State) (x : Option CycleResult) : (s.withPlacementSeen x).expectations = s.expectations := rfl
@[simp] theorem withPlacementSeen_sweep (s : State) (x : Option CycleResult) : (s.withPlacementSeen x).sweep = s.sweep := rfl
@[simp] theorem withPlacementSeen_ring (s : State) (x : Option CycleResult) : (s.withPlacementSeen x).ring = s.ring := rfl
@[simp] theorem withPlacementSeen_dispatch (s : State) (x : Option CycleResult) : (s.withPlacementSeen x).dispatch = s.dispatch := rfl
@[simp] theorem withPlacementSeen_mode (s : State) (x : Option CycleResult) : (s.withPlacementSeen x).mode = s.mode := rfl
@[simp] theorem withPlacementSeen_level (s : State) (x : Option CycleResult) : (s.withPlacementSeen x).level = s.level := rfl
@[simp] theorem withPlacementSeen_segments (s : State) (x : Option CycleResult) : (s.withPlacementSeen x).segments = s.segments := rfl
@[simp] theorem withPlacementSeen_walls (s : State) (x : Option CycleResult) : (s.withPlacementSeen x).walls = s.walls := rfl
@[simp] theorem withPlacementSeen_pourClock (s : State) (x : Option CycleResult) : (s.withPlacementSeen x).pourClock = s.pourClock := rfl
@[simp] theorem withPlacementSeen_placementSeen (s : State) (x : Option CycleResult) : (s.withPlacementSeen x).placementSeen = x := rfl
@[simp] theorem withPlacementSeen_feed (s : State) (x : Option CycleResult) : (s.withPlacementSeen x).feed = s.feed := rfl
@[simp] theorem withPlacementSeen_conditions (s : State) (x : Option CycleResult) : (s.withPlacementSeen x).conditions = s.conditions := rfl
@[simp] theorem withPlacementSeen_monitors (s : State) (x : Option CycleResult) : (s.withPlacementSeen x).monitors = s.monitors := rfl
@[simp] theorem withPlacementSeen_markers (s : State) (x : Option CycleResult) : (s.withPlacementSeen x).markers = s.markers := rfl
@[simp] theorem withPlacementSeen_command (s : State) (x : Option CycleResult) : (s.withPlacementSeen x).command = s.command := rfl
@[simp] theorem withPlacementSeen_params (s : State) (x : Option CycleResult) : (s.withPlacementSeen x).params = s.params := rfl
@[simp] theorem withPlacementSeen_agents (s : State) (x : Option CycleResult) : (s.withPlacementSeen x).agents = s.agents := rfl
@[simp] theorem withPlacementSeen_console (s : State) (x : Option CycleResult) : (s.withPlacementSeen x).console = s.console := rfl
@[simp] theorem withPlacementSeen_relays (s : State) (x : Option CycleResult) : (s.withPlacementSeen x).relays = s.relays := rfl
@[simp] theorem withPlacementSeen_transit (s : State) (x : Option CycleResult) : (s.withPlacementSeen x).transit = s.transit := rfl
@[simp] theorem withPlacementSeen_jobs (s : State) (x : Option CycleResult) : (s.withPlacementSeen x).jobs = s.jobs := rfl

@[simp] theorem withFeed_power (s : State) (x : Feed) : (s.withFeed x).power = s.power := rfl
@[simp] theorem withFeed_now (s : State) (x : Feed) : (s.withFeed x).now = s.now := rfl
@[simp] theorem withFeed_free (s : State) (x : Feed) : (s.withFeed x).free = s.free := rfl
@[simp] theorem withFeed_pending (s : State) (x : Feed) : (s.withFeed x).pending = s.pending := rfl
@[simp] theorem withFeed_nodes (s : State) (x : Feed) : (s.withFeed x).nodes = s.nodes := rfl
@[simp] theorem withFeed_records (s : State) (x : Feed) : (s.withFeed x).records = s.records := rfl
@[simp] theorem withFeed_expectations (s : State) (x : Feed) : (s.withFeed x).expectations = s.expectations := rfl
@[simp] theorem withFeed_sweep (s : State) (x : Feed) : (s.withFeed x).sweep = s.sweep := rfl
@[simp] theorem withFeed_ring (s : State) (x : Feed) : (s.withFeed x).ring = s.ring := rfl
@[simp] theorem withFeed_dispatch (s : State) (x : Feed) : (s.withFeed x).dispatch = s.dispatch := rfl
@[simp] theorem withFeed_mode (s : State) (x : Feed) : (s.withFeed x).mode = s.mode := rfl
@[simp] theorem withFeed_level (s : State) (x : Feed) : (s.withFeed x).level = s.level := rfl
@[simp] theorem withFeed_segments (s : State) (x : Feed) : (s.withFeed x).segments = s.segments := rfl
@[simp] theorem withFeed_walls (s : State) (x : Feed) : (s.withFeed x).walls = s.walls := rfl
@[simp] theorem withFeed_pourClock (s : State) (x : Feed) : (s.withFeed x).pourClock = s.pourClock := rfl
@[simp] theorem withFeed_placementSeen (s : State) (x : Feed) : (s.withFeed x).placementSeen = s.placementSeen := rfl
@[simp] theorem withFeed_feed (s : State) (x : Feed) : (s.withFeed x).feed = x := rfl
@[simp] theorem withFeed_conditions (s : State) (x : Feed) : (s.withFeed x).conditions = s.conditions := rfl
@[simp] theorem withFeed_monitors (s : State) (x : Feed) : (s.withFeed x).monitors = s.monitors := rfl
@[simp] theorem withFeed_markers (s : State) (x : Feed) : (s.withFeed x).markers = s.markers := rfl
@[simp] theorem withFeed_command (s : State) (x : Feed) : (s.withFeed x).command = s.command := rfl
@[simp] theorem withFeed_params (s : State) (x : Feed) : (s.withFeed x).params = s.params := rfl
@[simp] theorem withFeed_agents (s : State) (x : Feed) : (s.withFeed x).agents = s.agents := rfl
@[simp] theorem withFeed_console (s : State) (x : Feed) : (s.withFeed x).console = s.console := rfl
@[simp] theorem withFeed_relays (s : State) (x : Feed) : (s.withFeed x).relays = s.relays := rfl
@[simp] theorem withFeed_transit (s : State) (x : Feed) : (s.withFeed x).transit = s.transit := rfl
@[simp] theorem withFeed_jobs (s : State) (x : Feed) : (s.withFeed x).jobs = s.jobs := rfl

@[simp] theorem withConditions_power (s : State) (x : Conditions) : (s.withConditions x).power = s.power := rfl
@[simp] theorem withConditions_now (s : State) (x : Conditions) : (s.withConditions x).now = s.now := rfl
@[simp] theorem withConditions_free (s : State) (x : Conditions) : (s.withConditions x).free = s.free := rfl
@[simp] theorem withConditions_pending (s : State) (x : Conditions) : (s.withConditions x).pending = s.pending := rfl
@[simp] theorem withConditions_nodes (s : State) (x : Conditions) : (s.withConditions x).nodes = s.nodes := rfl
@[simp] theorem withConditions_records (s : State) (x : Conditions) : (s.withConditions x).records = s.records := rfl
@[simp] theorem withConditions_expectations (s : State) (x : Conditions) : (s.withConditions x).expectations = s.expectations := rfl
@[simp] theorem withConditions_sweep (s : State) (x : Conditions) : (s.withConditions x).sweep = s.sweep := rfl
@[simp] theorem withConditions_ring (s : State) (x : Conditions) : (s.withConditions x).ring = s.ring := rfl
@[simp] theorem withConditions_dispatch (s : State) (x : Conditions) : (s.withConditions x).dispatch = s.dispatch := rfl
@[simp] theorem withConditions_mode (s : State) (x : Conditions) : (s.withConditions x).mode = s.mode := rfl
@[simp] theorem withConditions_level (s : State) (x : Conditions) : (s.withConditions x).level = s.level := rfl
@[simp] theorem withConditions_segments (s : State) (x : Conditions) : (s.withConditions x).segments = s.segments := rfl
@[simp] theorem withConditions_walls (s : State) (x : Conditions) : (s.withConditions x).walls = s.walls := rfl
@[simp] theorem withConditions_pourClock (s : State) (x : Conditions) : (s.withConditions x).pourClock = s.pourClock := rfl
@[simp] theorem withConditions_placementSeen (s : State) (x : Conditions) : (s.withConditions x).placementSeen = s.placementSeen := rfl
@[simp] theorem withConditions_feed (s : State) (x : Conditions) : (s.withConditions x).feed = s.feed := rfl
@[simp] theorem withConditions_conditions (s : State) (x : Conditions) : (s.withConditions x).conditions = x := rfl
@[simp] theorem withConditions_monitors (s : State) (x : Conditions) : (s.withConditions x).monitors = s.monitors := rfl
@[simp] theorem withConditions_markers (s : State) (x : Conditions) : (s.withConditions x).markers = s.markers := rfl
@[simp] theorem withConditions_command (s : State) (x : Conditions) : (s.withConditions x).command = s.command := rfl
@[simp] theorem withConditions_params (s : State) (x : Conditions) : (s.withConditions x).params = s.params := rfl
@[simp] theorem withConditions_agents (s : State) (x : Conditions) : (s.withConditions x).agents = s.agents := rfl
@[simp] theorem withConditions_console (s : State) (x : Conditions) : (s.withConditions x).console = s.console := rfl
@[simp] theorem withConditions_relays (s : State) (x : Conditions) : (s.withConditions x).relays = s.relays := rfl
@[simp] theorem withConditions_transit (s : State) (x : Conditions) : (s.withConditions x).transit = s.transit := rfl
@[simp] theorem withConditions_jobs (s : State) (x : Conditions) : (s.withConditions x).jobs = s.jobs := rfl

@[simp] theorem withMonitors_power (s : State) (x : Monitors) : (s.withMonitors x).power = s.power := rfl
@[simp] theorem withMonitors_now (s : State) (x : Monitors) : (s.withMonitors x).now = s.now := rfl
@[simp] theorem withMonitors_free (s : State) (x : Monitors) : (s.withMonitors x).free = s.free := rfl
@[simp] theorem withMonitors_pending (s : State) (x : Monitors) : (s.withMonitors x).pending = s.pending := rfl
@[simp] theorem withMonitors_nodes (s : State) (x : Monitors) : (s.withMonitors x).nodes = s.nodes := rfl
@[simp] theorem withMonitors_records (s : State) (x : Monitors) : (s.withMonitors x).records = s.records := rfl
@[simp] theorem withMonitors_expectations (s : State) (x : Monitors) : (s.withMonitors x).expectations = s.expectations := rfl
@[simp] theorem withMonitors_sweep (s : State) (x : Monitors) : (s.withMonitors x).sweep = s.sweep := rfl
@[simp] theorem withMonitors_ring (s : State) (x : Monitors) : (s.withMonitors x).ring = s.ring := rfl
@[simp] theorem withMonitors_dispatch (s : State) (x : Monitors) : (s.withMonitors x).dispatch = s.dispatch := rfl
@[simp] theorem withMonitors_mode (s : State) (x : Monitors) : (s.withMonitors x).mode = s.mode := rfl
@[simp] theorem withMonitors_level (s : State) (x : Monitors) : (s.withMonitors x).level = s.level := rfl
@[simp] theorem withMonitors_segments (s : State) (x : Monitors) : (s.withMonitors x).segments = s.segments := rfl
@[simp] theorem withMonitors_walls (s : State) (x : Monitors) : (s.withMonitors x).walls = s.walls := rfl
@[simp] theorem withMonitors_pourClock (s : State) (x : Monitors) : (s.withMonitors x).pourClock = s.pourClock := rfl
@[simp] theorem withMonitors_placementSeen (s : State) (x : Monitors) : (s.withMonitors x).placementSeen = s.placementSeen := rfl
@[simp] theorem withMonitors_feed (s : State) (x : Monitors) : (s.withMonitors x).feed = s.feed := rfl
@[simp] theorem withMonitors_conditions (s : State) (x : Monitors) : (s.withMonitors x).conditions = s.conditions := rfl
@[simp] theorem withMonitors_monitors (s : State) (x : Monitors) : (s.withMonitors x).monitors = x := rfl
@[simp] theorem withMonitors_markers (s : State) (x : Monitors) : (s.withMonitors x).markers = s.markers := rfl
@[simp] theorem withMonitors_command (s : State) (x : Monitors) : (s.withMonitors x).command = s.command := rfl
@[simp] theorem withMonitors_params (s : State) (x : Monitors) : (s.withMonitors x).params = s.params := rfl
@[simp] theorem withMonitors_agents (s : State) (x : Monitors) : (s.withMonitors x).agents = s.agents := rfl
@[simp] theorem withMonitors_console (s : State) (x : Monitors) : (s.withMonitors x).console = s.console := rfl
@[simp] theorem withMonitors_relays (s : State) (x : Monitors) : (s.withMonitors x).relays = s.relays := rfl
@[simp] theorem withMonitors_transit (s : State) (x : Monitors) : (s.withMonitors x).transit = s.transit := rfl
@[simp] theorem withMonitors_jobs (s : State) (x : Monitors) : (s.withMonitors x).jobs = s.jobs := rfl

@[simp] theorem withMarkers_power (s : State) (x : Markers) : (s.withMarkers x).power = s.power := rfl
@[simp] theorem withMarkers_now (s : State) (x : Markers) : (s.withMarkers x).now = s.now := rfl
@[simp] theorem withMarkers_free (s : State) (x : Markers) : (s.withMarkers x).free = s.free := rfl
@[simp] theorem withMarkers_pending (s : State) (x : Markers) : (s.withMarkers x).pending = s.pending := rfl
@[simp] theorem withMarkers_nodes (s : State) (x : Markers) : (s.withMarkers x).nodes = s.nodes := rfl
@[simp] theorem withMarkers_records (s : State) (x : Markers) : (s.withMarkers x).records = s.records := rfl
@[simp] theorem withMarkers_expectations (s : State) (x : Markers) : (s.withMarkers x).expectations = s.expectations := rfl
@[simp] theorem withMarkers_sweep (s : State) (x : Markers) : (s.withMarkers x).sweep = s.sweep := rfl
@[simp] theorem withMarkers_ring (s : State) (x : Markers) : (s.withMarkers x).ring = s.ring := rfl
@[simp] theorem withMarkers_dispatch (s : State) (x : Markers) : (s.withMarkers x).dispatch = s.dispatch := rfl
@[simp] theorem withMarkers_mode (s : State) (x : Markers) : (s.withMarkers x).mode = s.mode := rfl
@[simp] theorem withMarkers_level (s : State) (x : Markers) : (s.withMarkers x).level = s.level := rfl
@[simp] theorem withMarkers_segments (s : State) (x : Markers) : (s.withMarkers x).segments = s.segments := rfl
@[simp] theorem withMarkers_walls (s : State) (x : Markers) : (s.withMarkers x).walls = s.walls := rfl
@[simp] theorem withMarkers_pourClock (s : State) (x : Markers) : (s.withMarkers x).pourClock = s.pourClock := rfl
@[simp] theorem withMarkers_placementSeen (s : State) (x : Markers) : (s.withMarkers x).placementSeen = s.placementSeen := rfl
@[simp] theorem withMarkers_feed (s : State) (x : Markers) : (s.withMarkers x).feed = s.feed := rfl
@[simp] theorem withMarkers_conditions (s : State) (x : Markers) : (s.withMarkers x).conditions = s.conditions := rfl
@[simp] theorem withMarkers_monitors (s : State) (x : Markers) : (s.withMarkers x).monitors = s.monitors := rfl
@[simp] theorem withMarkers_markers (s : State) (x : Markers) : (s.withMarkers x).markers = x := rfl
@[simp] theorem withMarkers_command (s : State) (x : Markers) : (s.withMarkers x).command = s.command := rfl
@[simp] theorem withMarkers_params (s : State) (x : Markers) : (s.withMarkers x).params = s.params := rfl
@[simp] theorem withMarkers_agents (s : State) (x : Markers) : (s.withMarkers x).agents = s.agents := rfl
@[simp] theorem withMarkers_console (s : State) (x : Markers) : (s.withMarkers x).console = s.console := rfl
@[simp] theorem withMarkers_relays (s : State) (x : Markers) : (s.withMarkers x).relays = s.relays := rfl
@[simp] theorem withMarkers_transit (s : State) (x : Markers) : (s.withMarkers x).transit = s.transit := rfl
@[simp] theorem withMarkers_jobs (s : State) (x : Markers) : (s.withMarkers x).jobs = s.jobs := rfl

@[simp] theorem withCommand_power (s : State) (x : CommandUnit) : (s.withCommand x).power = s.power := rfl
@[simp] theorem withCommand_now (s : State) (x : CommandUnit) : (s.withCommand x).now = s.now := rfl
@[simp] theorem withCommand_free (s : State) (x : CommandUnit) : (s.withCommand x).free = s.free := rfl
@[simp] theorem withCommand_pending (s : State) (x : CommandUnit) : (s.withCommand x).pending = s.pending := rfl
@[simp] theorem withCommand_nodes (s : State) (x : CommandUnit) : (s.withCommand x).nodes = s.nodes := rfl
@[simp] theorem withCommand_records (s : State) (x : CommandUnit) : (s.withCommand x).records = s.records := rfl
@[simp] theorem withCommand_expectations (s : State) (x : CommandUnit) : (s.withCommand x).expectations = s.expectations := rfl
@[simp] theorem withCommand_sweep (s : State) (x : CommandUnit) : (s.withCommand x).sweep = s.sweep := rfl
@[simp] theorem withCommand_ring (s : State) (x : CommandUnit) : (s.withCommand x).ring = s.ring := rfl
@[simp] theorem withCommand_dispatch (s : State) (x : CommandUnit) : (s.withCommand x).dispatch = s.dispatch := rfl
@[simp] theorem withCommand_mode (s : State) (x : CommandUnit) : (s.withCommand x).mode = s.mode := rfl
@[simp] theorem withCommand_level (s : State) (x : CommandUnit) : (s.withCommand x).level = s.level := rfl
@[simp] theorem withCommand_segments (s : State) (x : CommandUnit) : (s.withCommand x).segments = s.segments := rfl
@[simp] theorem withCommand_walls (s : State) (x : CommandUnit) : (s.withCommand x).walls = s.walls := rfl
@[simp] theorem withCommand_pourClock (s : State) (x : CommandUnit) : (s.withCommand x).pourClock = s.pourClock := rfl
@[simp] theorem withCommand_placementSeen (s : State) (x : CommandUnit) : (s.withCommand x).placementSeen = s.placementSeen := rfl
@[simp] theorem withCommand_feed (s : State) (x : CommandUnit) : (s.withCommand x).feed = s.feed := rfl
@[simp] theorem withCommand_conditions (s : State) (x : CommandUnit) : (s.withCommand x).conditions = s.conditions := rfl
@[simp] theorem withCommand_monitors (s : State) (x : CommandUnit) : (s.withCommand x).monitors = s.monitors := rfl
@[simp] theorem withCommand_markers (s : State) (x : CommandUnit) : (s.withCommand x).markers = s.markers := rfl
@[simp] theorem withCommand_command (s : State) (x : CommandUnit) : (s.withCommand x).command = x := rfl
@[simp] theorem withCommand_params (s : State) (x : CommandUnit) : (s.withCommand x).params = s.params := rfl
@[simp] theorem withCommand_agents (s : State) (x : CommandUnit) : (s.withCommand x).agents = s.agents := rfl
@[simp] theorem withCommand_console (s : State) (x : CommandUnit) : (s.withCommand x).console = s.console := rfl
@[simp] theorem withCommand_relays (s : State) (x : CommandUnit) : (s.withCommand x).relays = s.relays := rfl
@[simp] theorem withCommand_transit (s : State) (x : CommandUnit) : (s.withCommand x).transit = s.transit := rfl
@[simp] theorem withCommand_jobs (s : State) (x : CommandUnit) : (s.withCommand x).jobs = s.jobs := rfl

@[simp] theorem withParams_power (s : State) (x : Params) : (s.withParams x).power = s.power := rfl
@[simp] theorem withParams_now (s : State) (x : Params) : (s.withParams x).now = s.now := rfl
@[simp] theorem withParams_free (s : State) (x : Params) : (s.withParams x).free = s.free := rfl
@[simp] theorem withParams_pending (s : State) (x : Params) : (s.withParams x).pending = s.pending := rfl
@[simp] theorem withParams_nodes (s : State) (x : Params) : (s.withParams x).nodes = s.nodes := rfl
@[simp] theorem withParams_records (s : State) (x : Params) : (s.withParams x).records = s.records := rfl
@[simp] theorem withParams_expectations (s : State) (x : Params) : (s.withParams x).expectations = s.expectations := rfl
@[simp] theorem withParams_sweep (s : State) (x : Params) : (s.withParams x).sweep = s.sweep := rfl
@[simp] theorem withParams_ring (s : State) (x : Params) : (s.withParams x).ring = s.ring := rfl
@[simp] theorem withParams_dispatch (s : State) (x : Params) : (s.withParams x).dispatch = s.dispatch := rfl
@[simp] theorem withParams_mode (s : State) (x : Params) : (s.withParams x).mode = s.mode := rfl
@[simp] theorem withParams_level (s : State) (x : Params) : (s.withParams x).level = s.level := rfl
@[simp] theorem withParams_segments (s : State) (x : Params) : (s.withParams x).segments = s.segments := rfl
@[simp] theorem withParams_walls (s : State) (x : Params) : (s.withParams x).walls = s.walls := rfl
@[simp] theorem withParams_pourClock (s : State) (x : Params) : (s.withParams x).pourClock = s.pourClock := rfl
@[simp] theorem withParams_placementSeen (s : State) (x : Params) : (s.withParams x).placementSeen = s.placementSeen := rfl
@[simp] theorem withParams_feed (s : State) (x : Params) : (s.withParams x).feed = s.feed := rfl
@[simp] theorem withParams_conditions (s : State) (x : Params) : (s.withParams x).conditions = s.conditions := rfl
@[simp] theorem withParams_monitors (s : State) (x : Params) : (s.withParams x).monitors = s.monitors := rfl
@[simp] theorem withParams_markers (s : State) (x : Params) : (s.withParams x).markers = s.markers := rfl
@[simp] theorem withParams_command (s : State) (x : Params) : (s.withParams x).command = s.command := rfl
@[simp] theorem withParams_params (s : State) (x : Params) : (s.withParams x).params = x := rfl
@[simp] theorem withParams_agents (s : State) (x : Params) : (s.withParams x).agents = s.agents := rfl
@[simp] theorem withParams_console (s : State) (x : Params) : (s.withParams x).console = s.console := rfl
@[simp] theorem withParams_relays (s : State) (x : Params) : (s.withParams x).relays = s.relays := rfl
@[simp] theorem withParams_transit (s : State) (x : Params) : (s.withParams x).transit = s.transit := rfl
@[simp] theorem withParams_jobs (s : State) (x : Params) : (s.withParams x).jobs = s.jobs := rfl

@[simp] theorem withAgents_power (s : State) (x : Agents) : (s.withAgents x).power = s.power := rfl
@[simp] theorem withAgents_now (s : State) (x : Agents) : (s.withAgents x).now = s.now := rfl
@[simp] theorem withAgents_free (s : State) (x : Agents) : (s.withAgents x).free = s.free := rfl
@[simp] theorem withAgents_pending (s : State) (x : Agents) : (s.withAgents x).pending = s.pending := rfl
@[simp] theorem withAgents_nodes (s : State) (x : Agents) : (s.withAgents x).nodes = s.nodes := rfl
@[simp] theorem withAgents_records (s : State) (x : Agents) : (s.withAgents x).records = s.records := rfl
@[simp] theorem withAgents_expectations (s : State) (x : Agents) : (s.withAgents x).expectations = s.expectations := rfl
@[simp] theorem withAgents_sweep (s : State) (x : Agents) : (s.withAgents x).sweep = s.sweep := rfl
@[simp] theorem withAgents_ring (s : State) (x : Agents) : (s.withAgents x).ring = s.ring := rfl
@[simp] theorem withAgents_dispatch (s : State) (x : Agents) : (s.withAgents x).dispatch = s.dispatch := rfl
@[simp] theorem withAgents_mode (s : State) (x : Agents) : (s.withAgents x).mode = s.mode := rfl
@[simp] theorem withAgents_level (s : State) (x : Agents) : (s.withAgents x).level = s.level := rfl
@[simp] theorem withAgents_segments (s : State) (x : Agents) : (s.withAgents x).segments = s.segments := rfl
@[simp] theorem withAgents_walls (s : State) (x : Agents) : (s.withAgents x).walls = s.walls := rfl
@[simp] theorem withAgents_pourClock (s : State) (x : Agents) : (s.withAgents x).pourClock = s.pourClock := rfl
@[simp] theorem withAgents_placementSeen (s : State) (x : Agents) : (s.withAgents x).placementSeen = s.placementSeen := rfl
@[simp] theorem withAgents_feed (s : State) (x : Agents) : (s.withAgents x).feed = s.feed := rfl
@[simp] theorem withAgents_conditions (s : State) (x : Agents) : (s.withAgents x).conditions = s.conditions := rfl
@[simp] theorem withAgents_monitors (s : State) (x : Agents) : (s.withAgents x).monitors = s.monitors := rfl
@[simp] theorem withAgents_markers (s : State) (x : Agents) : (s.withAgents x).markers = s.markers := rfl
@[simp] theorem withAgents_command (s : State) (x : Agents) : (s.withAgents x).command = s.command := rfl
@[simp] theorem withAgents_params (s : State) (x : Agents) : (s.withAgents x).params = s.params := rfl
@[simp] theorem withAgents_agents (s : State) (x : Agents) : (s.withAgents x).agents = x := rfl
@[simp] theorem withAgents_console (s : State) (x : Agents) : (s.withAgents x).console = s.console := rfl
@[simp] theorem withAgents_relays (s : State) (x : Agents) : (s.withAgents x).relays = s.relays := rfl
@[simp] theorem withAgents_transit (s : State) (x : Agents) : (s.withAgents x).transit = s.transit := rfl
@[simp] theorem withAgents_jobs (s : State) (x : Agents) : (s.withAgents x).jobs = s.jobs := rfl

@[simp] theorem withConsole_power (s : State) (x : Console) : (s.withConsole x).power = s.power := rfl
@[simp] theorem withConsole_now (s : State) (x : Console) : (s.withConsole x).now = s.now := rfl
@[simp] theorem withConsole_free (s : State) (x : Console) : (s.withConsole x).free = s.free := rfl
@[simp] theorem withConsole_pending (s : State) (x : Console) : (s.withConsole x).pending = s.pending := rfl
@[simp] theorem withConsole_nodes (s : State) (x : Console) : (s.withConsole x).nodes = s.nodes := rfl
@[simp] theorem withConsole_records (s : State) (x : Console) : (s.withConsole x).records = s.records := rfl
@[simp] theorem withConsole_expectations (s : State) (x : Console) : (s.withConsole x).expectations = s.expectations := rfl
@[simp] theorem withConsole_sweep (s : State) (x : Console) : (s.withConsole x).sweep = s.sweep := rfl
@[simp] theorem withConsole_ring (s : State) (x : Console) : (s.withConsole x).ring = s.ring := rfl
@[simp] theorem withConsole_dispatch (s : State) (x : Console) : (s.withConsole x).dispatch = s.dispatch := rfl
@[simp] theorem withConsole_mode (s : State) (x : Console) : (s.withConsole x).mode = s.mode := rfl
@[simp] theorem withConsole_level (s : State) (x : Console) : (s.withConsole x).level = s.level := rfl
@[simp] theorem withConsole_segments (s : State) (x : Console) : (s.withConsole x).segments = s.segments := rfl
@[simp] theorem withConsole_walls (s : State) (x : Console) : (s.withConsole x).walls = s.walls := rfl
@[simp] theorem withConsole_pourClock (s : State) (x : Console) : (s.withConsole x).pourClock = s.pourClock := rfl
@[simp] theorem withConsole_placementSeen (s : State) (x : Console) : (s.withConsole x).placementSeen = s.placementSeen := rfl
@[simp] theorem withConsole_feed (s : State) (x : Console) : (s.withConsole x).feed = s.feed := rfl
@[simp] theorem withConsole_conditions (s : State) (x : Console) : (s.withConsole x).conditions = s.conditions := rfl
@[simp] theorem withConsole_monitors (s : State) (x : Console) : (s.withConsole x).monitors = s.monitors := rfl
@[simp] theorem withConsole_markers (s : State) (x : Console) : (s.withConsole x).markers = s.markers := rfl
@[simp] theorem withConsole_command (s : State) (x : Console) : (s.withConsole x).command = s.command := rfl
@[simp] theorem withConsole_params (s : State) (x : Console) : (s.withConsole x).params = s.params := rfl
@[simp] theorem withConsole_agents (s : State) (x : Console) : (s.withConsole x).agents = s.agents := rfl
@[simp] theorem withConsole_console (s : State) (x : Console) : (s.withConsole x).console = x := rfl
@[simp] theorem withConsole_relays (s : State) (x : Console) : (s.withConsole x).relays = s.relays := rfl
@[simp] theorem withConsole_transit (s : State) (x : Console) : (s.withConsole x).transit = s.transit := rfl
@[simp] theorem withConsole_jobs (s : State) (x : Console) : (s.withConsole x).jobs = s.jobs := rfl

@[simp] theorem withRelays_power (s : State) (x : Relays) : (s.withRelays x).power = s.power := rfl
@[simp] theorem withRelays_now (s : State) (x : Relays) : (s.withRelays x).now = s.now := rfl
@[simp] theorem withRelays_free (s : State) (x : Relays) : (s.withRelays x).free = s.free := rfl
@[simp] theorem withRelays_pending (s : State) (x : Relays) : (s.withRelays x).pending = s.pending := rfl
@[simp] theorem withRelays_nodes (s : State) (x : Relays) : (s.withRelays x).nodes = s.nodes := rfl
@[simp] theorem withRelays_records (s : State) (x : Relays) : (s.withRelays x).records = s.records := rfl
@[simp] theorem withRelays_expectations (s : State) (x : Relays) : (s.withRelays x).expectations = s.expectations := rfl
@[simp] theorem withRelays_sweep (s : State) (x : Relays) : (s.withRelays x).sweep = s.sweep := rfl
@[simp] theorem withRelays_ring (s : State) (x : Relays) : (s.withRelays x).ring = s.ring := rfl
@[simp] theorem withRelays_dispatch (s : State) (x : Relays) : (s.withRelays x).dispatch = s.dispatch := rfl
@[simp] theorem withRelays_mode (s : State) (x : Relays) : (s.withRelays x).mode = s.mode := rfl
@[simp] theorem withRelays_level (s : State) (x : Relays) : (s.withRelays x).level = s.level := rfl
@[simp] theorem withRelays_segments (s : State) (x : Relays) : (s.withRelays x).segments = s.segments := rfl
@[simp] theorem withRelays_walls (s : State) (x : Relays) : (s.withRelays x).walls = s.walls := rfl
@[simp] theorem withRelays_pourClock (s : State) (x : Relays) : (s.withRelays x).pourClock = s.pourClock := rfl
@[simp] theorem withRelays_placementSeen (s : State) (x : Relays) : (s.withRelays x).placementSeen = s.placementSeen := rfl
@[simp] theorem withRelays_feed (s : State) (x : Relays) : (s.withRelays x).feed = s.feed := rfl
@[simp] theorem withRelays_conditions (s : State) (x : Relays) : (s.withRelays x).conditions = s.conditions := rfl
@[simp] theorem withRelays_monitors (s : State) (x : Relays) : (s.withRelays x).monitors = s.monitors := rfl
@[simp] theorem withRelays_markers (s : State) (x : Relays) : (s.withRelays x).markers = s.markers := rfl
@[simp] theorem withRelays_command (s : State) (x : Relays) : (s.withRelays x).command = s.command := rfl
@[simp] theorem withRelays_params (s : State) (x : Relays) : (s.withRelays x).params = s.params := rfl
@[simp] theorem withRelays_agents (s : State) (x : Relays) : (s.withRelays x).agents = s.agents := rfl
@[simp] theorem withRelays_console (s : State) (x : Relays) : (s.withRelays x).console = s.console := rfl
@[simp] theorem withRelays_relays (s : State) (x : Relays) : (s.withRelays x).relays = x := rfl
@[simp] theorem withRelays_transit (s : State) (x : Relays) : (s.withRelays x).transit = s.transit := rfl
@[simp] theorem withRelays_jobs (s : State) (x : Relays) : (s.withRelays x).jobs = s.jobs := rfl

@[simp] theorem withTransit_power (s : State) (x : Transit) : (s.withTransit x).power = s.power := rfl
@[simp] theorem withTransit_now (s : State) (x : Transit) : (s.withTransit x).now = s.now := rfl
@[simp] theorem withTransit_free (s : State) (x : Transit) : (s.withTransit x).free = s.free := rfl
@[simp] theorem withTransit_pending (s : State) (x : Transit) : (s.withTransit x).pending = s.pending := rfl
@[simp] theorem withTransit_nodes (s : State) (x : Transit) : (s.withTransit x).nodes = s.nodes := rfl
@[simp] theorem withTransit_records (s : State) (x : Transit) : (s.withTransit x).records = s.records := rfl
@[simp] theorem withTransit_expectations (s : State) (x : Transit) : (s.withTransit x).expectations = s.expectations := rfl
@[simp] theorem withTransit_sweep (s : State) (x : Transit) : (s.withTransit x).sweep = s.sweep := rfl
@[simp] theorem withTransit_ring (s : State) (x : Transit) : (s.withTransit x).ring = s.ring := rfl
@[simp] theorem withTransit_dispatch (s : State) (x : Transit) : (s.withTransit x).dispatch = s.dispatch := rfl
@[simp] theorem withTransit_mode (s : State) (x : Transit) : (s.withTransit x).mode = s.mode := rfl
@[simp] theorem withTransit_level (s : State) (x : Transit) : (s.withTransit x).level = s.level := rfl
@[simp] theorem withTransit_segments (s : State) (x : Transit) : (s.withTransit x).segments = s.segments := rfl
@[simp] theorem withTransit_walls (s : State) (x : Transit) : (s.withTransit x).walls = s.walls := rfl
@[simp] theorem withTransit_pourClock (s : State) (x : Transit) : (s.withTransit x).pourClock = s.pourClock := rfl
@[simp] theorem withTransit_placementSeen (s : State) (x : Transit) : (s.withTransit x).placementSeen = s.placementSeen := rfl
@[simp] theorem withTransit_feed (s : State) (x : Transit) : (s.withTransit x).feed = s.feed := rfl
@[simp] theorem withTransit_conditions (s : State) (x : Transit) : (s.withTransit x).conditions = s.conditions := rfl
@[simp] theorem withTransit_monitors (s : State) (x : Transit) : (s.withTransit x).monitors = s.monitors := rfl
@[simp] theorem withTransit_markers (s : State) (x : Transit) : (s.withTransit x).markers = s.markers := rfl
@[simp] theorem withTransit_command (s : State) (x : Transit) : (s.withTransit x).command = s.command := rfl
@[simp] theorem withTransit_params (s : State) (x : Transit) : (s.withTransit x).params = s.params := rfl
@[simp] theorem withTransit_agents (s : State) (x : Transit) : (s.withTransit x).agents = s.agents := rfl
@[simp] theorem withTransit_console (s : State) (x : Transit) : (s.withTransit x).console = s.console := rfl
@[simp] theorem withTransit_relays (s : State) (x : Transit) : (s.withTransit x).relays = s.relays := rfl
@[simp] theorem withTransit_transit (s : State) (x : Transit) : (s.withTransit x).transit = x := rfl
@[simp] theorem withTransit_jobs (s : State) (x : Transit) : (s.withTransit x).jobs = s.jobs := rfl

@[simp] theorem withJobs_power (s : State) (x : List BeaconJob) : (s.withJobs x).power = s.power := rfl
@[simp] theorem withJobs_now (s : State) (x : List BeaconJob) : (s.withJobs x).now = s.now := rfl
@[simp] theorem withJobs_free (s : State) (x : List BeaconJob) : (s.withJobs x).free = s.free := rfl
@[simp] theorem withJobs_pending (s : State) (x : List BeaconJob) : (s.withJobs x).pending = s.pending := rfl
@[simp] theorem withJobs_nodes (s : State) (x : List BeaconJob) : (s.withJobs x).nodes = s.nodes := rfl
@[simp] theorem withJobs_records (s : State) (x : List BeaconJob) : (s.withJobs x).records = s.records := rfl
@[simp] theorem withJobs_expectations (s : State) (x : List BeaconJob) : (s.withJobs x).expectations = s.expectations := rfl
@[simp] theorem withJobs_sweep (s : State) (x : List BeaconJob) : (s.withJobs x).sweep = s.sweep := rfl
@[simp] theorem withJobs_ring (s : State) (x : List BeaconJob) : (s.withJobs x).ring = s.ring := rfl
@[simp] theorem withJobs_dispatch (s : State) (x : List BeaconJob) : (s.withJobs x).dispatch = s.dispatch := rfl
@[simp] theorem withJobs_mode (s : State) (x : List BeaconJob) : (s.withJobs x).mode = s.mode := rfl
@[simp] theorem withJobs_level (s : State) (x : List BeaconJob) : (s.withJobs x).level = s.level := rfl
@[simp] theorem withJobs_segments (s : State) (x : List BeaconJob) : (s.withJobs x).segments = s.segments := rfl
@[simp] theorem withJobs_walls (s : State) (x : List BeaconJob) : (s.withJobs x).walls = s.walls := rfl
@[simp] theorem withJobs_pourClock (s : State) (x : List BeaconJob) : (s.withJobs x).pourClock = s.pourClock := rfl
@[simp] theorem withJobs_placementSeen (s : State) (x : List BeaconJob) : (s.withJobs x).placementSeen = s.placementSeen := rfl
@[simp] theorem withJobs_feed (s : State) (x : List BeaconJob) : (s.withJobs x).feed = s.feed := rfl
@[simp] theorem withJobs_conditions (s : State) (x : List BeaconJob) : (s.withJobs x).conditions = s.conditions := rfl
@[simp] theorem withJobs_monitors (s : State) (x : List BeaconJob) : (s.withJobs x).monitors = s.monitors := rfl
@[simp] theorem withJobs_markers (s : State) (x : List BeaconJob) : (s.withJobs x).markers = s.markers := rfl
@[simp] theorem withJobs_command (s : State) (x : List BeaconJob) : (s.withJobs x).command = s.command := rfl
@[simp] theorem withJobs_params (s : State) (x : List BeaconJob) : (s.withJobs x).params = s.params := rfl
@[simp] theorem withJobs_agents (s : State) (x : List BeaconJob) : (s.withJobs x).agents = s.agents := rfl
@[simp] theorem withJobs_console (s : State) (x : List BeaconJob) : (s.withJobs x).console = s.console := rfl
@[simp] theorem withJobs_relays (s : State) (x : List BeaconJob) : (s.withJobs x).relays = s.relays := rfl
@[simp] theorem withJobs_transit (s : State) (x : List BeaconJob) : (s.withJobs x).transit = s.transit := rfl
@[simp] theorem withJobs_jobs (s : State) (x : List BeaconJob) : (s.withJobs x).jobs = x := rfl

/-! ## Channels -/

@[simp] theorem channel_setChannel_same (s : State) (c : Channel) (x : ChannelContext) :
    (s.setChannel c x).channel c = x := by
  cases c <;> rfl

@[simp] theorem channel_setChannel_other (s : State) (c : Channel) (x : ChannelContext) :
    (s.setChannel c x).channel (otherChannel c) = s.channel (otherChannel c) := by
  cases c <;> rfl

@[simp] theorem otherChannel_otherChannel (c : Channel) : otherChannel (otherChannel c) = c := by
  cases c <;> rfl

end Sys2Proof.Laws
end

