-- ==== Sys2Proof/Laws/Conditions.lean ====
section
/-! SUPPORT. What the shared operations of the Condition Unit and the Rise Mode Controller can do, said once. A state
operation's frame is an equation: the state after is the state before with the named parts replaced. -/

namespace Sys2Proof.Laws

open Sys2Proof Sys2Proof.Machine

/-! ## Numbers of conditions -/

/-- Different conditions have different numbers (R124). -/
theorem num_injective {c d : Cond} (h : c.num = d.num) : c = d := by
  cases c <;> cases d <;> first | rfl | exact absurd h (by decide)

/-- Every condition is in the list of all. -/
theorem mem_all (c : Cond) : c ∈ Cond.all := by cases c <;> decide

/-- The condition of a condition's number is the condition. -/
@[simp] theorem ofNum_num (c : Cond) : Cond.ofNum c.num.val = some c := by cases c <;> rfl

/-! ## Records -/

@[simp] theorem setCondition_same (s : State) (c : Cond) (r : CondRecord) : (s.setCondition c r).condition c = r := by
  simp [State.setCondition, State.condition]

theorem setCondition_other (s : State) {c d : Cond} (r : CondRecord) (h : d ≠ c) :
    (s.setCondition c r).condition d = s.condition d := by
  simp only [State.setCondition, State.condition, withConditions_conditions]
  exact table_read_write_other _ _ _ _ fun e => h (num_injective e)

theorem setCondition_frame (s : State) (c : Cond) (r : CondRecord) :
    s.setCondition c r = s.withConditions (s.setCondition c r).conditions := rfl

@[simp] theorem setCondition_masked (s : State) (c : Cond) (r : CondRecord) :
    (s.setCondition c r).conditions.masked = s.conditions.masked := rfl

/-- The records are read only through the Condition Unit's own part of the state. -/
theorem condition_congr {s t : State} (h : s.conditions = t.conditions) (c : Cond) : s.condition c = t.condition c := by
  simp only [State.condition, h]

@[simp] theorem setCondition_mode (s : State) (c : Cond) (r : CondRecord) : (s.setCondition c r).mode = s.mode := rfl
@[simp] theorem setCondition_transit (s : State) (c : Cond) (r : CondRecord) :
    (s.setCondition c r).transit = s.transit := rfl
@[simp] theorem setCondition_level (s : State) (c : Cond) (r : CondRecord) : (s.setCondition c r).level = s.level := rfl
@[simp] theorem setCondition_params (s : State) (c : Cond) (r : CondRecord) : (s.setCondition c r).params = s.params := rfl
@[simp] theorem setCondition_now (s : State) (c : Cond) (r : CondRecord) : (s.setCondition c r).now = s.now := rfl

/-! ## Changes of mode (R108) -/

/-- A change of mode replaces the mode and the hand-offs, and nothing else. -/
theorem changeMode_frame (s : State) (m : RiseMode) : s.changeMode m = (s.withMode m).withTransit (s.changeMode m).transit := by
  unfold State.changeMode
  split
  · next h => subst h; rfl
  · rfl

@[simp] theorem changeMode_mode (s : State) (m : RiseMode) : (s.changeMode m).mode = m := by
  rw [changeMode_frame]; rfl

@[simp] theorem changeMode_conditions (s : State) (m : RiseMode) : (s.changeMode m).conditions = s.conditions := by
  rw [changeMode_frame]; rfl

theorem changeMode_condition (s : State) (m : RiseMode) (c : Cond) : (s.changeMode m).condition c = s.condition c :=
  condition_congr (changeMode_conditions s m) c

/-- A real change is handed to the six blocks that act on it. -/
theorem changeMode_transit (s : State) (m : RiseMode) (h : s.mode ≠ m) :
    (s.changeMode m).transit =
      (let x : ModeChange := { old := s.mode, new := m, moment := s.now }
       { s.transit with
         sweepModes := s.transit.sweepModes ++ [x], dispatchModes := s.transit.dispatchModes ++ [x],
         rateModes := s.transit.rateModes ++ [x], feedModes := s.transit.feedModes ++ [x],
         silenceModes := s.transit.silenceModes ++ [x], relayModes := s.transit.relayModes ++ [x] }) := by
  simp [State.changeMode, h]

/-- Of the hand-offs only changes of mode may differ. -/
def ModesOnly (s t : State) : Prop :=
  t.transit = { s.transit with
    sweepModes := t.transit.sweepModes, dispatchModes := t.transit.dispatchModes, rateModes := t.transit.rateModes
    feedModes := t.transit.feedModes, silenceModes := t.transit.silenceModes, relayModes := t.transit.relayModes }

theorem ModesOnly.refl (s : State) : ModesOnly s s := rfl

theorem ModesOnly.trans {s t u : State} (h : ModesOnly s t) (k : ModesOnly t u) : ModesOnly s u := by
  unfold ModesOnly at *
  rw [h] at k
  exact k

theorem changeMode_modes (s : State) (m : RiseMode) : ModesOnly s (s.changeMode m) := by
  unfold State.changeMode
  split <;> rfl

theorem changeMode_same (s : State) : s.changeMode s.mode = s := by simp [State.changeMode]

/-- A condition that leaves IDLE replaces the mode and the hand-offs, and nothing else. -/
theorem conditionLeft_frame (s : State) (c : Cond) :
    s.conditionLeft c = (s.withMode (s.conditionLeft c).mode).withTransit (s.conditionLeft c).transit := by
  unfold State.conditionLeft
  split <;> first | (rw [changeMode_frame]; rfl) | rfl

/-- A NOTE-class condition that leaves IDLE moves nothing. -/
theorem conditionLeft_note (s : State) (c : Cond) (h : c.cls = .note) : s.conditionLeft c = s := by
  simp [State.conditionLeft, h]

/-- A condition that returns to IDLE replaces the mode and the hand-offs, and nothing else. -/
theorem conditionReturned_frame (s : State) (c : Cond) :
    s.conditionReturned c = (s.withMode (s.conditionReturned c).mode).withTransit (s.conditionReturned c).transit := by
  unfold State.conditionReturned
  split
  · rw [changeMode_frame]; rfl
  · rfl

/-- A condition that is not HOLD-class and returns to IDLE moves nothing. -/
theorem conditionReturned_other (s : State) (c : Cond) (h : c.cls ≠ .hold) : s.conditionReturned c = s := by
  simp [State.conditionReturned, h]

theorem conditionReturned_mode_kept (s : State) (c : Cond) (h : s.mode ≠ .hold) : s.conditionReturned c = s := by
  simp [State.conditionReturned, h]

/-! ## Raises (R128) -/

/-- A raise replaces the Condition Unit, the mode and the hand-offs, and nothing else. -/
theorem raise_frame (s : State) (c : Cond) (d : Option Nat) :
    s.raise c d = ((s.withConditions (s.raise c d).conditions).withMode (s.raise c d).mode).withTransit
      (s.raise c d).transit := by
  unfold State.raise
  dsimp only
  split
  · rw [conditionLeft_frame, setCondition_frame]; rfl
  · rfl

theorem conditionLeft_modes (s : State) (c : Cond) : ModesOnly s (s.conditionLeft c) := by
  unfold State.conditionLeft
  split <;> first | exact changeMode_modes _ _ | rfl

/-- A raise hands on changes of mode only. -/
theorem raise_modes (s : State) (c : Cond) (d : Option Nat) : ModesOnly s (s.raise c d) := by
  unfold State.raise
  dsimp only
  split
  · exact ModesOnly.trans (t := s.setCondition c _) rfl (conditionLeft_modes _ c)
  · rfl

/-- The Condition Unit after a raise: one record. -/
theorem raise_conditions (s : State) (c : Cond) (d : Option Nat) :
    (s.raise c d).conditions = (s.setCondition c ((s.condition c).raised c d)).conditions := by
  unfold State.raise
  dsimp only
  split
  · rw [conditionLeft_frame]; rfl
  · rfl

@[simp] theorem raise_masked (s : State) (c : Cond) (d : Option Nat) :
    (s.raise c d).conditions.masked = s.conditions.masked := by
  rw [raise_conditions]; rfl

@[simp] theorem raise_same (s : State) (c : Cond) (d : Option Nat) :
    (s.raise c d).condition c = (s.condition c).raised c d := by
  rw [condition_congr (raise_conditions s c d), setCondition_same]

theorem raise_other (s : State) {c e : Cond} (d : Option Nat) (h : e ≠ c) :
    (s.raise c d).condition e = s.condition e := by
  rw [condition_congr (raise_conditions s c d), setCondition_other _ _ h]

/-- The mode that a condition of a class which leaves IDLE moves a mode to (R109, R110). -/
theorem conditionLeft_mode (s : State) (c : Cond) :
    (s.conditionLeft c).mode =
      (match c.cls, s.mode with
        | .halt, .climb => .halt
        | .halt, .trim => .halt
        | .halt, .hold => .halt
        | .hold, .climb => .hold
        | .hold, .trim => .hold
        | _, m => m) := by
  unfold State.conditionLeft
  cases c.cls <;> cases h : s.mode <;> simp [h]

/-- A raise moves the mode only if the condition leaves IDLE (R133). -/
theorem raise_mode (s : State) (c : Cond) (d : Option Nat) :
    (s.raise c d).mode =
      if (s.condition c).state = .idle then
        (match c.cls, s.mode with
          | .halt, .climb => .halt
          | .halt, .trim => .halt
          | .halt, .hold => .halt
          | .hold, .climb => .hold
          | .hold, .trim => .hold
          | _, m => m)
      else s.mode := by
  unfold State.raise
  dsimp only
  split
  · rw [conditionLeft_mode]; rfl
  · rfl

/-- A raise of a NOTE-class condition replaces its record, and nothing else. -/
theorem raise_note (s : State) (c : Cond) (d : Option Nat) (h : c.cls = .note) :
    s.raise c d = s.setCondition c ((s.condition c).raised c d) := by
  unfold State.raise
  dsimp only
  split
  · rw [conditionLeft_note _ _ h]
  · rfl

/-! ## Clears (R129) -/

/-- A clear replaces the Condition Unit, the mode and the hand-offs, and nothing else. -/
theorem clear_frame (s : State) (c : Cond) :
    s.clear c = ((s.withConditions (s.clear c).conditions).withMode (s.clear c).mode).withTransit (s.clear c).transit := by
  unfold State.clear
  dsimp only
  split
  · rw [conditionReturned_frame, setCondition_frame]; rfl
  · rfl

theorem clear_conditions (s : State) (c : Cond) :
    (s.clear c).conditions = (s.setCondition c (s.condition c).cleared).conditions := by
  unfold State.clear
  dsimp only
  split
  · rw [conditionReturned_frame]; rfl
  · rfl

@[simp] theorem clear_masked (s : State) (c : Cond) : (s.clear c).conditions.masked = s.conditions.masked := by
  rw [clear_conditions]; rfl

@[simp] theorem clear_same (s : State) (c : Cond) : (s.clear c).condition c = (s.condition c).cleared := by
  rw [condition_congr (clear_conditions s c), setCondition_same]

theorem clear_other (s : State) {c e : Cond} (h : e ≠ c) : (s.clear c).condition e = s.condition e := by
  rw [condition_congr (clear_conditions s c), setCondition_other _ _ h]

theorem clear_note (s : State) (c : Cond) (h : c.cls = .note) : s.clear c = s.setCondition c (s.condition c).cleared := by
  unfold State.clear
  dsimp only
  split
  · rw [conditionReturned_other _ _ (by simp [h])]
  · rfl

/-! ## Evaluations (R126) -/

/-- An evaluation replaces the Condition Unit, the mode and the hand-offs, and nothing else. -/
theorem evaluate_frame (s : State) (c : Cond) (a : Bool) (d : Option Nat) :
    s.evaluate c a d = ((s.withConditions (s.evaluate c a d).conditions).withMode (s.evaluate c a d).mode).withTransit
      (s.evaluate c a d).transit := by
  unfold State.evaluate
  split
  · exact raise_frame s c d
  · exact clear_frame s c
  · rfl
  · rfl

@[simp] theorem evaluate_masked (s : State) (c : Cond) (a : Bool) (d : Option Nat) :
    (s.evaluate c a d).conditions.masked = s.conditions.masked := by
  unfold State.evaluate
  split <;> simp

theorem evaluate_other (s : State) {c e : Cond} (a : Bool) (d : Option Nat) (h : e ≠ c) :
    (s.evaluate c a d).condition e = s.condition e := by
  unfold State.evaluate
  split
  · exact raise_other s d h
  · exact clear_other s h
  · rfl
  · rfl

/-- After an evaluation of a LEVEL condition its source is what was found. -/
theorem evaluate_source (s : State) (c : Cond) (a : Bool) (d : Option Nat) (h : c.kind = .level) :
    ((s.evaluate c a d).condition c).source = a := by
  unfold State.evaluate
  split <;> simp_all [CondRecord.raised, CondRecord.cleared]

/-- An evaluation that finds the source as it is changes nothing. -/
theorem evaluate_same (s : State) (c : Cond) (a : Bool) (d : Option Nat) (h : (s.condition c).source = a) :
    s.evaluate c a d = s := by
  subst h
  unfold State.evaluate
  split <;> simp_all

theorem evaluate_raises (s : State) (c : Cond) (d : Option Nat) (h : (s.condition c).source = false) :
    s.evaluate c true d = s.raise c d := by
  simp [State.evaluate, h]

theorem evaluate_clears (s : State) (c : Cond) (d : Option Nat) (h : (s.condition c).source = true) :
    s.evaluate c false d = s.clear c := by
  simp [State.evaluate, h]

/-- An evaluation of a NOTE-class source replaces the Condition Unit, and nothing else. -/
theorem evaluate_note (s : State) (c : Cond) (a : Bool) (d : Option Nat) (h : c.cls = .note) :
    s.evaluate c a d = s.withConditions (s.evaluate c a d).conditions := by
  unfold State.evaluate
  split
  · rw [raise_note _ _ _ h]; rfl
  · rw [clear_note _ _ h]; rfl
  · rfl
  · rfl

/-! ## The silence timer (R178) -/

/-- A valid console frame replaces the silence timer, the Condition Unit, the mode and the hand-offs. -/
theorem silenceReset_frame (s : State) :
    s.silenceReset = (((s.withConsole { s.console with silence := { s.console.silence with latestValid := s.now } }).withConditions
      s.silenceReset.conditions).withMode s.silenceReset.mode).withTransit s.silenceReset.transit := by
  unfold State.silenceReset
  exact evaluate_frame _ _ _ _

@[simp] theorem silenceReset_now (s : State) : s.silenceReset.now = s.now := by rw [silenceReset_frame]; rfl
@[simp] theorem silenceReset_pending (s : State) : s.silenceReset.pending = s.pending := by rw [silenceReset_frame]; rfl
@[simp] theorem silenceReset_power (s : State) : s.silenceReset.power = s.power := by rw [silenceReset_frame]; rfl

theorem silenceReset_source (s : State) : (s.silenceReset.condition .consoleSilent).source = false :=
  evaluate_source _ _ _ _ rfl

/-! ## Acknowledgement and RELEASE (R116, R132) -/

theorem acknowledge_frame (s : State) (c : Cond) :
    s.acknowledge c = ((s.withConditions (s.acknowledge c).conditions).withMode (s.acknowledge c).mode).withTransit
      (s.acknowledge c).transit := by
  unfold State.acknowledge
  dsimp only
  split
  · rw [conditionReturned_frame, setCondition_frame]; rfl
  · rfl

theorem acknowledge_conditions (s : State) (c : Cond) :
    (s.acknowledge c).conditions =
      (s.setCondition c { s.condition c with state := (s.condition c).state.acknowledged }).conditions := by
  unfold State.acknowledge
  dsimp only
  split
  · rw [conditionReturned_frame]; rfl
  · rfl

theorem releaseManual_frame (s : State) :
    s.releaseManual = ((s.withConditions s.releaseManual.conditions).withMode s.releaseManual.mode).withTransit
      s.releaseManual.transit := by
  unfold State.releaseManual
  dsimp only
  split
  · rfl
  · rw [conditionReturned_frame, setCondition_frame]; rfl

theorem releaseManual_conditions (s : State) :
    s.releaseManual.conditions =
      (s.setCondition .manualHold { s.condition .manualHold with state := .idle, source := false }).conditions := by
  unfold State.releaseManual
  dsimp only
  split
  · rfl
  · rw [conditionReturned_frame]; rfl

/-! ## Quiet classes (R113) -/

theorem quiet_iff (s : State) (c : Cond) : s.quiet c = true ↔ (s.condition c).state = .idle := by
  simp [State.quiet]

theorem haltQuiet_iff (s : State) : s.haltQuiet = true ↔ ∀ c : Cond, c.cls = .halt → (s.condition c).state = .idle := by
  simp only [State.haltQuiet, List.all_eq_true, Bool.or_eq_true, bne_iff_ne, ne_eq, quiet_iff]
  exact ⟨fun h c hc => (h c (mem_all c)).resolve_left (fun n => n hc),
    fun h c _ => (Classical.em (c.cls = .halt)).elim (fun hc => .inr (h c hc)) .inl⟩

theorem holdQuiet_iff (s : State) : s.holdQuiet = true ↔ ∀ c : Cond, c.cls = .hold → (s.condition c).state = .idle := by
  simp only [State.holdQuiet, List.all_eq_true, Bool.or_eq_true, bne_iff_ne, ne_eq, quiet_iff]
  exact ⟨fun h c hc => (h c (mem_all c)).resolve_left (fun n => n hc),
    fun h c _ => (Classical.em (c.cls = .hold)).elim (fun hc => .inr (h c hc)) .inl⟩

end Sys2Proof.Laws
end

