-- ==== Sys2Proof/Laws/Console.lean ====
section
/-! SUPPORT. What the operations of the console traffic can do, said once: the silence timer, the reply queue and the
forward queue. -/

namespace Sys2Proof.Laws

open Sys2Proof Sys2Proof.Machine

/-! ## The silence timer (R178) -/

/-- Where the latest valid frame is already this moment, restarting the timer changes nothing. -/
theorem restart_same (s : State) (h : s.console.silence.latestValid = s.now) :
    s.withConsole { s.console with silence := { s.console.silence with latestValid := s.now } } = s := by
  rw [← h]
  rfl

/-- A second valid frame at the same moment changes nothing. -/
theorem silenceReset_twice (s : State) : s.silenceReset.silenceReset = s.silenceReset := by
  rw [State.silenceReset, evaluate_same]
  · apply restart_same
    rw [silenceReset_frame]
    rfl
  · exact silenceReset_source s

/-- A valid frame leaves the part running or held. -/
@[simp] theorem silenceReset_running (s : State) : s.silenceReset.running = s.running := by simp [State.running]

/-! ## The reply queue (R179) -/

/-- A record joins a queue with a free place. -/
theorem enqueueReply_joins (q : List ReplyRecord) (r : ReplyRecord) (h : q.any ReplyRecord.isOverflow = false)
    (k : q.length < Config.replyPlaces) : enqueueReply q r = q ++ [r] := by simp [enqueueReply, h, k]

/-- A record that meets no free place becomes an OVERFLOW of one loss. -/
theorem enqueueReply_overflows (q : List ReplyRecord) (r : ReplyRecord) (h : q.any ReplyRecord.isOverflow = false)
    (k : Config.replyPlaces ≤ q.length) : enqueueReply q r = q ++ [.overflow 1] := by
  simp [enqueueReply, h, Nat.not_lt.2 k]

/-- While an OVERFLOW waits the queue keeps its length: the record is counted into it. -/
theorem enqueueReply_counts (q : List ReplyRecord) (r : ReplyRecord) (h : q.any ReplyRecord.isOverflow = true) :
    enqueueReply q r = q.map ReplyRecord.countLoss := by simp [enqueueReply, h]

/-- Counting a loss makes and ends no OVERFLOW record. -/
@[simp] theorem countLoss_isOverflow (r : ReplyRecord) : r.countLoss.isOverflow = r.isOverflow := by cases r <;> rfl

/-! ## The forward queue (R183) -/

/-- A record placed by rank adds one to the queue. -/
@[simp] theorem placeByRank_length (q : List ForwardRecord) (r : ForwardRecord) :
    (placeByRank q r).length = q.length + 1 := by
  simp only [placeByRank, List.length_append, List.length_cons, ← Nat.add_assoc]
  rw [← List.length_append, List.takeWhile_append_dropWhile]

/-- What a queue holds after a record has been placed. -/
theorem mem_placeByRank (q : List ForwardRecord) (r x : ForwardRecord) : x ∈ placeByRank q r ↔ x = r ∨ x ∈ q := by
  rw [placeByRank, List.mem_append, List.mem_cons]
  conv_rhs => rw [← List.takeWhile_append_dropWhile (p := fun q => decide (q.rank ≤ r.rank)) (l := q), List.mem_append]
  tauto

/-- A record placed by rank keeps the order of ranks. -/
theorem placeByRank_sorted (q : List ForwardRecord) (r : ForwardRecord) (h : q.Pairwise fun x y => x.rank ≤ y.rank) :
    (placeByRank q r).Pairwise fun x y => x.rank ≤ y.rank := by
  induction q with
  | nil => simp [placeByRank]
  | cons a q ih =>
    rw [List.pairwise_cons] at h
    by_cases k : a.rank ≤ r.rank
    · have : placeByRank (a :: q) r = a :: placeByRank q r := by simp [placeByRank, k]
      rw [this, List.pairwise_cons]
      refine ⟨fun x hx => ?_, ih h.2⟩
      rcases (mem_placeByRank q r x).1 hx with rfl | hx
      · exact k
      · exact h.1 x hx
    · have : placeByRank (a :: q) r = r :: a :: q := by simp [placeByRank, k]
      rw [this, List.pairwise_cons, List.pairwise_cons]
      refine ⟨fun x hx => ?_, h⟩
      have k' := Fin.le_of_lt (not_le.1 k)
      rcases List.mem_cons.1 hx with rfl | hx
      · exact k'
      · exact Fin.le_trans k' (h.1 x hx)

/-- Judging the head changes only whether FORWARD frames are held, and never ends a hold. -/
theorem judgeHead_frame (c : Console) : c.judgeHead = { c with forwardHeld := c.judgeHead.forwardHeld } := rfl

/-- A hold stays through a judging of the head. -/
theorem judgeHead_held (c : Console) (h : c.forwardHeld = true) : c.judgeHead.forwardHeld = true := by
  simp [Console.judgeHead, h]

/-- After a judging, a head that does not fit the budget holds the FORWARD frames. -/
theorem judgeHead_tooLong (c : Console) (h : c.headTooLong = true) : c.judgeHead.forwardHeld = true := by
  simp [Console.judgeHead, h]

/-- What reaches the forward queue can change only the queue, the hold and the agents. -/
theorem enqueueForward_frame (s : State) (r : ForwardRecord) :
    s.enqueueForward r = (s.withConsole { s.console with
      forward := (s.enqueueForward r).console.forward
      forwardHeld := (s.enqueueForward r).console.forwardHeld }).withAgents (s.enqueueForward r).agents := by
  unfold State.enqueueForward
  dsimp only
  split
  · rfl
  · split
    · split <;> rfl
    · rfl

/-- A report that is offered can change only the forward queue, the hold and the agents. -/
theorem offerReport_frame (s : State) (i : Slot) (k : NodeKind) (p : Option Nat) (r : Report) :
    s.offerReport i k p r =
      (s.withConsole { s.console with
        forward := (s.offerReport i k p r).console.forward
        forwardHeld := (s.offerReport i k p r).console.forwardHeld }).withAgents (s.offerReport i k p r).agents := by
  unfold State.offerReport
  split
  · rfl
  · dsimp only
    split
    · rw [enqueueForward_frame]
      rfl
    · rfl

end Sys2Proof.Laws
end

