-- ==== Sys2Proof/Laws/Feed.lean ====
section
/-! SUPPORT. What the shared operations of the Feed Chain Engine can do, said once: what each replaces, and that each
leaves the other channel and every condition but FEED_JAM as they are. -/

namespace Sys2Proof.Laws

open Sys2Proof Sys2Proof.Machine

/-! ## Frames -/

/-- The feed, the claims on the wall, the node records and the Condition Unit are all that may differ. -/
def FeedFrame (s t : State) : Prop :=
  t = (((s.withFeed t.feed).withWalls t.walls).withRecords t.records).withConditions t.conditions

theorem FeedFrame.refl (s : State) : FeedFrame s s := rfl

theorem FeedFrame.trans {s t u : State} (h : FeedFrame s t) (k : FeedFrame t u) : FeedFrame s u := by
  obtain ⟨f, w, r, c, rfl⟩ : ∃ f w r c, t = (((s.withFeed f).withWalls w).withRecords r).withConditions c :=
    ⟨_, _, _, _, h⟩
  obtain ⟨f', w', r', c', rfl⟩ : ∃ f' w' r' c', u = ((((((((s.withFeed f).withWalls w).withRecords r).withConditions
      c).withFeed f').withWalls w').withRecords r').withConditions c') := ⟨_, _, _, _, k⟩
  cases s
  rfl

/-- A step of the engine for one channel: the frame, the other channel and the other conditions are kept, and of the wall
only claims may differ. -/
structure ChannelStep (c : Channel) (s t : State) : Prop where
  frame : FeedFrame s t
  other : t.channel (otherChannel c) = s.channel (otherChannel c)
  conditions : ∀ x : Cond, x ≠ .feedJam → t.condition x = s.condition x
  masked : t.conditions.masked = s.conditions.masked
  content : ∀ k, t.wall k = { s.wall k with claim := (t.wall k).claim }

theorem ChannelStep.refl (c : Channel) (s : State) : ChannelStep c s s :=
  ⟨rfl, rfl, fun _ _ => rfl, rfl, fun _ => rfl⟩

theorem ChannelStep.trans {c : Channel} {s t u : State} (h : ChannelStep c s t) (k : ChannelStep c t u) :
    ChannelStep c s u :=
  ⟨h.frame.trans k.frame, k.other.trans h.other, fun x hx => (k.conditions x hx).trans (h.conditions x hx),
    k.masked.trans h.masked, fun i => by rw [k.content i, h.content i]⟩

/-! ## Claims and contexts -/

theorem setChannel_step (s : State) (c : Channel) (x : ChannelContext) : ChannelStep c s (s.setChannel c x) :=
  ⟨rfl, by cases c <;> rfl, fun _ _ => rfl, rfl, fun _ => rfl⟩

theorem withFeed_step (s : State) (c : Channel) (f : Feed) (h : f.channel (otherChannel c) = s.feed.channel (otherChannel c)) :
    ChannelStep c s (s.withFeed f) := ⟨rfl, h, fun _ _ => rfl, rfl, fun _ => rfl⟩

theorem queueExchange_step (s : State) (c : Channel) (x : FeedExchange) : ChannelStep c s (s.queueExchange x) :=
  withFeed_step _ _ _ (by cases c <;> rfl)

theorem withdrawExchanges_step (s : State) (c d : Channel) : ChannelStep c s (s.withdrawExchanges d) :=
  withFeed_step _ _ _ (by cases c <;> rfl)

/-- A change of a segment's claim leaves the rest of the wall. -/
theorem setSegmentClaim_content (s : State) (j k : SegmentIx) (x : Option Channel) :
    (s.setSegmentClaim j x).wall k = { s.wall k with claim := ((s.setSegmentClaim j x).wall k).claim } := by
  by_cases h : k = j
  · subst h
    simp [State.setSegmentClaim, State.setWall, State.wall]
  · have : (s.setSegmentClaim j x).wall k = s.wall k := table_read_write_other _ _ _ _ h
    rw [this]

theorem takeClaims_step (s : State) (c d : Channel) (w : WorkingCopy) : ChannelStep d s (s.takeClaims c w) :=
  ⟨rfl, by cases d <;> rfl, fun _ _ => rfl, rfl, fun k => setSegmentClaim_content s w.segment k (some c)⟩

theorem dropClaims_step (s : State) (c d : Channel) (w : WorkingCopy) : ChannelStep d s (s.dropClaims c w) := by
  unfold State.dropClaims
  dsimp only
  split <;> split <;> first
    | exact ⟨rfl, by cases d <;> rfl, fun _ _ => rfl, rfl, fun k => setSegmentClaim_content s w.segment k none⟩
    | exact ⟨rfl, by cases d <;> rfl, fun _ _ => rfl, rfl, fun _ => rfl⟩

/-! ## Opening, blocking, loading -/

theorem openChannel_step (s : State) (c : Channel) (w : WorkingCopy) : ChannelStep c s (s.openChannel c w) := by
  unfold State.openChannel
  exact (((takeClaims_step s c c w).trans (withFeed_step _ c _ (by cases c <;> rfl))).trans (setChannel_step _ c _)).trans
    (queueExchange_step _ c _)

theorem recordBlock_step (s : State) (c : Channel) (r : BlockReason) : ChannelStep c s (s.recordBlock c r) := by
  unfold State.recordBlock
  dsimp only
  split
  · exact .refl c s
  · exact setChannel_step s c _

theorem firstTest_step (s : State) (c : Channel) : ChannelStep c s (s.firstTest c) := by
  unfold State.firstTest
  split
  · split
    · exact openChannel_step s c _
    · exact recordBlock_step s c _
  · exact .refl c s

theorem loadAndTest_step (s : State) (c : Channel) (d : DescriptorIx) : ChannelStep c s (s.loadAndTest c d) :=
  (setChannel_step s c _).trans (firstTest_step _ c)

theorem chooseNext_step (s : State) (c : Channel) : ChannelStep c s (s.chooseNext c) := by
  unfold State.chooseNext
  dsimp only
  split
  · exact (setChannel_step s c _).trans (loadAndTest_step _ c _)
  · split
    · exact (setChannel_step s c _).trans (loadAndTest_step _ c _)
    · split
      · exact (setChannel_step s c _).trans (loadAndTest_step _ c _)
      · exact setChannel_step s c _

theorem finishDescriptor_step (s : State) (c : Channel) : ChannelStep c s (s.finishDescriptor c) := by
  unfold State.finishDescriptor
  split
  · exact chooseNext_step s c
  · dsimp only
    split <;> split <;> first
      | exact (withFeed_step s c _ (by cases c <;> rfl)).trans (setChannel_step _ c _)
      | exact (withFeed_step s c _ (by cases c <;> rfl)).trans (chooseNext_step _ c)

theorem resumeWait_step (s : State) (c : Channel) : ChannelStep c s (s.resumeWait c) :=
  (setChannel_step s c _).trans (firstTest_step _ c)

theorem endPause_step (s : State) (c : Channel) (k : PauseKind) : ChannelStep c s (s.endPause c k) := by
  unfold State.endPause
  split
  · exact chooseNext_step s c
  · split
    · exact finishDescriptor_step s c
    · exact resumeWait_step s c

theorem deferralTest_step (s : State) (c : Channel) : ChannelStep c s (s.deferralTest c) := by
  unfold State.deferralTest
  dsimp only
  split
  · split
    · exact (setChannel_step s c _).trans (chooseNext_step _ c)
    · exact .refl c s
  · exact .refl c s

/-! ## FEED_JAM (R99) -/

/-- The evaluation of FEED_JAM replaces its record, and nothing else. -/
theorem evaluateJam_frame (s : State) : s.evaluateJam = s.withConditions s.evaluateJam.conditions :=
  evaluate_note _ _ _ _ rfl

theorem evaluateJam_step (s : State) (c : Channel) : ChannelStep c s s.evaluateJam := by
  refine ⟨?_, ?_, fun x hx => evaluate_other _ _ _ hx, evaluate_masked _ _ _ _, ?_⟩
  · unfold FeedFrame
    rw [evaluateJam_frame]
    rfl
  · rw [evaluateJam_frame]
    cases c <;> rfl
  · rw [evaluateJam_frame]
    exact fun _ => rfl

@[simp] theorem evaluateJam_feed (s : State) : s.evaluateJam.feed = s.feed := by rw [evaluateJam_frame]; rfl
@[simp] theorem evaluateJam_walls (s : State) : s.evaluateJam.walls = s.walls := by rw [evaluateJam_frame]; rfl
@[simp] theorem evaluateJam_records (s : State) : s.evaluateJam.records = s.records := by rw [evaluateJam_frame]; rfl
@[simp] theorem evaluateJam_console (s : State) : s.evaluateJam.console = s.console := by rw [evaluateJam_frame]; rfl
@[simp] theorem evaluateJam_mode (s : State) : s.evaluateJam.mode = s.mode := by rw [evaluateJam_frame]; rfl
@[simp] theorem evaluateJam_free (s : State) : s.evaluateJam.free = s.free := by rw [evaluateJam_frame]; rfl

/-- The jam test reads no condition. -/
theorem meetsJam_evaluateJam (s : State) (c : Channel) : s.evaluateJam.meetsJam c = s.meetsJam c := by
  rw [evaluateJam_frame]; rfl

/-- After its evaluation the source of FEED_JAM is active exactly while a channel meets the jam test. -/
theorem evaluateJam_source (s : State) :
    (s.evaluateJam.condition .feedJam).source = (s.meetsJam .a || s.meetsJam .b) :=
  evaluate_source _ _ _ _ rfl

/-! ## Tests and closing -/

theorem openTest_step (s : State) (c : Channel) : ChannelStep c s (s.openTest c) := by
  unfold State.openTest
  dsimp only
  split
  · split
    · exact (finishDescriptor_step s c).trans (evaluateJam_step _ c)
    · split
      · exact (openChannel_step s c _).trans (evaluateJam_step _ c)
      · exact ((recordBlock_step s c _).trans (deferralTest_step _ c)).trans (evaluateJam_step _ c)
  · exact .refl c s

/-- A channel that does not wait makes no open test. -/
theorem openTest_other (s : State) (c : Channel) (h : (s.channel c).state ≠ .wait) : s.openTest c = s := by
  unfold State.openTest
  dsimp only
  split
  · next h' _ => exact absurd h' h
  · rfl

theorem askClose_step (s : State) (c : Channel) (k : CloseCause) : ChannelStep c s (s.askClose c k) := by
  unfold State.askClose
  dsimp only
  split
  · split
    · exact ((setChannel_step s c _).trans (queueExchange_step _ c _)).trans (evaluateJam_step _ c)
    · exact (setChannel_step s c _).trans (evaluateJam_step _ c)
  · exact .refl c s

theorem fullTest_step (s : State) (c : Channel) : ChannelStep c s (s.fullTest c) := by
  unfold State.fullTest
  dsimp only
  split
  · split
    · exact askClose_step s c _
    · exact .refl c s
  · exact .refl c s

/-- A channel that is not OPEN makes no FULL test. -/
theorem fullTest_other (s : State) (c : Channel) (h : (s.channel c).state ≠ .opened) : s.fullTest c = s := by
  unfold State.fullTest
  dsimp only
  split
  · next h' _ _ => exact absurd h' h
  · rfl

theorem stopChannel_step (s : State) (c : Channel) (k : CloseCause) : ChannelStep c s (s.stopChannel c k) := by
  unfold State.stopChannel
  dsimp only
  refine ChannelStep.trans ?_ (evaluateJam_step _ c)
  split
  · exact askClose_step s c k
  · exact setChannel_step s c _
  · exact setChannel_step s c _
  · exact setChannel_step s c _
  · exact .refl c s
  · exact .refl c s
  · exact .refl c s

/-! ## Events of both channels (R84, R86) -/

/-- What steps of the engine for either channel keep: the frame, the conditions but FEED_JAM, and the wall but for its
claims. -/
structure EngineStep (s t : State) : Prop where
  frame : FeedFrame s t
  conditions : ∀ x : Cond, x ≠ .feedJam → t.condition x = s.condition x
  masked : t.conditions.masked = s.conditions.masked
  content : ∀ k, t.wall k = { s.wall k with claim := (t.wall k).claim }

theorem ChannelStep.engine {c : Channel} {s t : State} (h : ChannelStep c s t) : EngineStep s t :=
  ⟨h.frame, h.conditions, h.masked, h.content⟩

theorem EngineStep.trans {s t u : State} (h : EngineStep s t) (k : EngineStep t u) : EngineStep s u :=
  ⟨h.frame.trans k.frame, fun x hx => (k.conditions x hx).trans (h.conditions x hx), k.masked.trans h.masked,
    fun i => by rw [k.content i, h.content i]⟩

theorem releaseClaims_step (s : State) (c : Channel) (w : WorkingCopy) : EngineStep s (s.releaseClaims c w) :=
  (dropClaims_step s c c w).engine.trans (openTest_step _ _).engine

theorem segmentPlacedFor_step (k : SegmentIx) (maker : Option Channel) (c : Channel) (s : State) :
    ChannelStep c s (State.segmentPlacedFor k maker c s) := by
  unfold State.segmentPlacedFor
  split
  · split
    · split
      · exact openTest_step s c
      · exact (openTest_step s c).trans (fullTest_step _ c)
    · exact .refl c s
  · exact .refl c s

/-- A channel that does not work on the segment does nothing at a placement into it. -/
theorem segmentPlacedFor_elsewhere (k : SegmentIx) (maker : Option Channel) (c : Channel) (s : State)
    (h : ∀ w, (s.channel c).working = some w → w.segment ≠ k) : State.segmentPlacedFor k maker c s = s := by
  unfold State.segmentPlacedFor
  split
  · next w hw => rw [if_neg (h w hw)]
  · rfl

/-- An event of both channels is two steps of the engine in a free order, after the free value's index has moved on. -/
theorem bothChannels_step (s : State) (f : Channel → State → State) (h : ∀ c t, EngineStep t (f c t)) :
    EngineStep (s.withFree (s.free + 1)) (s.bothChannels f) := by
  unfold State.bothChannels
  exact (h _ _).trans (h _ _)

end Sys2Proof.Laws
end

