-- ==== Sys2Proof/Laws/Halt.lean ====
section
/-! SUPPORT. What the entry into HALT does to the feed channels, said once (R101, R102), the FEED_JAM source (R99), and the detail
that a source takes (R10, R147). -/

namespace Sys2Proof.Laws

open Sys2Proof Sys2Proof.Machine

/-! ## The lowest index (R10, R147) -/

/-- The first index that a search in ascending order finds is the lowest one. -/
theorem lowestOf_find {n : Nat} (q : Fin n → Bool) (p : Fin n → Prop) (h : ∀ i, q i = true ↔ p i) (o : Option (Fin n))
    (k : LowestOf p o) : (List.finRange n).find? q = o := by
  cases o with
  | none => exact List.find?_eq_none.2 fun i _ => by rw [h]; exact k i
  | some i =>
    refine List.find?_eq_some_iff_getElem.2 ⟨(h i).2 k.1, i.val, by simp, by simp, fun j hj => ?_⟩
    have := k.2 ⟨j, by omega⟩ hj
    rw [← h] at this
    simpa using this

/-! ## The jam test (R98, R99) -/

theorem deferralAllowed_iff (s : State) (c : Channel) : s.deferralAllowed c = true ↔ s.DefersNow (s.channel c) := by
  unfold State.deferralAllowed State.DefersNow
  dsimp only
  simp only [Bool.and_eq_true, decide_eq_true_eq, and_assoc]
  refine and_congr_right fun _ => and_congr ?_ ?_
  · cases (s.channel c).blockedSince <;> simp
  · cases hs : s.feed.seen with
    | none => simp
    | some r => cases ha : r.aFill <;> simp [ha]

theorem meetsJam_iff (s : State) (c : Channel) : s.meetsJam c = true ↔ s.Jams (s.channel c) := by
  unfold State.meetsJam State.Jams
  dsimp only
  rw [← deferralAllowed_iff]
  simp only [Bool.and_eq_true, decide_eq_true_eq, and_assoc, Bool.or_eq_true, Bool.not_eq_true', Bool.not_eq_true]
  refine and_congr_right fun _ => and_congr_right fun _ => and_congr ?_ (or_congr_right ?_)
  · cases (s.channel c).blockTimer <;> simp
  · cases (s.channel c).current <;> simp [ChannelContext.canDefer, Config.deferredPlaces]
    exact fun _ => decide_eq_false_iff_not.trans Nat.not_lt

/-- An evaluation of FEED_JAM leaves the jam test as it is. -/
theorem evaluateJam_meets (s : State) (c : Channel) : s.evaluateJam.meetsJam c = s.meetsJam c := by
  have h : s.evaluateJam = s.withConditions s.evaluateJam.conditions := evaluate_note _ _ _ _ rfl
  rw [h]
  rfl

/-- A second evaluation of FEED_JAM changes nothing. -/
@[simp] theorem evaluateJam_again (s : State) : s.evaluateJam.evaluateJam = s.evaluateJam := by
  have h := evaluateJam_meets s
  show s.evaluateJam.evaluate .feedJam (s.evaluateJam.meetsJam .a || s.evaluateJam.meetsJam .b) _ = _
  rw [h, h]
  exact evaluate_same _ _ _ _ (evaluate_source s .feedJam (s.meetsJam .a || s.meetsJam .b) _ rfl)

/-! ## Channels that stop (R101, R102) -/

/-- A channel that is stopped has the context that R101 gives it, and FEED_JAM is evaluated. -/
theorem stopChannel_stopped (s : State) (c : Channel) (k : CloseCause) :
    s.stopChannel c k = (s.withFeed (s.feed.stopped s.now k c)).evaluateJam := by
  have same : s.withFeed s.feed = s := rfl
  unfold State.stopChannel Feed.stopped State.channel
  cases hx : (s.feed.channel c).state <;> cases hw : (s.feed.channel c).working <;>
    simp only [State.askClose, State.channel, State.setChannel, hx, hw, ChannelContext.unblocked, same,
      evaluateJam_again]
  cases ho : (s.feed.channel c).openConfirmed <;> cases c <;>
    simp [State.queueExchange, State.closeOf, Feed.setChannel, Feed.channel, State.channel, State.withFeed]

/-- A stop touches the feed of the one channel. -/
theorem stopped_other (f : Feed) (now : Nat) (k : CloseCause) (c : Channel) :
    (f.stopped now k c).channel (otherChannel c) = f.channel (otherChannel c) := by
  unfold Feed.stopped
  dsimp only
  split <;> cases c <;> rfl

/-- A channel that has been stopped is IDLE, DONE, STOPPED, or in CLOSING with the cause given, if a channel in OPEN has a
working copy (R101). -/
theorem stopped_same (f : Feed) (now : Nat) (k : CloseCause) (c : Channel)
    (h : (f.channel c).state = .opened → (f.channel c).working ≠ none) :
    let x := (f.stopped now k c).channel c
    x.state = .idle ∨ x.state = .done ∨ x.state = .stopped ∨ x.state = .closing ∧ x.closeCause = some k := by
  have same (g : Feed) (y : ChannelContext) : (g.setChannel c y).channel c = y := by cases c <;> rfl
  have kept (g : Feed) (y : ChannelContext) (w : List FeedExchange) :
      ({ g.setChannel c y with waiting := w } : Feed).channel c = y := by cases c <;> rfl
  unfold Feed.stopped
  cases hx : (f.channel c).state <;> cases hw : (f.channel c).working <;> simp_all

/-- An entry into HALT stops both channels, or the event makes no entry and does nothing (R102). -/
theorem haltFeed_halts (s : State) (before : RiseMode) (h : s.mode = .halt) (k : before ≠ .halt) :
    s.Halts (s.haltFeed before) := by
  unfold State.haltFeed
  rw [if_pos ⟨h, k⟩]
  simp only [State.bothChannels, stopChannel_stopped]
  exact ⟨_, rfl⟩

theorem haltFeed_kept (s : State) (before : RiseMode) (h : s.mode ≠ .halt ∨ before = .halt) : s.haltFeed before = s := by
  unfold State.haltFeed
  rw [if_neg fun k => h.elim (fun n => n k.1) k.2]

/-- What an entry into HALT does to the channels keeps everything that steps of the engine keep. -/
theorem halts_engine {s t : State} (h : s.Halts t) : EngineStep (s.withFree (s.free + 1)) t := by
  obtain ⟨c, rfl⟩ := h
  simp only [← stopChannel_stopped]
  exact (stopChannel_step _ c _).engine.trans (stopChannel_step _ _ _).engine

/-- An entry into HALT replaces the feed, the Condition Unit and the index of free orders, and nothing else. -/
theorem halts_frame {s t : State} (h : s.Halts t) :
    t = ((s.withFeed t.feed).withConditions t.conditions).withFree (s.free + 1) := by
  obtain ⟨first, rfl⟩ := h
  have jam (v : State) : v.evaluateJam = v.withConditions v.evaluateJam.conditions := evaluate_note _ _ _ _ rfl
  dsimp only
  rw [jam, jam]
  rfl

/-- An event replaces at most the feed, the Condition Unit and the index of free orders for its entry into HALT. -/
theorem haltFeed_frame (s : State) (before : RiseMode) : s.haltFeed before =
    ((s.withFeed (s.haltFeed before).feed).withConditions (s.haltFeed before).conditions).withFree
      (s.haltFeed before).free := by
  by_cases h : s.mode = .halt ∧ before ≠ .halt
  · have := halts_frame (haltFeed_halts s before h.1 h.2)
    rw [this]
    rfl
  · rw [haltFeed_kept s before (by by_contra n; exact h ⟨by_contra fun m => n (.inl m), fun m => n (.inr m)⟩)]
    rfl

@[simp] theorem haltFeed_mode (s : State) (b : RiseMode) : (s.haltFeed b).mode = s.mode := by
  rw [haltFeed_frame]; rfl
@[simp] theorem haltFeed_transit (s : State) (b : RiseMode) : (s.haltFeed b).transit = s.transit := by
  rw [haltFeed_frame]; rfl
@[simp] theorem haltFeed_now (s : State) (b : RiseMode) : (s.haltFeed b).now = s.now := by
  rw [haltFeed_frame]; rfl
@[simp] theorem haltFeed_params (s : State) (b : RiseMode) : (s.haltFeed b).params = s.params := by
  rw [haltFeed_frame]; rfl
@[simp] theorem haltFeed_jobs (s : State) (b : RiseMode) : (s.haltFeed b).jobs = s.jobs := by
  rw [haltFeed_frame]; rfl
@[simp] theorem haltFeed_pourClock (s : State) (b : RiseMode) : (s.haltFeed b).pourClock = s.pourClock := by
  rw [haltFeed_frame]; rfl
@[simp] theorem haltFeed_records (s : State) (b : RiseMode) : (s.haltFeed b).records = s.records := by
  rw [haltFeed_frame]; rfl
@[simp] theorem haltFeed_walls (s : State) (b : RiseMode) : (s.haltFeed b).walls = s.walls := by
  rw [haltFeed_frame]; rfl
@[simp] theorem haltFeed_expectations (s : State) (b : RiseMode) : (s.haltFeed b).expectations = s.expectations := by
  rw [haltFeed_frame]; rfl

/-- An entry into HALT leaves every condition but FEED_JAM. -/
theorem haltFeed_condition (s : State) (b : RiseMode) (c : Cond) (h : c ≠ .feedJam) :
    (s.haltFeed b).condition c = s.condition c := by
  by_cases k : s.mode = .halt ∧ b ≠ .halt
  · exact (halts_engine (haltFeed_halts s b k.1 k.2)).conditions c h
  · rw [haltFeed_kept s b (by by_contra n; exact k ⟨by_contra fun m => n (.inl m), fun m => n (.inr m)⟩)]

/-- The feed after an entry into HALT: both channels stopped, one after the other (R102). -/
theorem halts_feed {s t : State} (h : s.Halts t) :
    ∃ first, t.feed = (s.feed.stopped s.now .halt first).stopped s.now .halt (otherChannel first) := by
  obtain ⟨first, rfl⟩ := h
  have jam (v : State) : v.evaluateJam = v.withConditions v.evaluateJam.conditions := evaluate_note _ _ _ _ rfl
  refine ⟨first, ?_⟩
  dsimp only
  rw [jam, jam]
  rfl

/-- After an entry into HALT no channel is in WAIT, OPEN or PAUSED, and one in CLOSING has cause HALT (R102). -/
theorem halts_rests {s t : State} (h : s.Halts t) (k : ∀ c, (s.channel c).state = .opened → (s.channel c).working ≠ none)
    (c : Channel) : let x := t.channel c
    x.state = .idle ∨ x.state = .done ∨ x.state = .stopped ∨ x.state = .closing ∧ x.closeCause = some .halt := by
  obtain ⟨first, h⟩ := halts_feed h
  have back : otherChannel (otherChannel first) = first := by cases first <;> rfl
  have hc : c = otherChannel first ∨ c = first := by cases c <;> cases first <;> simp [otherChannel]
  unfold State.channel
  rw [h]
  rcases hc with rfl | rfl
  · refine stopped_same _ _ _ _ ?_
    rw [stopped_other]
    exact k _
  · have o := stopped_other (s.feed.stopped s.now .halt c) s.now .halt (otherChannel c)
    rw [back] at o
    dsimp only
    rw [o]
    exact stopped_same _ _ _ _ (k c)

end Sys2Proof.Laws
end

