-- ==== Sys2Proof/Laws/Placement.lean ====
section
/-! SUPPORT. What the shared operations of the Placement Store can do, said once: what each replaces, which segments it
leaves alone, and that a queue keeps the form of R66. -/

namespace Sys2Proof.Laws

open Sys2Proof Sys2Proof.Machine

/-! ## Frames -/

/-- The wall, the Condition Unit, the mode and its hand-offs are all that may differ. -/
def WallFrame (s t : State) : Prop :=
  t = (((s.withWalls t.walls).withConditions t.conditions).withMode t.mode).withTransit t.transit

theorem WallFrame.refl (s : State) : WallFrame s s := rfl

theorem WallFrame.trans {s t u : State} (h : WallFrame s t) (k : WallFrame t u) : WallFrame s u := by
  obtain ⟨w, c, m, r, rfl⟩ : ∃ w c m r, t = (((s.withWalls w).withConditions c).withMode m).withTransit r :=
    ⟨_, _, _, _, h⟩
  obtain ⟨w', c', m', r', rfl⟩ : ∃ w' c' m' r', u = ((((((((s.withWalls w).withConditions c).withMode m).withTransit
      r).withWalls w').withConditions c').withMode m').withTransit r') := ⟨_, _, _, _, k⟩
  cases s
  rfl

theorem setWall_frame (s : State) (k : SegmentIx) (w : SegmentLive) : WallFrame s (s.setWall k w) := rfl

theorem raise_wallFrame (s : State) (c : Cond) (d : Option Nat) : WallFrame s (s.raise c d) := by
  unfold WallFrame
  rw [raise_frame]
  rfl

/-! ## GREEN_EXIT (R75) -/

theorem raiseGreen_succ (s : State) (k : SegmentIx) (n : Nat) :
    s.raiseGreen k (n + 1) = (s.raiseGreen k n).raise .greenExit (some k.val) := rfl

theorem raiseGreen_frame (s : State) (k : SegmentIx) (n : Nat) : WallFrame s (s.raiseGreen k n) := by
  induction n with
  | zero => exact .refl s
  | succ n ih => rw [raiseGreen_succ]; exact ih.trans (raise_wallFrame _ _ _)

theorem raiseGreen_modes (s : State) (k : SegmentIx) (n : Nat) : ModesOnly s (s.raiseGreen k n) := by
  induction n with
  | zero => exact .refl s
  | succ n ih => rw [raiseGreen_succ]; exact ih.trans (raise_modes _ _ _)

@[simp] theorem raise_walls (s : State) (c : Cond) (d : Option Nat) : (s.raise c d).walls = s.walls := by
  rw [raise_frame]; rfl

@[simp] theorem raiseGreen_walls (s : State) (k : SegmentIx) (n : Nat) : (s.raiseGreen k n).walls = s.walls := by
  induction n with
  | zero => rfl
  | succ n ih => rw [raiseGreen_succ, raise_walls, ih]

theorem raiseGreen_other (s : State) (k : SegmentIx) (n : Nat) {c : Cond} (h : c ≠ .greenExit) :
    (s.raiseGreen k n).condition c = s.condition c := by
  induction n with
  | zero => rfl
  | succ n ih => rw [raiseGreen_succ, raise_other _ _ h, ih]

@[simp] theorem raiseGreen_masked (s : State) (k : SegmentIx) (n : Nat) :
    (s.raiseGreen k n).conditions.masked = s.conditions.masked := by
  induction n with
  | zero => rfl
  | succ n ih => rw [raiseGreen_succ, raise_masked, ih]

/-! ## Placements (R67 to R70) -/

@[simp] theorem wall_setWall_same (s : State) (k : SegmentIx) (w : SegmentLive) : (s.setWall k w).wall k = w := by
  simp [State.setWall, State.wall]

theorem wall_setWall_other (s : State) {k j : SegmentIx} (w : SegmentLive) (h : j ≠ k) :
    (s.setWall k w).wall j = s.wall j := table_read_write_other _ _ _ _ h

theorem wall_congr {s t : State} (h : s.walls = t.walls) (k : SegmentIx) : s.wall k = t.wall k := by
  simp only [State.wall, h]

theorem checkYoungest_frame (s : State) (k : SegmentIx) : WallFrame s (s.checkYoungest k) := by
  unfold State.checkYoungest
  dsimp only
  split
  · split
    · exact (setWall_frame s k _).trans (raiseGreen_frame _ _ _)
    · exact .refl s
  · exact .refl s

/-- The check of a placement's record changes at most that segment's queue. -/
theorem checkYoungest_wall_other (s : State) {k j : SegmentIx} (h : j ≠ k) : (s.checkYoungest k).wall j = s.wall j := by
  unfold State.checkYoungest
  dsimp only
  split
  · split
    · rw [wall_congr (raiseGreen_walls _ _ _), wall_setWall_other _ _ h]
    · rfl
  · rfl

/-- The check of a placement's record changes at most the queue. -/
theorem checkYoungest_wall (s : State) (k : SegmentIx) :
    (s.checkYoungest k).wall k = { s.wall k with queue := ((s.checkYoungest k).wall k).queue } := by
  unfold State.checkYoungest
  dsimp only
  split
  · split
    · rw [wall_congr (raiseGreen_walls _ _ _), wall_setWall_same]
    · rfl
  · rfl

theorem checkYoungest_other (s : State) (k : SegmentIx) {c : Cond} (h : c ≠ .greenExit) :
    (s.checkYoungest k).condition c = s.condition c := by
  unfold State.checkYoungest
  dsimp only
  split
  · split
    · rw [raiseGreen_other _ _ _ h]; rfl
    · rfl
  · rfl

theorem takePlacement_frame (s : State) (k : SegmentIx) (v : Nat) (src : LayerSource) (d : Option DescriptorIx) :
    WallFrame s (s.takePlacement k v src d) := by
  unfold State.takePlacement
  dsimp only
  split
  · split
    · exact setWall_frame s k _
    · exact (setWall_frame s k _).trans (checkYoungest_frame _ _)
  · exact .refl s

/-- A placement hands on changes of mode only. -/
theorem takePlacement_modes (s : State) (k : SegmentIx) (v : Nat) (src : LayerSource) (d : Option DescriptorIx) :
    ModesOnly s (s.takePlacement k v src d) := by
  unfold State.takePlacement State.checkYoungest
  dsimp only
  split
  · split
    · rfl
    · split
      · split
        · exact ModesOnly.trans (t := (s.setWall k _).setWall k _) rfl (raiseGreen_modes _ k 1)
        · rfl
      · rfl
  · rfl

theorem takePlacement_wall_other (s : State) {k j : SegmentIx} (v : Nat) (src : LayerSource) (d : Option DescriptorIx)
    (h : j ≠ k) : (s.takePlacement k v src d).wall j = s.wall j := by
  unfold State.takePlacement
  dsimp only
  split
  · split
    · exact wall_setWall_other s _ h
    · rw [checkYoungest_wall_other _ h, wall_setWall_other _ _ h]
  · rfl

/-- A placement into an enabled segment leaves it as placed, but for the flag of the youngest record. -/
theorem takePlacement_wall (s : State) (k : SegmentIx) (v : Nat) (src : LayerSource) (d : Option DescriptorIx)
    (h : (s.segment k).enabled = true) :
    (s.takePlacement k v src d).wall k =
      { (s.wall k).placed (s.segment k).area v s.pourClock src d with
        queue := ((s.takePlacement k v src d).wall k).queue } := by
  unfold State.takePlacement
  dsimp only
  rw [if_pos h]
  split
  · rw [wall_setWall_same]
  · rw [checkYoungest_wall]
    simp only [wall_setWall_same]

theorem takePlacement_disabled (s : State) (k : SegmentIx) (v : Nat) (src : LayerSource) (d : Option DescriptorIx)
    (h : (s.segment k).enabled = false) : s.takePlacement k v src d = s := by
  simp [State.takePlacement, h]

theorem takePlacement_other (s : State) (k : SegmentIx) (v : Nat) (src : LayerSource) (d : Option DescriptorIx)
    {c : Cond} (h : c ≠ .greenExit) : (s.takePlacement k v src d).condition c = s.condition c := by
  unfold State.takePlacement
  dsimp only
  split
  · split
    · rfl
    · rw [checkYoungest_other _ _ h]; rfl
  · rfl

/-! ## Retirement (R73, R74) -/

theorem retireSegment_frame (b : Int) (s : State) (k : SegmentIx) : WallFrame s (s.retireSegment b k) := by
  unfold State.retireSegment
  dsimp only
  split
  · exact (setWall_frame s k _).trans (raiseGreen_frame _ _ _)
  · exact .refl s

theorem retireSegment_wall_other (b : Int) (s : State) {k j : SegmentIx} (h : j ≠ k) :
    (s.retireSegment b k).wall j = s.wall j := by
  unfold State.retireSegment
  dsimp only
  split
  · rw [wall_congr (raiseGreen_walls _ _ _), wall_setWall_other _ _ h]
  · rfl

theorem retireSegment_other (b : Int) (s : State) (k : SegmentIx) {c : Cond} (h : c ≠ .greenExit) :
    (s.retireSegment b k).condition c = s.condition c := by
  unfold State.retireSegment
  dsimp only
  split
  · rw [raiseGreen_other _ _ _ h]; rfl
  · rfl

theorem retireAll_frame (s : State) (r : CycleResult) : WallFrame s (s.retireAll r) := by
  unfold State.retireAll
  split
  · generalize allSegments = ks
    induction ks generalizing s with
    | nil => exact .refl s
    | cons k ks ih => exact (retireSegment_frame _ s k).trans (ih _)
  · exact .refl s

theorem retireAll_other (s : State) (r : CycleResult) {c : Cond} (h : c ≠ .greenExit) :
    (s.retireAll r).condition c = s.condition c := by
  unfold State.retireAll
  split
  · generalize allSegments = ks
    induction ks generalizing s with
    | nil => rfl
    | cons k ks ih => exact (ih _).trans (retireSegment_other _ s k h)
  · rfl

/-- Retirement takes from the old end the records whose top is at or below B (R73). -/
theorem retire_queue (b : Int) (clock setAge base : Nat) (queue : List Layer) :
    (retire b clock setAge base queue).2.1 = queue.dropWhile fun l => decide ((l.top : Int) ≤ b) := by
  induction queue generalizing base with
  | nil => rfl
  | cons l ls ih =>
    unfold retire
    split
    · next h => simp [h, ih]
    · next h => simp [h]

/-- Retirement moves the base to the top of the last record it takes (R73). -/
theorem retire_base (b : Int) (clock setAge base : Nat) (queue : List Layer) :
    (retire b clock setAge base queue).1 =
      (((queue.takeWhile fun l => decide ((l.top : Int) ≤ b)).getLast?).map Layer.top).getD base := by
  induction queue generalizing base with
  | nil => rfl
  | cons l ls ih =>
    unfold retire
    split
    · next h =>
      simp only [h, decide_true, List.takeWhile_cons, if_true, ih]
      cases hl : ls.takeWhile fun l => decide ((l.top : Int) ≤ b) with
      | nil => rfl
      | cons m ms => simp [List.getLast?_eq_some_getLast]
    · next h => simp [h]

end Sys2Proof.Laws
end

