-- ==== Sys2Proof/Laws/Restart.lean ====
section
/-! SUPPORT. What RESTART does, said once: one lemma per field of the state after it, and what its closures can do. -/

namespace Sys2Proof.Laws

open Sys2Proof Sys2Proof.Machine

/-! ## One lemma per field (R174) -/

@[simp] theorem restarted_power (s : State) : s.restarted.power = s.restartFeed.power := rfl
@[simp] theorem restarted_now (s : State) : s.restarted.now = s.restartFeed.now := rfl
@[simp] theorem restarted_pending (s : State) : s.restarted.pending = s.restartFeed.pending := rfl
@[simp] theorem restarted_nodes (s : State) : s.restarted.nodes = s.restartFeed.nodes := rfl
@[simp] theorem restarted_segments (s : State) : s.restarted.segments = s.restartFeed.segments := rfl
@[simp] theorem restarted_pourClock (s : State) : s.restarted.pourClock = s.restartFeed.pourClock := rfl
@[simp] theorem restarted_feed (s : State) : s.restarted.feed = s.restartFeed.feed := rfl
@[simp] theorem restarted_walls (s : State) : s.restarted.walls = s.restartFeed.walls := rfl
@[simp] theorem restarted_monitors (s : State) : s.restarted.monitors = s.restartFeed.monitors := rfl
@[simp] theorem restarted_params (s : State) : s.restarted.params = s.restartFeed.params := rfl
@[simp] theorem restarted_ring (s : State) : s.restarted.ring = s.restartFeed.ring.map Exchange.voided := rfl
@[simp] theorem restarted_dispatch (s : State) : s.restarted.dispatch = s.restartFeed.dispatch.restarted := rfl
@[simp] theorem restarted_mode (s : State) : s.restarted.mode = .idle := rfl
@[simp] theorem restarted_level (s : State) : s.restarted.level = LevelUnit.initial := rfl
@[simp] theorem restarted_conditions (s : State) : s.restarted.conditions = Conditions.initial := rfl
@[simp] theorem restarted_placementSeen (s : State) : s.restarted.placementSeen = none := rfl
@[simp] theorem restarted_transit (s : State) : s.restarted.transit = s.restartFeed.transit.restarted := rfl
@[simp] theorem restarted_jobs (s : State) : s.restarted.jobs = [] := rfl
@[simp] theorem restarted_expectations (s : State) : s.restarted.expectations = Table.const 128 none := rfl
@[simp] theorem restarted_records (s : State) :
    s.restarted.records = Table.tabulate fun i => (s.restartFeed.record i).restarted (s.restartFeed.node i).enabled := rfl
@[simp] theorem restarted_sweep (s : State) :
    s.restarted.sweep = { s.restartFeed.sweep with running := false, dueAt := s.restartFeed.now, cursor := none, replies := [] } := rfl
@[simp] theorem restarted_markers (s : State) :
    s.restarted.markers = { s.restartFeed.markers with spent := Table.const 24 false, latest := none } := rfl
@[simp] theorem restarted_command (s : State) :
    s.restarted.command = { s.restartFeed.command with
      staged := [], commitPending := false, commitSeq := none, startCause := .restart } := rfl
@[simp] theorem restarted_agents (s : State) :
    s.restarted.agents = { s.restartFeed.agents with counters := Table.const 16 0, drops := Table.const 16 0 } := rfl
@[simp] theorem restarted_console (s : State) :
    s.restarted.console = s.restartFeed.console.restarted s.restartFeed.now := rfl
@[simp] theorem restarted_relays (s : State) :
    s.restarted.relays = { slots := Table.const 4 none, discards := 0 } := rfl

/-! ## Closures (R103) -/

/-- The closures replace the wall, the Condition Unit, the mode and its hand-offs, and the feed's waiting exchanges, which only gain stray CLOSEs. -/
def ClosureFrame (s t : State) (w : Table SegmentLive 32) (q : List FeedExchange) : Prop :=
  t = ((((s.withWalls w).withConditions t.conditions).withMode t.mode).withTransit t.transit).withFeed
    { s.feed with waiting := s.feed.waiting ++ q }

/-- What the closure of one channel does: with nothing delivered the wall stays; an opening leaves a stray CLOSE. -/
theorem closeAtRestart_frame (s : State) (c : Channel) : ∃ w q, ClosureFrame s (s.closeAtRestart c) w q ∧
    ((s.channel c).delivered = 0 → w = s.walls) ∧
    ((s.channel c).state ≠ .opened → (s.channel c).state ≠ .closing → w = s.walls) ∧
    (∀ x, (s.channel c).state = .opened ∨ (s.channel c).state = .closing → (s.channel c).working = some x →
      s.closeOf c x true ∈ q) := by
  have key : ∀ x, ∃ w, ClosureFrame s (s.restartClosure c (s.channel c) x) w [s.closeOf c x true] ∧
      ((s.channel c).delivered = 0 → w = s.walls) := by
    intro x
    unfold State.restartClosure
    dsimp only
    split
    · exact ⟨s.walls, by cases s; rfl, fun _ => rfl⟩
    · next h =>
      obtain ⟨w, k, m, r, e⟩ : ∃ w k m r, s.takePlacement x.segment (s.channel c).delivered (sourceOf c)
          (s.closureDescriptor c) = (((s.withWalls w).withConditions k).withMode m).withTransit r :=
        ⟨_, _, _, _, takePlacement_frame _ _ _ _ _⟩
      rw [e]
      exact ⟨w, by cases s; cases c <;> rfl, fun h' => absurd h' h⟩
  unfold State.closeAtRestart
  dsimp only
  split
  · next x h1 h2 =>
    obtain ⟨w, h, h0⟩ := key x
    refine ⟨w, _, h, h0, fun n => absurd h1 n, fun y _ hy => ?_⟩
    rw [h2] at hy
    cases hy
    exact List.mem_singleton.2 rfl
  · next x h1 h2 =>
    obtain ⟨w, h, h0⟩ := key x
    refine ⟨w, _, h, h0, fun _ n => absurd h1 n, fun y _ hy => ?_⟩
    rw [h2] at hy
    cases hy
    exact List.mem_singleton.2 rfl
  · next h1 h2 =>
    refine ⟨s.walls, [], ?_, fun _ => rfl, fun _ _ => rfl, fun y h hy => ?_⟩
    · unfold ClosureFrame
      rw [List.append_nil]
      cases s
      rfl
    · exact h.elim (fun h => (h1 _ h hy).elim) fun h => (h2 _ h hy).elim

theorem closeAtRestart_modes (s : State) (c : Channel) : ModesOnly s (s.closeAtRestart c) := by
  have key : ∀ x, ModesOnly s (s.restartClosure c (s.channel c) x) := by
    intro x
    unfold State.restartClosure
    dsimp only
    split
    · rfl
    · exact (takePlacement_modes s x.segment _ (sourceOf c) (s.closureDescriptor c)).trans rfl
  unfold State.closeAtRestart
  dsimp only
  split
  · exact key _
  · exact key _
  · rfl

/-- The hand-offs after RESTART: what was under way to the Placement Store still retires there, and no more (R77). -/
theorem restarted_handoffs (s : State) :
    s.restarted.transit = { Transit.initial with retirements := s.transit.retirements ++ s.transit.placementResults } := by
  have h : ModesOnly s s.restartFeed := by
    unfold State.restartFeed
    exact (ModesOnly.trans (t := (s.withdrawExchanges .a).withdrawExchanges .b) rfl
      ((closeAtRestart_modes _ .a).trans (closeAtRestart_modes _ .b))).trans rfl
  rw [restarted_transit, Transit.restarted, h]

/-- The feed and the wall after RESTART (R103): waiting exchanges are the stray ones and the closures' CLOSEs. -/
theorem restartFeed_frame (s : State) : ∃ w q k m r,
    s.restartFeed =
      ((((s.withWalls (Table.tabulate fun i => { Table.read w i with claim := none })).withConditions k).withMode m).withTransit
        r).withFeed
        { s.feed with channelA := s.feed.channelA.restarted, channelB := s.feed.channelB.restarted,
                      outletClaims := Table.const 128 none, note := none, seen := none, waiting := q } ∧
      ((∀ c, (s.channel c).state = .opened ∨ (s.channel c).state = .closing → (s.channel c).delivered = 0) →
        w = s.walls) ∧
      (∀ c x, (s.channel c).state = .opened ∨ (s.channel c).state = .closing → (s.channel c).working = some x →
        s.closeOf c x true ∈ q) := by
  unfold State.restartFeed
  dsimp only
  generalize hv : (s.withdrawExchanges .a).withdrawExchanges .b = v
  obtain ⟨wa, qa, ha, ha0, ha1, ha2⟩ := closeAtRestart_frame v .a
  obtain ⟨wb, qb, hb, hb0, hb1, hb2⟩ := closeAtRestart_frame (v.closeAtRestart .a) .b
  obtain ⟨ka, ma, ra, ea⟩ : ∃ k m r, v.closeAtRestart .a =
      ((((v.withWalls wa).withConditions k).withMode m).withTransit r).withFeed
        { v.feed with waiting := v.feed.waiting ++ qa } := ⟨_, _, _, ha⟩
  have hva : v.channel .a = s.channel .a := by rw [← hv]; rfl
  have hvb : v.channel .b = s.channel .b := by rw [← hv]; rfl
  have hab : (v.closeAtRestart .a).channel .b = s.channel .b := by rw [ea, ← hvb]; rfl
  have haw : (v.closeAtRestart .a).walls = wa := by rw [ea]; rfl
  have hvw : v.walls = s.walls := by rw [← hv]; rfl
  have hac : ∀ x, (v.closeAtRestart .a).closeOf .b x true = s.closeOf .b x true := by
    intro x; rw [ea, ← hv]; cases s; rfl
  have hvc : ∀ x, v.closeOf .a x true = s.closeOf .a x true := by intro x; rw [← hv]; rfl
  rw [hva] at ha0 ha1 ha2
  rw [hab] at hb0 hb1 hb2
  obtain ⟨kb, mb, rb, eb⟩ : ∃ k m r, (v.closeAtRestart .a).closeAtRestart .b =
      (((((v.closeAtRestart .a).withWalls wb).withConditions k).withMode m).withTransit r).withFeed
        { (v.closeAtRestart .a).feed with waiting := (v.closeAtRestart .a).feed.waiting ++ qb } := ⟨_, _, _, hb⟩
  refine ⟨wb, v.feed.waiting ++ qa ++ qb, kb, mb, rb, ?_, ?_, ?_⟩
  · rw [eb, ea, ← hv]
    cases s
    rfl
  · intro h
    have ea : wa = s.walls := by
      by_cases hs : (s.channel .a).state = .opened ∨ (s.channel .a).state = .closing
      · rw [ha0 (h .a hs), hvw]
      · rw [ha1 (fun e => hs (.inl e)) (fun e => hs (.inr e)), hvw]
    by_cases hs : (s.channel .b).state = .opened ∨ (s.channel .b).state = .closing
    · rw [hb0 (h .b hs), haw, ea]
    · rw [hb1 (fun e => hs (.inl e)) (fun e => hs (.inr e)), haw, ea]
  · intro c x hs hx
    cases c
    · have := ha2 x hs hx
      rw [hvc] at this
      simp [this]
    · have := hb2 x hs hx
      rw [hac] at this
      simp [this]

end Sys2Proof.Laws
end

