-- ==== Sys2Proof/Laws/Ring.lean ====
section
/-! SUPPORT. What the operations of the ring can do, said once: the order of service, the window that takes a reply,
the bytes that spell a report, and the records at the end of an exchange. -/

namespace Sys2Proof.Laws

open Sys2Proof Sys2Proof.Machine

/-! ## The first of what waits -/

/-- A choice kept against everything that does not go before it. -/
theorem foldl_first {α : Type} (before : α → α → Bool) (x : α) (l : List α) (h : ∀ y ∈ l, before y x = false) :
    l.foldl (fun y z => if before z y then z else y) x = x := by
  induction l with
  | nil => rfl
  | cons a l ih =>
    rw [List.foldl_cons, h a (by simp)]
    exact ih fun y hy => h y (by simp [hy])

/-- A choice is one of what waits. -/
theorem foldl_mem {α : Type} (before : α → α → Bool) (l : List α) (y : α) :
    l.foldl (fun y z => if before z y then z else y) y ∈ y :: l := by
  induction l generalizing y with
  | nil => simp
  | cons a l ih =>
    rw [List.foldl_cons]
    have := ih (if before a y then a else y)
    rw [List.mem_cons] at this
    rcases this with h | h
    · rw [h]
      split <;> simp
    · simp [h]

/-- The one that goes before everything ahead of it, and that nothing behind it goes before, is the first. -/
theorem firstBy_mid {α : Type} (before : α → α → Bool) (pre post : List α) (x : α) (h : ∀ y ∈ pre, before x y = true)
    (k : ∀ y ∈ post, before y x = false) : firstBy before (pre ++ x :: post) = some x := by
  cases pre with
  | nil => simp [firstBy, foldl_first before x post k]
  | cons a pre =>
    simp only [List.cons_append, firstBy, List.foldl_append, List.foldl_cons]
    rw [h _ (foldl_mem before pre a)]
    simp [foldl_first before x post k]

/-- By an order in which one that goes before another also goes before what that other does not wait for, the choice is
where it stands: it goes before everything ahead of it, and nothing behind it goes before it. -/
theorem firstBy_split {α : Type} (before : α → α → Bool)
    (trans : ∀ x y z, before x y = true → before y z = true → before x z = true)
    (skip : ∀ x y z, before x y = true → before z y = false → before x z = true) (l : List α) (x : α)
    (h : firstBy before l = some x) :
    ∃ pre post, l = pre ++ x :: post ∧ (∀ y ∈ pre, before x y = true) ∧ ∀ y ∈ post, before y x = false := by
  have fold (l : List α) : ∀ y, let x := l.foldl (fun y z => if before z y then z else y) y
      (x = y ∧ ∀ z ∈ l, before z y = false) ∨ before x y = true ∧
        ∃ pre post, l = pre ++ x :: post ∧ (∀ z ∈ pre, before x z = true) ∧ ∀ z ∈ post, before z x = false := by
    induction l with
    | nil => exact fun y => .inl ⟨rfl, by simp⟩
    | cons a l ih =>
      intro y
      simp only [List.foldl_cons]
      cases ha : before a y
      · rcases ih y with ⟨h, k⟩ | ⟨h, pre, post, e, k, m⟩
        · exact .inl ⟨h, by simpa [ha] using k⟩
        · refine .inr ⟨h, a :: pre, post, congrArg (a :: ·) e, ?_, m⟩
          simpa using ⟨skip _ _ _ h ha, k⟩
      · rcases ih a with ⟨h, k⟩ | ⟨h, pre, post, e, k, m⟩
        · refine .inr ⟨?_, [], l, ?_, by simp, ?_⟩
          · exact (congrArg (before · y) h).trans ha
          · exact congrArg (· :: l) h.symm
          · exact fun z hz => (congrArg (before z) h).trans (k z hz)
        · refine .inr ⟨trans _ _ _ h ha, a :: pre, post, congrArg (a :: ·) e, ?_, m⟩
          simpa using ⟨h, k⟩
  cases l with
  | nil => cases h
  | cons a l =>
    obtain rfl := Option.some.inj h
    rcases fold l a with ⟨h, k⟩ | ⟨h, pre, post, e, k, m⟩
    · refine ⟨[], l, ?_, by simp, ?_⟩
      · exact congrArg (· :: l) h.symm
      · exact fun z hz => (congrArg (before z) h).trans (k z hz)
    · refine ⟨a :: pre, post, congrArg (a :: ·) e, ?_, m⟩
      simpa using ⟨h, k⟩

/-- The OPEN or CLOSE that rank 3 gives waits longest, channel A's first of two equal ones (R20). -/
theorem grantFeed_split (s : State) (g : Grant) (h : s.grantFeed = some g) : ∃ x before after, g = .feed x ∧
    s.feed.waiting = before ++ x :: after ∧
    (∀ y ∈ before, x.since < y.since ∨ (x.since = y.since ∧ x.channel = .a ∧ y.channel = .b)) ∧
    ∀ y ∈ after, x.since < y.since ∨ (x.since = y.since ∧ (x.channel = .a ∨ y.channel = .b)) := by
  have goes (x y : FeedExchange) : x.before y = true ↔
      x.since < y.since ∨ (x.since = y.since ∧ x.channel = .a ∧ y.channel = .b) := by
    simp [FeedExchange.before, and_assoc]
  have stays (x y : FeedExchange) : y.before x = false ↔
      x.since < y.since ∨ (x.since = y.since ∧ (x.channel = .a ∨ y.channel = .b)) := by
    rw [← Bool.not_eq_true, goes]
    cases x.channel <;> cases y.channel <;> simp <;> omega
  obtain ⟨x, hx, rfl⟩ := Option.map_eq_some_iff.1 h
  obtain ⟨pre, post, e, k, m⟩ := firstBy_split _ (fun x y z => by
    rw [goes, goes, goes]
    cases x.channel <;> cases y.channel <;> cases z.channel <;> simp <;> omega) (fun x y z => by
    rw [goes, stays, goes]
    cases x.channel <;> cases y.channel <;> cases z.channel <;> simp <;> omega) _ _ hx
  exact ⟨x, pre, post, rfl, e, fun y hy => (goes x y).1 (k y hy), fun y hy => (stays x y).1 (m y hy)⟩

/-! ## The order of service (R20) -/

/-- The tests of R12, the ring apart. -/
theorem sweepReady_iff (s : State) : s.sweepReady = true ↔ s.SweepMayStart := by
  simp only [State.sweepReady, State.SweepMayStart, Bool.and_eq_true, decide_eq_true_eq, Bool.not_eq_true',
    List.isEmpty_iff]
  tauto

/-- Rank 1 serves something exactly in these cases (R12, R13). -/
theorem grantSweep_isSome (s : State) : s.grantSweep.isSome = true ↔ s.SweepServes := by
  have h := sweepReady_iff s
  unfold State.grantSweep State.SweepServes
  cases hr : s.sweep.running
  · simp only [State.SweepMayStart, hr] at h ⊢
    cases hs : s.sweepReady <;> simp_all
  · simp [State.SweepMayStart, hr, Option.isSome_iff_ne_none]

/-- The dispatch no longer stands exactly when the mode has left CLIMB and TRIM, or a change to IDLE, HOLD or HALT is
under way to it (R27). -/
theorem dispatchSends_false_iff (s : State) : s.dispatchSends = false ↔
    (s.mode ≠ .climb ∧ s.mode ≠ .trim) ∨ ∃ m ∈ s.transit.dispatchModes, m.new ≠ .climb ∧ m.new ≠ .trim := by
  have h (x : RiseMode) : x.climbing = false ↔ x ≠ .climb ∧ x ≠ .trim := by cases x <;> simp [RiseMode.climbing]
  simp only [State.dispatchSends, ModeChange.abandons, Bool.and_eq_false_iff, h, Bool.not_eq_false', List.any_eq_true,
    Bool.not_eq_true']

/-- The entry of a slot is found where there is one. -/
theorem entryOf_isSome (d : Dispatch) (i : Slot) : (d.entryOf i).isSome = true ↔ ∃ e ∈ d.entries, e.slot = i := by
  simp [Dispatch.entryOf, List.find?_isSome]

/-- Rank 2 serves something exactly in these cases (R23, R26, R27). -/
theorem grantDispatch_isSome (s : State) : s.grantDispatch.isSome = true ↔ s.DispatchServes := by
  have h := dispatchSends_false_iff s
  unfold State.grantDispatch State.DispatchServes
  cases hs : s.dispatchSends
  · simp only [Bool.false_eq_true, if_false, Option.isSome_none, false_iff]
    rcases h.1 hs with k | ⟨m, hm, k⟩
    · exact fun l => l.1.elim k.1 k.2
    · exact fun l => (l.2.1 m hm).elim k.1 k.2
  · rw [hs] at h
    simp only [Bool.true_eq_false, false_iff, not_or, not_and, Classical.not_not, not_exists] at h
    have a : s.mode = .climb ∨ s.mode = .trim := (Classical.em (s.mode = .climb)).imp_right h.1
    have b : ∀ m ∈ s.transit.dispatchModes, m.new = .climb ∨ m.new = .trim :=
      fun m hm => (Classical.em (m.new = .climb)).imp_right (h.2 m hm)
    rw [if_pos rfl, and_iff_right a, and_iff_right b]
    cases s.dispatch.state <;> simp only [reduceCtorEq, false_and, or_false, false_or, Option.isSome_none,
      Bool.false_eq_true, Option.isSome_some, true_and, or_self, Option.isSome_map]
    cases hc : s.dispatch.cursor with
    | none => simp
    | some i =>
      simp only [Option.bind_some, entryOf_isSome, Option.some.injEq]
      exact ⟨fun ⟨e, he, k⟩ => ⟨e, he, k.symm⟩, fun ⟨e, he, k⟩ => ⟨e, he, k.symm⟩⟩

/-- Rank 1 gives a start or a poll of the sweep, in the case of each (R12, R13). -/
theorem grantSweep_kind (s : State) (g : Grant) (h : s.grantSweep = some g) :
    (g = .sweepStart ∧ s.SweepMayStart) ∨ ∃ i, g = .sweepPoll i ∧ s.sweep.running = true ∧ s.sweep.cursor = some i := by
  unfold State.grantSweep at h
  split at h
  · next hr =>
    cases hc : s.sweep.cursor <;> simp only [hc, Option.map_none, Option.map_some, reduceCtorEq, Option.some.injEq] at h
    exact .inr ⟨_, h.symm, hr, rfl⟩
  · split at h
    · next hr => exact .inl ⟨(Option.some.inj h).symm, (sweepReady_iff s).1 hr⟩
    · cases h

/-- Rank 2 gives a DEMAND or the GO (R23, R26). -/
theorem grantDispatch_kind (s : State) (g : Grant) (h : s.grantDispatch = some g) : (∃ e, g = .demand e) ∨ g = .go := by
  unfold State.grantDispatch at h
  split at h
  · split at h
    · rw [Option.map_eq_some_iff] at h
      exact .inl (h.imp fun _ k => k.2.symm)
    · exact .inr (Option.some.inj h).symm
    · cases h
    · cases h
  · cases h

theorem firstBy_isSome {α : Type} (before : α → α → Bool) (l : List α) : (firstBy before l).isSome = true ↔ l ≠ [] := by
  cases l <;> simp [firstBy]

/-- Rank 3 serves something exactly while an exchange waits (R87, R92). -/
theorem grantFeed_isSome (s : State) : s.grantFeed.isSome = true ↔ s.feed.waiting ≠ [] := by
  simp [State.grantFeed, firstBy_isSome]

/-- Rank 4 serves something exactly while an outlet poll is due (R19). -/
theorem grantPoll_isSome (s : State) : s.grantPoll.isSome = true ↔ s.PollServes := by
  have h (i : Slot) : s.pollIsDue i = true ↔ (s.node i).enabled = true ∧ ∃ t ∈ (s.record i).pollDue, t ≤ s.now := by
    unfold State.pollIsDue
    cases (s.record i).pollDue <;> simp
  simp only [State.grantPoll, Option.isSome_map, firstBy_isSome, ne_eq, List.filter_eq_nil_iff, h, State.PollServes]
  simp [allSlots]

/-- A relay waits for the ring exactly in this case (R118, R189). -/
theorem relayWaits_iff (s : State) (i : RelayIx) : s.relayWaits i = true ↔ s.RelayServes i := by
  have h (x : RiseMode) : x.climbing = true ↔ x = .climb ∨ x = .trim := by cases x <;> simp [RiseMode.climbing]
  unfold State.relayWaits State.RelayServes
  cases s.relaySlot i with
  | none => simp
  | some x =>
    simp only [Option.mem_some_iff, exists_eq_left', Bool.and_eq_true, decide_eq_true_eq, Bool.not_eq_true',
      Bool.and_eq_false_iff, State.isJack, decide_eq_false_iff_not, Bool.or_eq_false_iff, List.any_eq_false,
      ModeChange.entersClimb, h, Bool.or_eq_true]
    cases hn : (s.node x.target).enabled <;> by_cases hk : (s.node x.target).kind = .jack <;> simp [hk]

/-- Rank 5 serves something exactly while a relay waits for the ring (R189). -/
theorem grantRelay_isSome (s : State) : s.grantRelay.isSome = true ↔ ∃ i, s.RelayServes i := by
  simp only [State.grantRelay, Option.isSome_map, firstBy_isSome, ne_eq, List.filter_eq_nil_iff, relayWaits_iff,
    allRelays, List.mem_finRange, forall_const, not_forall, Classical.not_not]

/-- With nothing of rank 1 or 2 the ring serves rank 3, then rank 4, then rank 5. -/
theorem nextGrant_below (s : State) (h : s.ring = none) (k : ¬ s.SweepServes) (l : ¬ s.DispatchServes) :
    s.nextGrant = s.grantFeed.or (s.grantPoll.or s.grantRelay) := by
  rw [← grantSweep_isSome, Option.not_isSome_iff_eq_none] at k
  rw [← grantDispatch_isSome, Option.not_isSome_iff_eq_none] at l
  unfold State.nextGrant
  rw [h, k, l]
  rfl

/-- A rank is served only where no higher one has something to serve: what a rank gives is of that rank. -/
theorem nextGrant_ranks (s : State) (g : Grant) (h : s.nextGrant = some g) : s.ring = none ∧
    (s.grantSweep = some g ∨ ¬ s.SweepServes ∧ (s.grantDispatch = some g ∨ ¬ s.DispatchServes ∧
      (s.grantFeed = some g ∨ s.feed.waiting = [] ∧ (s.grantPoll = some g ∨ ¬ s.PollServes ∧ s.grantRelay = some g)))) := by
  have none_of {α : Type} {o : Option α} {p : Prop} (i : o.isSome = true ↔ p) : o = none ↔ ¬ p := by
    rw [← i, Option.not_isSome_iff_eq_none]
  unfold State.nextGrant at h
  split at h
  · cases h
  · next hr =>
    refine ⟨by simpa using hr, ?_⟩
    rw [← none_of (grantSweep_isSome s), ← none_of (grantDispatch_isSome s), ← none_of (grantPoll_isSome s)]
    have hw : s.feed.waiting = [] ↔ s.grantFeed = none := by rw [none_of (grantFeed_isSome s)]; simp
    rw [hw]
    cases ha : s.grantSweep <;> cases hb : s.grantDispatch <;> cases hc : s.grantFeed <;> cases hd : s.grantPoll <;>
      simp_all

/-! ## The reply window (R6) -/

/-- The window takes a frame exactly while it is open, from the address that the request went to. -/
theorem openWindow_iff (s : State) (a : Byte) (x : Exchange) : s.openWindow a = some x ↔ s.Takes a x := by
  unfold State.openWindow
  constructor
  · intro h
    split at h
    · next y hr =>
      split at h
      · next ends hp =>
        split at h
        · next hk =>
          cases h
          exact ⟨hr, ⟨ends, hp, hk.1⟩, hk.2⟩
        · cases h
      · cases h
    · cases h
  · rintro ⟨hr, ⟨ends, hp, hk⟩, ha⟩
    simp [hr, hp, hk, ha]

/-! ## REPORT payloads (R192, R194) -/

/-- Bytes give back the number they spell, two of them. -/
theorem u16_natOfBytes (a b : Byte) : u16 (natOfBytes [a, b]) = [a, b] := by
  have := a.isLt; have := b.isLt
  simp only [u16, u8, natOfBytes, List.foldl_cons, List.foldl_nil, List.cons.injEq, and_true]
  constructor <;> apply BitVec.eq_of_toNat_eq <;> simp only [BitVec.toNat_ofNat] <;> omega

/-- Bytes give back the number they spell, three of them. -/
theorem u24_natOfBytes (a b c : Byte) : u24 (natOfBytes [a, b, c]) = [a, b, c] := by
  have := a.isLt; have := b.isLt; have := c.isLt
  simp only [u24, u8, natOfBytes, List.foldl_cons, List.foldl_nil, List.cons.injEq, and_true]
  refine ⟨?_, ?_, ?_⟩ <;> apply BitVec.eq_of_toNat_eq <;> simp only [BitVec.toNat_ofNat] <;> omega

/-- A number of two bytes is read back from them. -/
theorem natOfBytes_u16 (n : Nat) (h : n ≤ 65535) : natOfBytes (u16 n) = n := by
  simp only [u16, u8, natOfBytes, List.foldl_cons, List.foldl_nil, BitVec.toNat_ofNat]
  omega

/-- A number of three bytes is read back from them. -/
theorem natOfBytes_u24 (n : Nat) (h : n ≤ 16777215) : natOfBytes (u24 n) = n := by
  simp only [u24, u8, natOfBytes, List.foldl_cons, List.foldl_nil, BitVec.toNat_ofNat]
  omega

theorem u8_toNat (b : Byte) : u8 b.toNat = b := by simp [u8]

theorem toNat_u8 (n : Nat) (h : n ≤ 255) : (u8 n).toNat = n := by
  simp only [u8, BitVec.toNat_ofNat]; omega

/-- A signed number of two bytes is read back from them. -/
theorem intOfBytes16_i16 (x : Int) (h : -32768 ≤ x) (k : x ≤ 32767) : intOfBytes16 (i16 x) = x := by
  have := (BitVec.ofInt 16 x).isLt
  rw [intOfBytes16, i16, natOfBytes_u16 _ (by omega), BitVec.ofNat_toNat, BitVec.setWidth_eq, BitVec.toInt_ofInt]
  rw [Int.bmod_def]; omega

/-- Two bytes give back the signed number they spell. -/
theorem i16_intOfBytes16 (a b : Byte) : i16 (intOfBytes16 [a, b]) = [a, b] := by
  rw [i16, intOfBytes16, BitVec.ofInt_toInt, BitVec.toNat_ofNat, Nat.mod_eq_of_lt, u16_natOfBytes]
  have := a.isLt; have := b.isLt
  simp only [natOfBytes, List.foldl_cons, List.foldl_nil]
  omega

/-- A REPORT payload is taken exactly where it has the length of its slot's kind (R194). -/
theorem parseReport_isSome_iff (kind : NodeKind) (payload : List Byte) :
    (parseReport kind payload).isSome = true ↔ payload.length = (match kind with
      | .jack => 5
      | .outlet => 4
      | .sensor => 3) := by
  cases kind <;> rcases payload with _ | ⟨a, _ | ⟨b, _ | ⟨c, _ | ⟨d, _ | ⟨e, _ | ⟨f, l⟩⟩⟩⟩⟩⟩ <;> simp [parseReport]

/-- A REPORT payload is parsed exactly where it spells the report. -/
theorem parseReport_iff (kind : NodeKind) (payload : List Byte) (report : Report) :
    parseReport kind payload = some report ↔ report.SpelledBy kind payload := by
  constructor
  · intro h
    unfold parseReport at h
    split at h <;> cases h
    · next a b c t f =>
      have := a.isLt; have := b.isLt; have := c.isLt; have := t.isLt
      refine ⟨rfl, ?_, by omega, f, rfl, by rw [u24_natOfBytes, u8_toNat]; rfl⟩
      simp only [natOfBytes, List.foldl_cons, List.foldl_nil]; omega
    · next f a b t =>
      have := a.isLt; have := b.isLt; have := t.isLt
      refine ⟨rfl, ?_, by omega, f, rfl, rfl, rfl, by rw [u16_natOfBytes, u8_toNat]; rfl⟩
      simp only [natOfBytes, List.foldl_cons, List.foldl_nil]; omega
    · next a b f =>
      refine ⟨rfl, ?_, ?_, f, rfl, by rw [i16_intOfBytes16]; rfl⟩
      · exact BitVec.le_toInt _
      · exact Int.lt_add_one_iff.1 (BitVec.toInt_lt (x := BitVec.ofNat 16 (natOfBytes [a, b])))
  · intro h
    cases report with
    | jack height tag fault =>
      obtain ⟨rfl, hh, ht, f, rfl, rfl⟩ := h
      have := natOfBytes_u24 height hh
      simp only [u24] at this
      simp [parseReport, u24, this, toNat_u8 tag ht]
    | outlet ready ended fault delivered tag =>
      obtain ⟨rfl, hh, ht, f, rfl, rfl, rfl, rfl⟩ := h
      have := natOfBytes_u16 delivered hh
      simp only [u16] at this
      simp [parseReport, u16, this, toNat_u8 tag ht]
    | sensor value fault =>
      obtain ⟨rfl, hl, hh, f, rfl, rfl⟩ := h
      have := intOfBytes16_i16 value hl hh
      rw [i16, u16] at this
      simp only [parseReport, i16, u16, List.cons_append, List.nil_append, this]

/-! ## Records at the end of an exchange (R3 to R10) -/

/-- A replaced record can change the Condition Unit and the mode beside it, through the sources of R10. -/
theorem evaluateNodes_frame (s : State) :
    s.evaluateNodes = ((s.withConditions s.evaluateNodes.conditions).withMode s.evaluateNodes.mode).withTransit
      s.evaluateNodes.transit := by
  obtain ⟨c, m, t, h⟩ : ∃ c m t, s.evaluateNodes = ((s.withConditions c).withMode m).withTransit t := by
    unfold State.evaluateNodes
    dsimp only
    have h := evaluate_frame s .jackLost s.lostJack.isSome (s.lostJack.map Fin.val)
    generalize s.evaluate .jackLost s.lostJack.isSome (s.lostJack.map Fin.val) = u at h ⊢
    have k := evaluate_frame u .nodeLost s.lostNode.isSome (s.lostNode.map Fin.val)
    generalize u.evaluate .nodeLost s.lostNode.isSome (s.lostNode.map Fin.val) = v at k ⊢
    rw [h] at k
    exact ⟨v.conditions, v.mode, v.transit, k⟩
  rw [h]
  rfl

theorem updateRecord_frame (s : State) (i : Slot) (r : NodeRecord) :
    s.updateRecord i r = (((s.setRecord i r).withConditions (s.updateRecord i r).conditions).withMode
      (s.updateRecord i r).mode).withTransit (s.updateRecord i r).transit := by
  unfold State.updateRecord
  dsimp only
  split
  · rfl
  · exact evaluateNodes_frame _

/-- A record whose state stays is replaced, and nothing else happens. -/
theorem updateState_same (s : State) (i : Slot) (r : NodeRecord) (miss : Bool) (h : (s.record i).state = r.state) :
    s.updateState i r miss = s.setRecord i r := by
  unfold State.updateState State.updateRecord
  dsimp only
  rw [if_pos h, if_pos h]

/-- An acknowledgement of a slot that is ACTIVE sets its miss count to 0, and nothing else. -/
theorem ackNode_active (s : State) (i : Slot) (h : (s.record i).state = .active) :
    s.ackNode i = s.setRecord i { s.record i with missCount := 0 } := by
  have : (s.record i).acked = { s.record i with missCount := 0 } := by
    unfold NodeRecord.acked
    rw [h]
    cases hr : s.record i
    simp_all
  unfold State.ackNode
  rw [updateState_same _ _ _ _ (by rw [this]), this]

/-! ## The sweep (R13) -/

/-- While a polled slot follows, the end of an exchange moves the cursor and nothing else. -/
theorem advanceSweep_next (s : State) (i j : Slot) (h : nextPolled s.sweep.polled i = some j) :
    s.advanceSweep i = s.withSweep { s.sweep with cursor := some j } := by
  unfold State.advanceSweep
  rw [h]

/-- The slot that follows is a polled one above. -/
theorem nextPolled_mem (ps : List Slot) (i j : Slot) (h : nextPolled ps i = some j) : j ∈ ps ∧ i < j := by
  unfold nextPolled at h
  exact ⟨List.mem_of_find?_eq_some h, by simpa using List.find?_some h⟩

/-! ## Stroke verification (R32 to R36) -/

/-- JACK_SHORT is a NOTE condition: setting a short counter changes the counter and that record only. -/
theorem setShort_frame (s : State) (i : Slot) (n : Nat) :
    s.setShort i n = (s.setRecord i { s.record i with shortCounter := n }).withConditions (s.setShort i n).conditions := by
  unfold State.setShort
  split
  · next h =>
    have hv : s.records.set i { s.record i with shortCounter := n } = s.records := by
      rw [← h]
      exact Vector.set_getElem_self _
    show s = (s.withRecords (s.records.set i { s.record i with shortCounter := n })).withConditions s.conditions
    rw [hv]
    rfl
  · unfold State.evaluateShort
    dsimp only
    rw [evaluate_note _ _ _ _ rfl]
    rfl

end Sys2Proof.Laws
end

