-- ==== Sys2Proof/Tests/Slice0.lean ====
section
/-! SUPPORT. The package's own tests: the well-formedness checks refuse ill-formed steps, frames written out byte by byte
are their commands, a few single steps with results computed by hand from the spec, and for every statement with
hypotheses a state and operands that meet them (`test_hyps_<statement>`). -/

namespace Sys2Proof.Tests

open Sys2Proof Sys2Proof.Machine

/-! ## Well-formedness: one ill-formed term for each check -/

theorem test_wf_reject_of_valid_frame :
    (Instr.consoleFrameReject (gapless [0xA5, 0x00, 0x21, 0x02, 0x07, 0x01, 0xB7, 0x20])).wf = false := by
  decide +kernel

theorem test_wf_too_many_arguments :
    (Instr.write 0 (List.replicate 239 0)).wf = false ∧ (Instr.write 0 (List.replicate 238 0)).wf = true := by
  decide +kernel

theorem test_wf_unknown_of_known_code : (Instr.unknownCommand 0 19 []).wf = false ∧ (Instr.unknownCommand 0 20 []).wf := by
  decide

theorem test_wf_report_length : (Instr.ringReport 1 [0, 0]).wf = false ∧ (Instr.ringReport 1 [0, 0, 0]).wf := by decide

theorem test_wf_node_address : (Instr.ringReport 0 [0, 0, 0]).wf = false ∧ (Instr.ringReport 201 [0, 0, 0]).wf = false := by
  decide

theorem test_wf_ack_payload : (Instr.demandAck 1 [0]).wf = false ∧ (Instr.openAck 1 [0]).wf = false ∧
    (Instr.closeAck 1 [0]).wf = false := by decide

theorem test_wf_relay_back_length : (Instr.ringRelayBack 1 []).wf = false ∧
    (Instr.ringRelayBack 1 (List.replicate 66 0)).wf = false := by decide

/-! ## Frames (R191 to R195) -/

/-- PLACE of 4,000 litres into segment 31, every byte written out from R191 to R195. -/
theorem test_decode_place :
    decodeConsole (gapless [0xA5, 0x00, 0x21, 0x05, 0x09, 0x10, 0x1F, 0x0F, 0xA0, 0xDD, 0xF5]) =
      .place 9 [31, 0x0F, 0xA0] := by decide +kernel

/-- STATUS, number 7, with one gap before its CRC. -/
def gapped (gap : Nat) : RxFrame :=
  { bytes := ([0xA5, 0x00, 0x21, 0x02, 0x07, 0x01].map fun b => { value := b, gap := 0 }) ++
      [{ value := 0xB7, gap := gap }, { value := 0x20, gap := 0 }] }

/-- A gap of 5 ms is allowed on the console line, a longer one or a changed byte makes a rejection (R177, R193). -/
theorem test_decode_damaged : decodeConsole (gapped 5000) = .status 7 [] ∧
    decodeConsole (gapped 5001) = .consoleFrameReject (gapped 5001) ∧
    decodeConsole (gapless [0xA5, 0x00, 0x21, 0x02, 0x07, 0x01, 0xB7, 0x21]) =
      .consoleFrameReject (gapless [0xA5, 0x00, 0x21, 0x02, 0x07, 0x01, 0xB7, 0x21]) := by decide +kernel

/-- After a gap of more than 2 ms on the ring the hunt resumes behind the start byte: the frame that the gap cut is
discarded and the one behind it is found (R193). -/
theorem test_receive_gap : let ack : List RxByte := (gapless [0xA5, 0x01, 0x04, 0x00, 0xB0, 0x2C]).bytes
    let late (g : Nat) : List RxByte := ack.take 3 ++ (ack.drop 3).mapIdx fun n b => { b with gap := if n = 0 then g else 0 }
    (receiveAll .ring (late 2000 ++ ack)).length = 2 ∧
    (receiveAll .ring (late 2001 ++ ack)).map (fun f => f.bytes.length) = [3, 6] := by decide +kernel

/-- A negative sensor value and a height of three bytes (R192, R194). -/
theorem test_parse_reports :
    parseReport .sensor [0xFF, 0xFE, 1] = some (.sensor (-2) true) ∧
    parseReport .jack [0x01, 0x00, 0x02, 7, 0] = some (.jack 65538 7 false) ∧
    parseReport .outlet [0x06, 0x01, 0x00, 9] = some (.outlet true true false 256 9) ∧
    parseReport .jack [0, 0, 0] = none := by decide

/-! ## States to test on -/

/-- An enabled jack at an address. -/
def jackAt (address : Nat) : NodeEntry :=
  { enabled := true, address := address, kind := .jack, strokeMax := some 100, zero := some 0 }

/-- A deck: an outlet at slot 0, jacks at slots 1 to 3, a sensor at slot 4, one segment of 100 cm² and one descriptor. -/
def deck : State :=
  let s := State.reset
  ((s.withNodes (((((s.nodes.write 0 { jackAt 1 with kind := .outlet }).write 1 (jackAt 2)).write 2 (jackAt 3)).write 3
    (jackAt 200)).write 4 { jackAt 5 with kind := .sensor })).withSegments
      (s.segments.write 0 { enabled := true, area := 100, startTop := 0 })).withFeed
        { s.feed with descriptors := s.feed.descriptors.write 0 { DescriptorEntry.initial with enabled := true } }

/-- A state with a condition's record replaced. -/
def withCond (s : State) (c : Cond) (r : CondRecord) : State :=
  s.withConditions { s.conditions with records := s.conditions.records.write c.num r }

/-- A condition that is not IDLE. -/
def stands : CondRecord := { state := .standing, source := true, detail := none, count := 1 }

/-- A working copy on the deck. -/
def copy : WorkingCopy := { segment := 0, outlet := 0, litres := 10 }

/-- The deck with a channel in a state, on the working copy. -/
def channelIn (c : Channel) (x : ChannelState) : State :=
  deck.setChannel c { ChannelContext.initial with state := x, current := some 0, working := some copy, tag := 7 }

/-- The deck ready for an opening: H_ref is known to both blocks and the outlet has reported ready. -/
def cycleAt (h : Int) : CycleResult :=
  { cycleNumber := 1, time := 0, stepMode := .climb, n := 3, hRef := some h, bottom := some (h - 12000),
    previousHRef := some 0, spread := 0, errors := [], sReq := 0, remainder := 0, aFill := none, aSet := none, s := 0,
    binding := .none, demands := [{ slot := 1, demand := 0 }, { slot := 2, demand := 1 }] }

/-- A state in which channel's outlet is ready and the segment accepts. -/
def acceptsAll (s : State) : State :=
  ((s.withPlacementSeen (some (cycleAt 10000))).setRecord 0
    { NodeRecord.fresh with lastReport := some (.outlet true false false 0 0) })

theorem test_deck_nodes : ∀ i : Slot, (deck.node i).enabled = decide (i.val < 5) ∧
    (i.val < 5 → (deck.node i).address = if i.val = 3 then 200 else if i.val = 4 then 5 else i.val + 1) := by
  decide +kernel

/-! ## A state and operands that meet the hypotheses of each statement -/

theorem test_hyps_StepTakesTheFrontCommand :
    (State.reset.withPending [.sweepStart]).pending = .sweepStart :: [] ∧ State.reset.pending = [] := ⟨rfl, rfl⟩

theorem test_hyps_CommandsLeaveQueueAndTime : ∃ t, exec .sweepStart deck = .next t := ⟨_, rfl⟩

theorem test_hyps_AHeldPartStandsStill :
    Instr.sweepStart.ungated = false ∧ (deck.withPower { deck.power with resetPinLow := true }).running = false ∧
    (deck.withPower { deck.power with supply := false }).running = false := by decide +kernel

theorem test_hyps_PowerOnKeepsNothing :
    deck.now = State.reset.now ∧ deck.free = State.reset.free ∧ deck.pending = State.reset.pending := ⟨rfl, rfl, rfl⟩

theorem test_hyps_PowerPinAndPourClock :
    ((deck.withPourClock 4294967294).running = true ∧ (deck.withPourClock 4294967294).pourClock < 4294967295) ∧
    (deck.withPourClock 4294967295).running = true ∧ (deck.withPourClock 4294967295).pourClock = 4294967295 := by
  decide +kernel

theorem test_hyps_StepsKeepTheModeInvariant :
    (deck.withMode .climb).ModeInv ∧ ∃ t, step (deck.withMode .climb) = .next t := by
  refine ⟨⟨fun _ c _ => ?_, fun x hx => ?_⟩, ⟨_, rfl⟩⟩
  · cases c <;> decide +kernel
  · cases hx

/-- A segment whose queue holds `n` records, each 1 tm high. -/
def layered (n : Nat) : SegmentLive :=
  { SegmentLive.initial with
    top := n
    queue := (List.range n).map fun i =>
      { top := i + 1, placedAt := 0, litres := 1, source := .manual, descriptor := none, greenExited := false } }

theorem test_hyps_StepsKeepTheQueueForm :
    (deck.setWall 3 (layered 16)).WallInv ∧ ∃ t, step (deck.setWall 3 (layered 16)) = .next t := by
  refine ⟨⟨by decide +kernel, fun k => ?_⟩, ⟨_, rfl⟩⟩
  show ((deck.walls.write 3 (layered 16)).read k).Form 0
  rw [Laws.table_read_write]
  split
  · simp [SegmentLive.Form, layered, topsRise, timesRise, List.range_succ, SegmentLive.initial]
  · rw [show Table.read deck.walls k = SegmentLive.initial from Laws.table_read_const ..]
    exact ⟨by decide, rfl, trivial⟩

/-- R64: the pour clock at its greatest value, with a layer placed then, and a tick of it. -/
theorem test_hyps_StepsKeepTheQueueForm_clock :
    let s := (((deck.withPourClock 4294967295).setWall 0 { SegmentLive.initial with
      top := 1, queue := [{ top := 1, placedAt := 4294967295, litres := 1, source := .manual, descriptor := none
                            greenExited := false }] }).withPending [.pourClockTick])
    s.pourClock ≤ Config.max32 ∧ (s.wall 0).Form s.pourClock ∧ ∃ t, step s = .next t ∧ t.pourClock = 4294967295 := by
  refine ⟨by decide +kernel, ?_, _, rfl, by decide +kernel⟩
  exact ⟨by decide +kernel, ⟨by decide +kernel, by show _ = _; decide +kernel⟩, ⟨by decide +kernel, nofun, trivial⟩⟩

/-- The deck with both claims held by channel A in OPEN. -/
def claimed : State := ((channelIn .a .opened).setOutletClaim 0 (some .a)).setSegmentClaim 0 (some .a)

theorem test_hyps_StepsKeepTheClaims :
    claimed.ClaimInv ∧ claimed.outletClaim 0 = some .a ∧ ∃ t, step claimed = .next t := by
  refine ⟨⟨fun i c h => ?_, fun k c h => ?_⟩, by decide +kernel, ⟨_, rfl⟩⟩
  · have : ∀ i : Slot, ∀ c ∈ claimed.outletClaim i, c = .a ∧ i = 0 := by decide +kernel
    obtain ⟨rfl, rfl⟩ := this i c h
    exact ⟨copy, ⟨.inl rfl, rfl⟩, rfl⟩
  · have : ∀ k : SegmentIx, ∀ c ∈ (claimed.wall k).claim, c = .a ∧ k = 0 := by decide +kernel
    obtain ⟨rfl, rfl⟩ := this k c h
    exact ⟨copy, ⟨.inl rfl, rfl⟩, rfl⟩

/-- The deck with a reply queue. -/
def replying (q : List ReplyRecord) : State := deck.withConsole { deck.console with replies := q }

/-- The deck with staged edits and a commit pending or not. -/
def staging (es : List Edit) (commit : Bool) : State :=
  deck.withCommand { deck.command with staged := es, commitPending := commit }

theorem test_hyps_StepsKeepTheQueues :
    ((replying (List.replicate 15 (.commitDone 0 0 0) ++ [.overflow 255])).RepliesInv ∧
      ∃ t, step (replying (List.replicate 15 (.commitDone 0 0 0) ++ [.overflow 255])) = .next t) ∧
    (deck.ForwardInv ∧ ∃ t, step deck = .next t) ∧
    ((staging ((List.finRange 32).map fun i => .segment i SegmentEntry.initial) false).StagedInv ∧
      ∃ t, step (staging ((List.finRange 32).map fun i => .segment i SegmentEntry.initial) false) = .next t) := by
  refine ⟨⟨?_, _, rfl⟩, ⟨?_, _, rfl⟩, ⟨?_, _, rfl⟩⟩
  · unfold State.RepliesInv; decide +kernel
  · unfold State.ForwardInv; decide +kernel
  · unfold State.StagedInv; decide +kernel

/-- The deck with a request of a kind on the line. -/
def sendingOf (k : ExchangeKind) : State :=
  (deck.withRing (some (deck.requestFor k 1 0x01 []))).withPower { deck.power with ringDriver := true }

/-- The deck with the reply window of an exchange with a slot open until the moment 8. -/
def windowOf (k : ExchangeKind) (i : Slot) : State :=
  deck.withRing (some { deck.requestFor k i 0x01 [] with phase := .window 8 })

theorem test_hyps_StepsKeepTheDriverRule :
    (sendingOf (.sweepPoll 1)).DriverInv ∧ ∃ t, step (sendingOf (.sweepPoll 1)) = .next t :=
  ⟨fun _ => ⟨_, rfl, rfl⟩, _, rfl⟩

theorem test_hyps_ConsoleDecodeAfterEncode :
    ((Instr.relay 255 (List.replicate 238 0)).wf = true ∧ ∃ bs, encodeConsole (.relay 255 (List.replicate 238 0)) = some bs) ∧
    ((Instr.unknownCommand 0 20 []).wf = true ∧ ∃ bs, encodeConsole (.unknownCommand 0 20 []) = some bs) :=
  ⟨⟨by decide +kernel, _, rfl⟩, ⟨by decide, _, rfl⟩⟩

theorem test_hyps_ReceiverCollectsAFrame :
    ({ address := 0, kind := 0x22, payload := List.replicate 240 0 } : Envelope).payload.length ≤ 240 ∧
    ({ address := 0, kind := 0x22, payload := [] } : Envelope).payload.length ≤ 240 := by decide +kernel

/-! ### Console commands -/

theorem test_hyps_CommandsRestartTheSilenceTimer :
    (deck.condition .consoleSilent).source = false ∧ (Instr.status 0 []).command.isSome = true ∧ deck.running = true := by
  decide +kernel

theorem test_hyps_RejectedCommandsChangeNothing : deck.running = true ∧
    (knownCode 2 = true ∧ malformedArgs 2 [0, 128, 0] = true) ∧ (knownCode 1 = true ∧ malformedArgs 1 [0] = true) ∧
    malformedArgs 3 [] = true ∧ malformedArgs 10 [0] = true ∧ malformedArgs 11 [18] = true ∧
    malformedArgs 13 [4, 0, 0] = true ∧ malformedArgs 14 [1, 64] = true ∧ malformedArgs 15 [2] = true ∧
    malformedArgs 16 [0, 0x0F, 0xA1] = true ∧ malformedArgs 16 [0, 0, 0] = true ∧ malformedArgs 17 [0, 0, 0] = true ∧
    malformedArgs 18 [] = true ∧ (knownCode 19 = true ∧ malformedArgs 19 [0] = true) := by decide +kernel

theorem test_hyps_RepliesJoinTheQueue :
    ((List.replicate 14 (.commitDone 0 0 0) : List ReplyRecord).any ReplyRecord.isOverflow = false ∧
      (List.replicate 14 (.commitDone 0 0 0) : List ReplyRecord).length < 15) ∧
    ((List.replicate 15 (.commitDone 0 0 0) : List ReplyRecord).any ReplyRecord.isOverflow = false ∧
      (List.replicate 15 (.commitDone 0 0 0) : List ReplyRecord).length = 15) ∧
    ([] : List ReplyRecord).any ReplyRecord.isOverflow = false := by decide +kernel

theorem test_hyps_StatusReply : deck.running = true := by decide +kernel

theorem test_hyps_ReadReply : deck.running = true ∧ readTarget? 9 31 15 = some (.layer 31 15) ∧
    readTarget? 12 3 0 = some (.relay 3) ∧ readTarget? 15 127 0 = some (.cycleResult 127) ∧
    readTarget? 0 127 0 = some (.node 127) := by decide +kernel

/-- The edit of the tests: cycle_ms at its least value. -/
def oneEdit : Edit := .parameter 0 5000

theorem test_hyps_WriteStages : deck.running = true ∧ parseEdit [6, 0, 0, 0, 0x13, 0x88] = some oneEdit ∧
    (staging [] true).silenceReset.command.commitPending = true ∧
    ((staging [oneEdit] false).silenceReset.command.commitPending = false ∧
      ∃ x ∈ (staging [oneEdit] false).silenceReset.command.staged, x.key = oneEdit.key) ∧
    (let s := (staging ((List.finRange 31).map fun (i : Fin 31) => .segment (i.castLE (by decide)) SegmentEntry.initial) false).silenceReset
     s.command.commitPending = false ∧ (∀ x ∈ s.command.staged, x.key ≠ oneEdit.key) ∧ s.command.staged.length < 32) ∧
    (let s := (staging ((List.finRange 32).map fun i => .segment i SegmentEntry.initial) false).silenceReset
     s.command.commitPending = false ∧ (∀ x ∈ s.command.staged, x.key ≠ oneEdit.key) ∧ 32 ≤ s.command.staged.length) := by
  refine ⟨by decide +kernel, by decide +kernel, by decide +kernel, by decide +kernel, ?_, ?_⟩ <;> decide +kernel

theorem test_hyps_DiscardEmpties : deck.running = true ∧ (staging [] true).silenceReset.command.commitPending = true ∧
    (staging [oneEdit] false).silenceReset.command.commitPending = false := by decide +kernel

/-- The deck in CLIMB with an edit staged that keeps a jack's kind and address. -/
def restaged : State := (staging [.node 1 { jackAt 2 with strokeMax := some 300 }] false).withMode .climb

theorem test_restaged_nodes : ∀ i : Slot, (restaged.silenceReset.prospective.node i).enabled = decide (i.val < 5) ∧
    (i.val < 5 → (restaged.silenceReset.prospective.node i).address =
      if i.val = 3 then 200 else if i.val = 4 then 5 else i.val + 1) := by decide +kernel

theorem test_hyps_CommitIsTakenOrNamesAConflict : let u := restaged.silenceReset
    let p := u.prospective
    restaged.running = true ∧ (staging [] true).silenceReset.command.commitPending = true ∧
    u.command.commitPending = false ∧
    (∀ i j : Slot, (p.node i).enabled = true → (p.node j).enabled = true → (p.node i).address = (p.node j).address → i = j) ∧
    (∀ d : DescriptorIx, (p.descriptor d).enabled = true →
      (p.segment (p.descriptor d).segment).enabled = true ∧ (p.node (p.descriptor d).outlet).enabled = true ∧
      (p.node (p.descriptor d).outlet).kind = .outlet) ∧
    p.params.trimExit < p.params.trimBand ∧ p.params.trimBand < p.params.haltBand ∧
    p.params.strokeMs < p.params.cycleMs ∧ p.params.freeboard ≤ p.params.maxVoid ∧
    (u.mode = .climb ∨ u.mode = .trim ∨ u.mode = .hold → ∀ (i : Slot) (e : NodeEntry), .node i e ∈ u.command.staged →
      (u.node i).enabled = true → (u.node i).kind = .jack → e.enabled = true →
      e.kind = (u.node i).kind ∧ e.address = (u.node i).address) := by
  refine ⟨by decide +kernel, by decide +kernel, by decide +kernel, fun i j hi hj h => ?_, by decide +kernel,
    by decide +kernel, by decide +kernel, by decide +kernel, by decide +kernel, fun _ i e he _ _ _ => ?_⟩
  · obtain ⟨ei, ai⟩ := test_restaged_nodes i
    obtain ⟨ej, aj⟩ := test_restaged_nodes j
    rw [ei, decide_eq_true_eq] at hi
    rw [ej, decide_eq_true_eq] at hj
    rw [ai hi, aj hj] at h
    ext
    split at h <;> split at h <;> (try split at h) <;> (try split at h) <;> omega
  · rw [show restaged.silenceReset.command.staged = [.node 1 { jackAt 2 with strokeMax := some 300 }] from by
      decide +kernel] at he
    simp only [List.mem_singleton, Edit.node.injEq] at he
    obtain ⟨rfl, rfl⟩ := he
    decide +kernel

/-- The deck with the address of slot 3 staged for slot 4. -/
def clashing : State := staging [.node 4 { jackAt 200 with kind := .sensor }] false

theorem test_hyps_CommitIsTakenOrNamesAConflict_conflict : let u := clashing.silenceReset
    let p := u.prospective
    clashing.running = true ∧ u.command.commitPending = false ∧ (3 : Slot) < 4 ∧ (p.node 4).enabled = true ∧
    (p.node 3).enabled = true ∧ (p.node 3).address = (p.node 4).address ∧
    (∀ a b : Slot, a < 4 → b < a → (p.node a).enabled = true → (p.node b).enabled = true →
      (p.node b).address ≠ (p.node a).address) := by
  refine ⟨by decide +kernel, by decide +kernel, by decide, by decide +kernel, by decide +kernel, by decide +kernel,
    fun a b ha hb _ _ => ?_⟩
  have : ∀ x y : Fin 4, y < x → (clashing.silenceReset.prospective.node (y.castLE (by decide))).address ≠
      (clashing.silenceReset.prospective.node (x.castLE (by decide))).address := by decide +kernel
  exact this ⟨a.val, ha⟩ ⟨b.val, Nat.lt_trans hb ha⟩ hb

theorem test_hyps_StartEntersClimbOrHold : let u := deck.silenceReset
    deck.running = true ∧ u.mode = .idle ∧ (∀ c : Cond, c.cls = .halt → (u.condition c).state = .idle) ∧
    u.params.minJacks ≤ allSlots.countP u.isJack ∧ (∃ k, (u.segment k).enabled = true) ∧
    u.command.commitPending = false ∧ (∀ c : Cond, c.cls = .hold → (u.condition c).state = .idle) ∧
    ((withCond deck .greenExit stands).silenceReset.condition .greenExit).state ≠ .idle := by
  refine ⟨by decide +kernel, by decide +kernel, ?_, by decide +kernel, ⟨0, by decide +kernel⟩, by decide +kernel, ?_,
    by decide +kernel⟩ <;> intro c <;> cases c <;> decide +kernel

theorem test_hyps_StartWithoutAChange :
    ((deck.withMode .halt).running = true ∧ (deck.withMode .halt).silenceReset.mode ≠ .idle) ∧
    ((withCond deck .ringDown stands).silenceReset.condition .ringDown).state ≠ .idle ∧
    (deck.withParams (deck.params.set 7 4)).silenceReset.params.minJacks = 4 ∧
    allSlots.countP (deck.withParams (deck.params.set 7 4)).silenceReset.isJack < 4 ∧
    (∀ k, (State.reset.silenceReset.segment k).enabled = false) ∧
    (∀ e ∈ [jackAt 9, { jackAt 9 with enabled := false }, { jackAt 1 with kind := .sensor, enabled := false }],
      let u := (staging [.node 1 e] true).silenceReset
      u.command.commitPending = true ∧ .node 1 e ∈ u.command.staged ∧ (u.node 1).enabled = true ∧
      (u.node 1).kind = .jack ∧ ¬ (e.kind = .jack ∧ e.address = (u.node 1).address)) := by decide +kernel

theorem test_hyps_StopEntersIdle : deck.running = true ∧ deck.silenceReset.mode = .idle ∧
    (deck.withMode .climb).silenceReset.mode ≠ .idle := by decide +kernel

/-- The deck in HOLD with MANUAL_HOLD standing and nothing else. -/
def holding : State := withCond (deck.withMode .hold) .manualHold stands

theorem test_hyps_HoldAndRelease : deck.running = true ∧ (holding.silenceReset.condition .manualHold).source = true ∧
    (deck.silenceReset.condition .manualHold).source = false ∧
    ((holding.silenceReset.condition .manualHold).state ≠ .idle ∧ holding.silenceReset.mode = .hold ∧
      (∀ c : Cond, c.cls = .hold ∨ c.cls = .halt → c ≠ .manualHold → (holding.silenceReset.condition c).state = .idle)) ∧
    (deck.silenceReset.condition .manualHold).state = .idle ∧
    ((withCond holding .greenExit stands).silenceReset.condition .greenExit).state ≠ .idle := by
  refine ⟨by decide +kernel, by decide +kernel, by decide +kernel, ⟨by decide +kernel, by decide +kernel, ?_⟩,
    by decide +kernel, by decide +kernel⟩
  intro c; cases c <;> decide +kernel

theorem test_hyps_SetRateAndSetUser : deck.running = true ∧ 65535 < 65536 ∧ 0 < 65536 := by decide +kernel

theorem test_hyps_AckAcknowledges : deck.running = true ∧ (deck.silenceReset.condition .greenExit).state = .idle ∧
    ((withCond deck .greenExit stands).silenceReset.condition .greenExit).state ≠ .idle ∧
    (withCond deck .greenExit stands).silenceReset.mode ≠ .hold := by decide +kernel

theorem test_hyps_PollAndMask : deck.running = true ∧
    (let u := (withCond deck .nodeLost stands).silenceReset
     (u.condition .nodeLost).state ≠ .idle ∧ u.isMasked .nodeLost = false ∧
     (∀ d : Cond, d.num < Cond.nodeLost.num → (u.condition d).state = .idle ∨ u.isMasked d = true)) ∧
    (∀ d : Cond, (deck.silenceReset.condition d).state = .idle ∨ deck.silenceReset.isMasked d = true) ∧
    (3 : Byte).toNat ≤ 3 := by
  refine ⟨by decide +kernel, ⟨by decide +kernel, by decide +kernel, ?_⟩, ?_, by decide⟩ <;>
    intro d <;> cases d <;> decide +kernel

/-! ### Feed, PLACE, RELAY, RESTART -/

theorem test_hyps_FeedStartLoads : deck.running = true ∧ (deck.withMode .halt).silenceReset.mode = .halt ∧
    deck.silenceReset.mode ≠ .halt ∧
    (∀ x ∈ [ChannelState.wait, .opened, .closing, .paused],
      ((channelIn .b x).silenceReset.channel .b).state = x) ∧
    ((deck.silenceReset.channel .b).state = .idle ∧ (deck.silenceReset.descriptor 63).enabled = false) ∧
    ((deck.silenceReset.descriptor 0).enabled = true ∧ (acceptsAll deck).silenceReset.blockFor .b copy = .none ∧
      deck.silenceReset.blockFor .b copy = .noRef) := by decide +kernel

theorem test_hyps_FeedStopStops : ∀ x ∈ [ChannelState.idle, .wait, .opened, .closing, .paused, .done, .stopped],
    (channelIn .a x).running = true ∧ ((channelIn .a x).silenceReset.channel .a).state = x ∧
    ((channelIn .a x).silenceReset.channel .a).working = some copy := by decide +kernel

/-- The deck with its segment's area and queue. -/
def walled (area n : Nat) : State :=
  (deck.withSegments (deck.segments.write 0 { enabled := true, area := area, startTop := 0 })).setWall 0 (layered n)

theorem test_form_layered : (layered 15).Form 0 ∧ (layered 16).Form 0 := by
  constructor <;> simp [SegmentLive.Form, layered, topsRise, timesRise, List.range_succ, SegmentLive.initial]

theorem test_hyps_PlaceTurnsLitresIntoHeight : deck.running = true ∧ (1 ≤ 1 ∧ 1 ≤ 4000) ∧ (1 ≤ 4000 ∧ 4000 ≤ 4000) ∧
    (deck.silenceReset.segment 31).enabled = false ∧
    (∀ n ∈ [15, 16], ((walled 100 n).silenceReset.segment 0).enabled = true ∧
      (walled 100 n).silenceReset.wall 0 = layered n ∧ (walled 100 n).silenceReset.pourClock = 0 ∧
      0 < min ((1 * 100000 + ((walled 100 n).silenceReset.wall 0).remainder) / 100)
        (16777215 - ((walled 100 n).silenceReset.wall 0).top) ∧ ((layered n).queue.length < 16 ↔ n = 15)) ∧
    (∃ l, (layered 16).queue.getLast? = some l) ∧
    min ((1 * 100000 + ((walled 200000 16).silenceReset.wall 0).remainder) / 200000)
      (16777215 - ((walled 200000 16).silenceReset.wall 0).top) = 0 ∧
    (∀ c, ((walled 100 16).silenceReset.channel c).working = none) := by
  refine ⟨by decide +kernel, by decide, by decide, by decide +kernel, by decide +kernel, ⟨_, rfl⟩, by decide +kernel, ?_⟩
  intro c; cases c <;> decide +kernel

/-- An occupied relay slot. -/
def relayIn (tag : Nat) (x : RelayState) : RelaySlot :=
  { tag := tag, target := 0, payload := [1], state := x, queuedAt := 0
    result := if x = .done then some [5] else none, completion := if x = .queued ∨ x = .inFlight then none else some 0 }

/-- The deck with relay slots occupied from the lowest, their tags 1, 2 and so on. -/
def relaying (xs : List RelayState) : State :=
  deck.withRelays { deck.relays with slots := Table.tabulate fun i => (xs[i.val]?).map (relayIn (i.val + 1)) }

theorem test_hyps_RelayIsQueued : deck.running = true ∧ (255 : Byte) ≠ 0 ∧ (List.replicate 64 (0 : Byte)).length ≤ 64 ∧
    (∀ s ∈ [deck, relaying [.queued, .done, .failed], relaying [.queued, .done, .failed, .inFlight]],
      ∀ i, ∀ x ∈ s.silenceReset.relaySlot i, x.tag ≠ (255 : Byte).toNat) ∧
    List.replicate 64 (0 : Byte) ≠ [] ∧ (deck.silenceReset.node 127).enabled = false ∧
    (((deck.withMode .trim).silenceReset.node 1).enabled = true ∧
      ((deck.withMode .trim).silenceReset.node 1).kind = .jack ∧ (deck.withMode .trim).silenceReset.mode = .trim) ∧
    (((deck.silenceReset.node 0).enabled = true ∧ (deck.silenceReset.node 0).kind ≠ .jack)) ∧
    (∀ i, (relaying [.queued, .done, .failed, .inFlight]).silenceReset.relaySlot i ≠ none) ∧
    ((relaying [.queued, .done, .failed]).silenceReset.relaySlot 3 = none ∧
      ∀ j, j < 3 → (relaying [.queued, .done, .failed]).silenceReset.relaySlot j ≠ none) := by decide +kernel

theorem test_hyps_RelayIsCollected : let s := relaying [.queued, .inFlight, .failed, .done]
    s.running = true ∧ (4 : Byte) ≠ 0 ∧
    (∀ i : RelayIx, ∃ x, s.silenceReset.relaySlot i = some x ∧ x.tag = i.val + 1 ∧
      (∀ j y, s.silenceReset.relaySlot j = some y → y.tag = x.tag → j = i)) ∧
    (∀ i : RelayIx, s.silenceReset.relaySlot i = some (relayIn (i.val + 1)
      (if i = 0 then .queued else if i = 1 then .inFlight else if i = 2 then .failed else .done))) := by
  have h : ∀ i : RelayIx, (relaying [.queued, .inFlight, .failed, .done]).silenceReset.relaySlot i =
      some (relayIn (i.val + 1)
        (if i = 0 then .queued else if i = 1 then .inFlight else if i = 2 then .failed else .done)) := by decide +kernel
  refine ⟨by decide +kernel, by decide, fun i => ⟨_, h i, rfl, fun j y hy ht => ?_⟩, h⟩
  rw [h j, Option.some.injEq] at hy
  subst hy
  exact Fin.ext (Nat.succ.inj ht)

theorem test_hyps_RestartKeepsAndResets : claimed.running = true ∧ (claimed.channel .a).state = .opened ∧
    (claimed.channel .a).working = some copy ∧ (claimed.node 3).enabled = true ∧ (claimed.node 5).enabled = false ∧
    (∀ c, (claimed.channel c).state = .opened ∨ (claimed.channel c).state = .closing → (claimed.channel c).delivered = 0) := by
  refine ⟨by decide +kernel, by decide +kernel, by decide +kernel, by decide +kernel, by decide +kernel, ?_⟩
  intro c; cases c <;> decide +kernel

/-! ### The ring -/

/-- R12: a start with no enabled slot that is late, and one that is not, raises CYCLE_LATE and does not; the computation
leaves it. -/
theorem test_empty_sweep_is_late :
    let count (n : Nat) : Option (CondState × Nat) := match exec .sweepStart (State.reset.withNow n) with
      | .next t => some ((t.condition .cycleLate).state, (t.condition .cycleLate).count)
      | _ => none
    State.reset.params.cycleMs / 4 = 5000 ∧ count 5000 = some (.idle, 0) ∧ count 5001 = some (.uncleared, 1) := by decide +kernel

theorem test_hyps_SweepStarts : (∀ s ∈ [deck.withNow 5000, deck.withNow 5001, State.reset], s.running = true ∧ s.ring = none ∧
      s.sweep.running = false ∧ s.sweep.dueAt ≤ s.now ∧ s.dispatch.state = .idle ∧ s.transit.dispatchResults = []) ∧
    (allSlots.filter fun i => (deck.node i).enabled) ≠ [] ∧
    (allSlots.filter fun i => (State.reset.node i).enabled) = [] ∧
    (deck.withNow 5000).now - (deck.withNow 5000).sweep.dueAt ≤ deck.params.cycleMs / 4 ∧
    deck.params.cycleMs / 4 < (deck.withNow 5001).now - (deck.withNow 5001).sweep.dueAt ∧
    State.reset.params.cycleMs / 4 < (State.reset.withNow 5001).now - (State.reset.withNow 5001).sweep.dueAt := by
  decide +kernel

/-- The deck at a moment, with the next sweep due a millisecond later. -/
def calm : State := deck.withSweep { deck.sweep with dueAt := 1 }

/-- The deck with a poll of the outlet due. -/
def pollDue : State := calm.setRecord 0 { NodeRecord.fresh with pollDue := some 0 }

theorem test_hyps_PollsBegin :
    (let s := deck.withSweep { deck.sweep with running := true, cursor := some 3 }
     s.running = true ∧ s.ring = none ∧ s.sweep.running = true ∧ s.sweep.cursor = some 3) ∧
    (pollDue.running = true ∧ pollDue.ring = none ∧ ¬ pollDue.SweepServes ∧ ¬ pollDue.DispatchServes ∧
      pollDue.feed.waiting = [] ∧ (pollDue.node 0).enabled = true ∧ (pollDue.record 0).pollDue = some 0 ∧
      0 ≤ pollDue.now ∧
      (∀ (j : Slot) (e : Nat), (pollDue.node j).enabled = true → (pollDue.record j).pollDue = some e → e ≤ pollDue.now →
        0 < e ∨ (0 = e ∧ 0 ≤ j))) := by
  refine ⟨by decide +kernel, by decide +kernel, by decide +kernel, by decide +kernel, by decide +kernel, by decide +kernel,
    by decide +kernel, by decide +kernel, by decide, fun j e _ _ _ => ?_⟩
  rcases Nat.eq_zero_or_pos e with h | h
  · exact .inr ⟨h.symm, Fin.zero_le j⟩
  · exact .inl h

/-- The deck in TRIM with a dispatch of two entries in a state. -/
def dispatching (x : DispatchState) : State :=
  (deck.withMode .trim).withDispatch {
    state := x, tag := some 1
    entries := [{ slot := 1, demand := 3, outcome := .pending }, { slot := 3, demand := 4, outcome := .acked }]
    cursor := some 1, windowEndsAt := some 8000 }

theorem test_hyps_DispatchRequestsBegin : (∀ x ∈ [DispatchState.demanding, .goReady], (dispatching x).running = true ∧
      (dispatching x).ring = none ∧ ¬ (dispatching x).SweepServes ∧ (dispatching x).mode = .trim ∧
      (dispatching x).transit.dispatchModes = [] ∧ (dispatching x).dispatch.tag = some 1 ∧
      (dispatching x).dispatch.state = x) ∧
    (∃ e ∈ (dispatching .demanding).dispatch.entries, (dispatching .demanding).dispatch.cursor = some e.slot ∧
      ∀ x ∈ (dispatching .demanding).dispatch.entries, x.slot = e.slot → x = e) := by decide +kernel

/-- A waiting exchange. -/
def waits (c : Channel) (isOpen : Bool) (since : Nat) : FeedExchange :=
  { isOpen := isOpen, channel := c, slot := 0, tag := 7, litres := 10, stray := false, since := since }

/-- The calm deck with exchanges waiting. -/
def queued (xs : List FeedExchange) : State := calm.withFeed { calm.feed with waiting := xs }

theorem test_hyps_FeedAndRelayExchangesBegin :
    (∀ o ∈ [true, false], let s := queued ([waits .b true 0] ++ waits .a o 0 :: [waits .b false 0])
      s.running = true ∧ s.ring = none ∧ ¬ s.SweepServes ∧ ¬ s.DispatchServes ∧
      s.feed.waiting = [waits .b true 0] ++ waits .a o 0 :: [waits .b false 0] ∧
      (∀ y ∈ [waits .b true 0], (waits .a o 0).since < y.since ∨
        ((waits .a o 0).since = y.since ∧ (waits .a o 0).channel = .a ∧ y.channel = .b)) ∧
      (∀ y ∈ [waits .b false 0], (waits .a o 0).since < y.since ∨
        ((waits .a o 0).since = y.since ∧ ((waits .a o 0).channel = .a ∨ y.channel = .b))) ∧
      (waits .a o 0).isOpen = o) ∧
    (let s := calm.withRelays (relaying [.done, .queued]).relays
     s.running = true ∧ s.ring = none ∧ ¬ s.SweepServes ∧ ¬ s.DispatchServes ∧ s.feed.waiting = [] ∧
     ¬ s.PollServes ∧ s.relaySlot 1 = some (relayIn 2 .queued) ∧ s.RelayServes 1 ∧
     (∀ j y, s.relaySlot j = some y → s.RelayServes j →
       (relayIn 2 .queued).queuedAt < y.queuedAt ∨ ((relayIn 2 .queued).queuedAt = y.queuedAt ∧ 1 ≤ j))) := by
  refine ⟨fun o ho => ?_, ⟨by decide +kernel, by decide +kernel, by decide +kernel, by decide +kernel, by decide +kernel,
    by decide +kernel, by decide +kernel, by decide +kernel, ?_⟩⟩
  · simp only [List.mem_cons, List.not_mem_nil, or_false] at ho
    rcases ho with rfl | rfl <;>
      exact ⟨by decide +kernel, by decide +kernel, by decide +kernel, by decide +kernel, by decide +kernel, by decide,
        by decide, by decide⟩
  · have h : ∀ j : RelayIx, ∀ y ∈ (calm.withRelays (relaying [.done, .queued]).relays).relaySlot j,
        (calm.withRelays (relaying [.done, .queued]).relays).RelayServes j →
        (relayIn 2 .queued).queuedAt < y.queuedAt ∨ ((relayIn 2 .queued).queuedAt = y.queuedAt ∧ 1 ≤ j) := by
      decide +kernel
    exact fun j y => h j y

theorem test_hyps_RequestFramesLeave :
    ((sendingOf (.sweepPoll 1)).running = true ∧ ∃ x, (sendingOf (.sweepPoll 1)).ring = some x ∧ x.phase = .sending ∧
      x.kind ≠ .go) ∧
    (∀ d ∈ [DispatchState.goReady, .idle], let s := ((sendingOf .go).withDispatch (dispatching d).dispatch).withMode .trim
      s.mode = .trim ∧ s.transit.dispatchModes = [] ∧ s.running = true ∧ (∃ x ∈ s.ring, x.phase = .sending ∧ x.kind = .go ∧ x.discarded = false) ∧ s.dispatch.state = d ∧
      (∀ e ∈ s.dispatch.entries, ∀ y ∈ s.dispatch.entries, y.slot = e.slot → y = e) ∧
      (∀ e ∈ s.dispatch.entries, e.slot ≠ 0)) :=
  ⟨⟨by decide +kernel, _, rfl, rfl, by decide⟩, by
    intro d hd
    simp only [List.mem_cons, List.not_mem_nil, or_false] at hd
    rcases hd with rfl | rfl <;>
      exact ⟨by decide +kernel, by decide +kernel, by decide +kernel, ⟨_, rfl, rfl, rfl, rfl⟩, by decide +kernel,
        by decide +kernel, by decide +kernel⟩⟩

theorem test_hyps_ReportUpdatesTheRecord :
    (let s := windowOf (.outletPoll 4) 4
     s.running = true ∧ (∃ x, s.ring = some x ∧ x.phase = .window 8 ∧ (5 : Byte).toNat = x.address ∧ x.discarded = false ∧
       x.kind = .outletPoll 4) ∧ (s.withNow 8).now ≤ 8 ∧
     (Report.sensor 1 false).SpelledBy (s.node 4).kind [0, 1, 0] ∧ (s.node 4).kind ≠ .jack ∧ (s.node 4).kind ≠ .outlet) ∧
    (let s := (windowOf (.sweepPoll 1) 1).withSweep { deck.sweep with running := true, cursor := some 1, polled := [1, 2] }
     s.running = true ∧ (∃ x, s.ring = some x ∧ x.phase = .window 8 ∧ (2 : Byte).toNat = x.address ∧ x.discarded = false ∧
       x.kind = .sweepPoll 1) ∧ s.now ≤ 8 ∧ (∃ j ∈ s.sweep.polled, (1 : Slot) < j) ∧
     (Report.jack 9 0 true).SpelledBy (s.node 1).kind [0, 0, 9, 0, 1]) :=
  ⟨⟨by decide +kernel, ⟨_, rfl, rfl, by decide +kernel, rfl, rfl⟩, by decide +kernel,
    (Laws.parseReport_iff ..).1 (by decide +kernel), by decide +kernel, by decide +kernel⟩,
    ⟨by decide +kernel, ⟨_, rfl, rfl, by decide +kernel, rfl, rfl⟩, by decide +kernel, by decide +kernel,
      (Laws.parseReport_iff ..).1 (by decide +kernel)⟩⟩

/-- The deck with the expectation of slot 1: a demand of 100, confirmed or not. -/
def expecting (confirmed : Bool) : State := deck.setExpectation 1 (some { tag := 1, demand := 100, confirmed := confirmed })

/-- Heights at the edges of the three outcomes: slip_tol 20, over_tol 30 and short_tol 30 about a demand of 100. -/
theorem test_hyps_StrokesAreVerified :
    ((979 : Nat) : Int) - (1000 : Nat) < -(deck.params.slipTol : Int) ∧
    (-((expecting true).params.slipTol : Int) ≤ ((1131 : Nat) : Int) - (1000 : Nat) ∧
      ((((expecting true).expectation 1).map Expectation.demand).getD 0 : Int) + (expecting true).params.overTol <
        ((1131 : Nat) : Int) - (1000 : Nat)) ∧
    (((1130 : Nat) : Int) - (1000 : Nat) ≤
      ((((expecting true).expectation 1).map Expectation.demand).getD 0 : Int) + (expecting true).params.overTol) ∧
    (((1069 : Nat) : Int) - (1000 : Nat) <
      ((((expecting true).expectation 1).map Expectation.demand).getD 0 : Int) - (expecting true).params.shortTol) ∧
    (((((expecting true).expectation 1).map Expectation.demand).getD 0 : Int) - (expecting true).params.shortTol ≤
      ((1070 : Nat) : Int) - (1000 : Nat)) ∧
    (∀ b ∈ [true, false], (expecting b).expectation 1 = some { tag := 1, demand := 100, confirmed := b }) ∧
    deck.expectation 1 = none := by decide +kernel

/-- The deck with monitor 7 on slot 4: level 100, hysteresis 10. -/
def watching (d : Direction) : State :=
  let e : MonitorEntry := {
    enabled := true, sensor := 4, direction := d, levels := Table.const 4 100, select := 3, hysteresis := 10, cls := .hold }
  deck.withMonitors { deck.monitors with entries := deck.monitors.entries.write 7 e }

theorem test_hyps_MonitorsJudge : (∀ d ∈ [Direction.rising, .falling], ((watching d).monitor 7).enabled = true ∧
      ((watching d).monitor 7).sensor = 4 ∧ ((watching d).monitor 7).direction = d ∧
      ((watching d).monitor 7).levels.read ((watching d).monitor 7).select = 100 ∧
      ((watching d).monitor 7).hysteresis = 10) ∧
    ((watching .rising).monitor 6).enabled = false ∧ (100 : Int) ≤ 100 ∧ (89 : Int) < 100 - 10 ∧ (100 : Int) - 10 ≤ 90 ∧
    (100 : Int) + 10 < 111 ∧ (110 : Int) ≤ 100 + 10 := by decide +kernel

/-- The window of an exchange with a slot whose record is ACTIVE, with a dispatch that demands of it. -/
def ackable (k : ExchangeKind) (i : Slot) : State :=
  ((windowOf k i).setRecord i NodeRecord.fresh).withDispatch (dispatching .demanding).dispatch

theorem test_hyps_AcksEndExchanges :
    (∀ p ∈ [(ExchangeKind.demand 1, (1 : Slot), (2 : Byte)), (.openOutlet .a 0 7, 0, 1), (.closeOutlet .a 0 7 false, 0, 1)],
      (ackable p.1 p.2.1).running = true ∧ (∃ x ∈ (ackable p.1 p.2.1).ring, x.phase = .window 8 ∧
        p.2.2.toNat = x.address ∧ x.discarded = false ∧ x.kind = p.1) ∧ ((ackable p.1 p.2.1).withNow 8).now ≤ 8 ∧
      ((ackable p.1 p.2.1).record p.2.1).state = .active) ∧
    ((ackable (.demand 1) 1).dispatch.state = .demanding ∧ (ackable (.demand 1) 1).dispatch.cursor = some 1 ∧
      ∃ before n after, (ackable (.demand 1) 1).dispatch.entries = before ++ n :: after ∧ (1 : Slot) < n.slot ∧
        ∀ y ∈ before, y.slot ≤ 1) ∧
    (∀ x ∈ [ChannelState.opened, .closing], ((channelIn .a x).channel .a).tag = 7 ∧
      ((channelIn .a x).channel .a).openConfirmed = false ∧ ((channelIn .a x).channel .a).working = some copy ∧
      ((channelIn .a x).channel .a).state = x) := by
  refine ⟨?_, ⟨by decide +kernel, by decide +kernel, [{ slot := 1, demand := 3, outcome := .pending }],
    { slot := 3, demand := 4, outcome := .acked }, [], by decide +kernel, by decide, by decide⟩, by decide +kernel⟩
  intro p hp
  simp only [List.mem_cons, List.not_mem_nil, or_false] at hp
  rcases hp with rfl | rfl | rfl <;>
    exact ⟨by decide +kernel, ⟨_, rfl, rfl, by decide +kernel, rfl, rfl⟩, by decide +kernel, by decide +kernel⟩

/-- The last entry's DEMAND is acknowledged. -/
theorem test_hyps_AcksEndTheLastDemand : (∃ e ∈ (dispatching .demanding).dispatch.entries, e.slot = 3) ∧
    (∀ e ∈ (dispatching .demanding).dispatch.entries, e.slot ≤ 3) := by decide +kernel

/-- The window of a relay to the outlet, the relay's slot IN_FLIGHT. -/
def relayWindow : State :=
  (windowOf (.relay 3 0 4) 0).withRelays (relaying [.queued, .queued, .queued, .inFlight]).relays

theorem test_hyps_RelayRepliesAndDiscards : let s := relayWindow
    s.running = true ∧ (∃ x, s.ring = some x ∧ x.phase = .window 8 ∧ (1 : Byte).toNat = x.address ∧ x.discarded = false ∧
      x.kind = .relay 3 0 4) ∧ s.now ≤ 8 ∧ (List.replicate 64 (0 : Byte)).length ≤ 64 ∧
    s.relaySlot 3 = some (relayIn 4 .inFlight) :=
  ⟨by decide +kernel, ⟨_, rfl, rfl, by decide +kernel, rfl, rfl⟩, by decide +kernel, by decide, by decide +kernel⟩

/-- A window that has ended, of an attempt that is the retry or not, void or not. -/
def silent (k : ExchangeKind) (i : Slot) (retry discarded : Bool) : State :=
  (deck.withNow 8).withRing (some { deck.requestFor k i 0x01 [] with
    phase := .window 8, retry := retry, discarded := discarded })

theorem test_hyps_SilenceIsRetriedThenMissed :
    (∀ p ∈ [(false, true), (false, false), (true, false)], (silent (.outletPoll 0) 0 p.1 p.2).running = true ∧
      (∃ x ∈ (silent (.outletPoll 0) 0 p.1 p.2).ring, x.phase = .window 8 ∧ x.retry = p.1 ∧ x.discarded = p.2 ∧
        x.kind = .outletPoll 0) ∧ 8 ≤ (silent (.outletPoll 0) 0 p.1 p.2).now) ∧
    (let s := (silent (.outletPoll 0) 0 true false).setRecord 0 { NodeRecord.fresh with state := .stale, missCount := 1 }
     (s.record 0).state = .stale ∧ (s.record 0).missCount + 1 < s.params.missLimit ∧ (s.record 0).missCount < 15) ∧
    ((silent (.relay 0 0 1) 0 true false).withRelays (relaying [.inFlight]).relays).relaySlot 0 =
      some (relayIn 1 .inFlight) := by
  refine ⟨?_, by decide +kernel, by decide +kernel⟩
  intro p hp
  simp only [List.mem_cons, List.not_mem_nil, or_false] at hp
  rcases hp with rfl | rfl | rfl <;> exact ⟨by decide +kernel, ⟨_, rfl, rfl, rfl, rfl, rfl⟩, by decide +kernel⟩

/-! ### Timers -/

/-- The deck with a change to channel A's context in a state. -/
def channelWith (x : ChannelState) (f : ChannelContext → ChannelContext) : State :=
  deck.setChannel .a (f ((channelIn .a x).channel .a))

theorem test_hyps_PlainTimersExpire :
    (let s := ((deck.withMode .hold).withNow 10000).withConsole
      { deck.console with silence := { latestValid := 0, evaluated := true } }
     s.running = true ∧ s.console.silence.latestValid + s.params.silenceMs ≤ s.now ∧ s.console.silence.evaluated = true ∧
     s.mode = .hold ∧ (s.condition .consoleSilent).source = false ∧ (s.condition .consoleSilent).state = .idle) ∧
    (((dispatching .window).withNow 8000).dispatch.state = .window ∧
      ((dispatching .window).withNow 8000).dispatch.windowEndsAt = some 8000 ∧
      8000 ≤ ((dispatching .window).withNow 8000).now) ∧
    (((relaying [.done]).withNow 30000).relaySlot 0 = some (relayIn 1 .done) ∧ (relayIn 1 .done).completion = some 0 ∧
      0 + 30000 ≤ ((relaying [.done]).withNow 30000).now) := by decide +kernel

theorem test_hyps_FeedTimersExpire :
    (let s := channelWith .opened fun x => { x with dwellEndsAt := some 0 }
     s.running = true ∧ (s.channel .a).working = some copy ∧ (s.channel .a).state = .opened ∧
     (s.channel .a).dwellEndsAt = some 0 ∧ 0 ≤ s.now) ∧
    (let s := channelWith .paused fun x => { x with pause := some { endsAt := 0, kind := .resume } }
     (s.channel .a).state = .paused ∧ (s.channel .a).pause = some { endsAt := 0, kind := .resume } ∧
     (s.channel .a).void = false ∧ s.blockFor .a copy = .noRef ∧ (acceptsAll s).blockFor .a copy = .none) ∧
    (let s := channelWith .wait fun x => { x with blockReason := .noRef, blockTimer := some 0 }
     (s.channel .a).state = .wait ∧ (s.channel .a).blockTimer = some 0 ∧ (s.channel .a).void = false ∧
     s.blockFor .a copy = (s.channel .a).blockReason ∧ (s.channel .a).blockReason ≠ .none ∧
     (s.channel .a).blockReason ≠ .segmentFull ∧ (s.condition .feedJam).source = false) := by decide +kernel

/-! ### Arrivals -/

/-- The deck in a mode with a cycle result on its way to four blocks and a change of mode on its way to six. -/
def handing (mode : RiseMode) (r : CycleResult) (m : ModeChange) : State :=
  (deck.withMode mode).withTransit {
    dispatchResults := [r], retirements := [], placementResults := [r], markerResults := [r], feedResults := [r]
    spreadSwitches := [{ leaves := .climb, enters := .trim }], sweepModes := [m], dispatchModes := [m], rateModes := [m]
    feedModes := [m], silenceModes := [m], relayModes := [m] }

/-- A change of mode at the moment 0. -/
def change (old new : RiseMode) : ModeChange := { old := old, new := new, moment := 0 }

theorem test_hyps_DispatcherArrivals : let s := handing .climb (cycleAt 10000) (change .climb .halt)
    s.running = true ∧ s.transit.dispatchResults = cycleAt 10000 :: [] ∧ s.dispatch.state = .idle ∧ s.mode = .climb ∧
    (((cycleAt 10000).demands.filter fun d => decide (0 < d.demand)).map fun d =>
      ({ slot := d.slot, demand := d.demand, outcome := .pending } : DispatchEntry)) =
        { slot := 2, demand := 1, outcome := .pending } :: [] ∧
    (dispatching .window).dispatch.state ≠ .idle ∧ s.transit.dispatchModes = change .climb .halt :: [] ∧
    (change .climb .halt).new ≠ .climb ∧ (change .climb .halt).new ≠ .trim ∧
    (dispatching .demanding).dispatch.state = .demanding := by decide +kernel

theorem test_hyps_PlacementResultRetires : let s := (handing .climb (cycleAt 12003) (change .idle .climb)).setWall 0 (layered 4)
    s.running = true ∧ s.transit.placementResults = cycleAt 12003 :: [] ∧ (cycleAt 12003).bottom = some 3 ∧
    (s.segment 0).enabled = true ∧ (s.segment 1).enabled = false ∧
    ((s.wall 0).queue.takeWhile fun l => decide ((l.top : Int) ≤ 3)).length = 3 ∧
    ((s.wall 0).queue.drop 3)[0]?.map Layer.top = some 4 ∧ ({ cycleAt 0 with bottom := none } : CycleResult).bottom = none := by
  decide +kernel

/-- A deck whose marker 23 stands at the H_ref of a cycle result that is handed, with an action. -/
def marked (a : MarkerAction) : State :=
  let s := handing .climb (cycleAt 10000) (change .idle .climb)
  s.withMarkers { s.markers with entries := s.markers.entries.write 23 { enabled := true, height := 10000, action := a } }

theorem test_hyps_MarkersFire : ∀ a ∈ [MarkerAction.hold, .rate 6000, .feedStop .b],
    (marked a).running = true ∧ (marked a).transit.markerResults = cycleAt 10000 :: [] ∧
    (cycleAt 10000).previousHRef = some 0 ∧ (cycleAt 10000).hRef = some 10000 ∧ ((marked a).marker 23).enabled = true ∧
    (marked a).markers.spent.read 23 = false ∧ (0 : Int) < (((marked a).marker 23).height : Int) ∧
    (((marked a).marker 23).height : Int) ≤ 10000 ∧ ((marked a).marker 23).action = a ∧
    (∀ m : MarkerIx, m ≠ 23 → ((marked a).marker m).enabled = false) := by decide +kernel

/-- The deck in CLIMB with channel B in a state, and three markers that cross at one result: a HOLD above a FEED_STOP and,
at the same height, a RATE. -/
def markedThrice (x : ChannelState) : State :=
  let s := handing .climb (cycleAt 10000) (change .idle .climb)
  let s := s.setChannel .b { s.channel .b with state := x, working := some copy, openConfirmed := true }
  s.withMarkers { s.markers with entries := ((s.markers.entries.write 0 { enabled := true, height := 9, action := .hold }).write
    3 { enabled := true, height := 5, action := .feedStop .b }).write 2 { enabled := true, height := 5, action := .rate 7 } }

theorem test_hyps_MarkersFire_several : ∀ x ∈ [ChannelState.opened, .closing, .wait, .paused],
    (markedThrice x).running = true ∧ (markedThrice x).transit.markerResults = cycleAt 10000 :: [] ∧
    ((markedThrice x).channel .b).state = x ∧ ((markedThrice x).condition .markerHold).state = .idle ∧
    (markedThrice x).mode = .climb ∧
    (∀ m ∈ [(0 : MarkerIx), 2, 3], ((markedThrice x).marker m).enabled = true ∧
      (markedThrice x).markers.spent.read m = false ∧ (0 : Int) < (((markedThrice x).marker m).height : Int) ∧
      (((markedThrice x).marker m).height : Int) ≤ 10000) := by decide +kernel

/-- The FEED_STOP marker that fires last, with the HOLD marker that fires after it. -/
theorem test_hyps_MarkersFire_jam : ∃ before m after c, [(2 : MarkerIx), 3, 0] = before ++ m :: after ∧
    ((markedThrice .wait).marker m).action = .feedStop c ∧
    ∀ n ∈ after, ∀ d, ((markedThrice .wait).marker n).action ≠ .feedStop d := by
  refine ⟨[2], 3, [0], .b, rfl, by decide +kernel, fun n h d => ?_⟩
  rw [List.mem_singleton] at h
  subst h
  rw [show ((markedThrice .wait).marker 0).action = .hold by decide +kernel]
  simp

/-- Markers of one result fire in ascending height, then index: the RATE before the FEED_STOP of equal height, the HOLD
last (R151). -/
theorem test_markers_fire_in_order : let t := (markedThrice .opened).markerResult (cycleAt 10000)
    t.markers.latest = some 0 ∧ t.mode = .hold ∧ t.params.rateReq = 7 ∧ (t.channel .b).state = .closing := by
  decide +kernel

/-- The deck with channel A in a state while a cycle result and a change to HALT are handed. -/
def feeding (x : ChannelState) (h : Int) : State :=
  (handing .climb (cycleAt h) (change .climb .halt)).setChannel .a
    { ((channelIn .a x).channel .a) with openConfirmed := true, delivered := 5 }

/-- The provisional top after 5 litres on 100 cm² is 5,000 tm, and freeboard is 500. -/
theorem test_hyps_FeedArrivals :
    (∀ x ∈ [ChannelState.idle, .wait, .opened, .closing, .paused, .done, .stopped],
      (feeding x 10000).running = true ∧ ((feeding x 10000).channel .a).working = some copy ∧
      ((feeding x 10000).channel .a).state = x ∧ ((feeding x 10000).channel .b).state = .idle ∧
      (feeding x 10000).transit.feedResults = cycleAt 10000 :: [] ∧
      (feeding x 10000).transit.feedModes = change .climb .halt :: [] ∧ (change .climb .halt).new = .halt) ∧
    (((feeding .wait 10000).channel .a).void = false ∧ (acceptsAll (feeding .wait 10000)).blockFor .a copy = .none) ∧
    (∀ h ∈ [(5500 : Int), 5501], let s := feeding .opened h
      (s.channel .a).openConfirmed = true ∧ (cycleAt h).hRef = some h ∧
      (h - s.params.freeboard ≤ ((((s.wall 0).top + ((s.channel .a).delivered * 100000 + (s.wall 0).remainder) /
        (s.segment 0).area : Nat) : Int)) ↔ h = 5500)) := by decide +kernel

theorem test_hyps_SpreadSwitchTakesEffect :
    (∀ m ∈ [RiseMode.climb, .hold], (handing m (cycleAt 0) (change .idle .climb)).running = true ∧
      (handing m (cycleAt 0) (change .idle .climb)).transit.spreadSwitches = { leaves := .climb, enters := .trim } :: [] ∧
      (handing m (cycleAt 0) (change .idle .climb)).mode = m) ∧ RiseMode.climb ≠ .trim := by decide +kernel

theorem test_hyps_ModeArrivals :
    (∀ m ∈ [change .idle .climb, change .climb .hold, change .trim .hold, change .hold .halt, change .halt .idle],
      let s := handing .climb (cycleAt 0) m
      s.running = true ∧ s.transit.sweepModes = m :: [] ∧ s.transit.rateModes = m :: [] ∧
      s.transit.silenceModes = m :: [] ∧ s.transit.relayModes = m :: [] ∧ s.console.silence.latestValid ≤ m.moment) ∧
    deck.sweep.startedAt = none ∧ (deck.withSweep { deck.sweep with startedAt := some 0 }).sweep.startedAt = some 0 ∧
    (let s := deck.setRelaySlot 3 (some { relayIn 1 .queued with target := 1 })
     s.relaySlot 3 = some { relayIn 1 .queued with target := 1 } ∧ (s.node 1).enabled = true ∧ (s.node 1).kind = .jack ∧
     (relayIn 1 .queued).queuedAt ≤ (change .idle .climb).moment ∧ s.relaySlot 0 = none) ∧
    (handing .climb (cycleAt 0) (change .trim .climb)).transit.rateModes = [change .trim .climb] ∧
    (change .idle .climb).moment < (deck.withConsole { deck.console with
      silence := { latestValid := 1, evaluated := true } }).console.silence.latestValid := by decide +kernel

/-! ### The console line and the beacon -/

/-- A beacon of two entries. -/
def shortBeacon : Beacon := { cycle := 1, start := true, entries := [.head true 1 0 0, .finish] }

/-- A COMPACT record of slot 4. -/
def record4 : ForwardRecord := { agent := 0, rank := 0, slot := 4, kind := .sensor, content := .compact (some 7) }

theorem test_hyps_ConsoleSendsByRank : deck.running = true ∧
    (({ deck.console with tx := some { kind := .reply, frame := [] } } : Console).tx ≠ none) ∧
    (deck.console.tx = none ∧ (replying [.overflow 1]).console.replies = .overflow 1 :: []) ∧
    (deck.console.replies = [] ∧ deck.console.sending = none ∧ deck.console.unsent = none) ∧
    ({ deck.console with unsent := some shortBeacon } : Console).unsent = some shortBeacon ∧
    (∀ b ∈ [0, 1], let n := (envelopeFrame { address := 0, kind := 0x24, payload := record4.payload }).length
      let k : Console := { deck.console with forward := [record4], budget := n - b }
      k.forward = record4 :: [] ∧ (n ≤ k.budget ↔ b = 0) ∧ k.forwardHeld = false ∧
      ({ k with forwardHeld := true } : Console).forwardHeld = true) := by decide +kernel

/-- A record of rank 3 whose frame of 19 bytes does not fit a budget of 15 holds the forward queue: a record of rank 0 and 13
bytes that comes to the head after it is not sent before the next sweep start (R180, R184). -/
theorem test_forward_held_until_refill :
    let long : ForwardRecord := { record4 with rank := 3, content := .full .active 0 (.sensor 7 false) }
    let s := ((deck.withConsole { deck.console with budget := 15 }).enqueueForward long).enqueueForward record4
    s.console.forward = [record4, long] ∧ s.consoleSend = s ∧ s.startSweep.console.forwardHeld = false ∧
    s.startSweep.consoleSend.console.forward = [long] ∧ s.startSweep.consoleSend.console.budget = 1987 := by decide +kernel

theorem test_hyps_FramesSentAndRejected : deck.running = true ∧
    (∀ x ∈ [TxKind.reply, .forward, .beacon true true true], ∃ y,
      (deck.withConsole { deck.console with tx := some { kind := x, frame := [] } }).console.tx = some y ∧ y.kind = x) ∧
    (Instr.consoleFrameReject (gapless [])).wf = true := by
  refine ⟨by decide +kernel, fun x _ => ⟨_, rfl, rfl⟩, by decide +kernel⟩

theorem test_hyps_BeaconsAreBuilt :
    let s := deck.withJobs [{ result := cycleAt 0, clock := 0, summary := some [], marker := some none }]
    s.running = true ∧ s.jobs = { result := cycleAt 0, clock := 0, summary := some [], marker := some none } :: [] := by
  decide +kernel

/-! ### Computation, conditions, the end of an opening -/

/-- The deck in CLIMB at 20,000 ms with three jacks that have replied, at 1,000, 1,000 and 1,300 tm, the rate clock
started at 0 and a rate of 3,000 tm an hour. -/
def climbing : State :=
  let s := (((deck.withMode .climb).withNow 20000).withLevel { deck.level with rateClock := some 0 }).withParams
    (deck.params.set 11 3000)
  let at_ (h : Nat) : NodeRecord := { NodeRecord.fresh with lastReport := some (.jack h 0 false) }
  (((s.setRecord 1 (at_ 1000)).setRecord 2 (at_ 1000)).setRecord 3 (at_ 1300)).withSweep
    { deck.sweep with polled := [0, 1, 2, 3, 4], replies := [1, 2, 3] }

theorem test_hyps_ComputationsFollowTheHeights :
    (climbing.compute.level.latest.map CycleResult.n) = some 3 ∧
    (deck.compute.level.latest.map CycleResult.n) = some 0 ∧
    (climbing.transit.rateModes = [] ∧ climbing.level.rateClock = some 0 ∧ climbing.mode = .climb) ∧
    ((climbing.setRecord 3 (climbing.record 1)).compute.level.latest.map CycleResult.stepMode) = some .climb := by
  decide +kernel

theorem test_hyps_ConditionsRaiseAndClear :
    (deck.condition .jackSlip).state = .idle ∧ Cond.jackSlip.cls = .halt ∧ (deck.withMode .hold).mode = .hold ∧
    Cond.greenExit.cls = .hold ∧ (deck.withMode .trim).mode = .trim ∧ Cond.feedJam.cls = .note ∧
    ((withCond deck .greenExit stands).condition .greenExit).state ≠ .idle := by decide +kernel

theorem test_hyps_AnEndCompletesTheOpening :
    let s := claimed.setChannel .a { claimed.channel .a with state := .closing, closeCause := some .halt }
    (s.channel .a).working = some copy ∧ (s.channel .a).state = .closing ∧ (s.channel .a).closeCause = some .halt ∧
    (s.channel (otherChannel .a)).working = none ∧ s.outletClaim copy.outlet = some .a ∧
    (s.wall copy.segment).claim = some .a ∧ (s.segment copy.segment).enabled = true := by decide +kernel

/-! ## Boundary values of the clauses -/

theorem test_hyps_ConsoleDecodeAfterEncode_gaps :
    encodeConsole (.status 7 []) = some ((gapped 5000).bytes.map RxByte.value) ∧
    (∀ b ∈ (gapped 5000).bytes.tail, b.gap ≤ 5000) := by decide +kernel

/-- A frame of the ring from an address, in time. -/
def answer (address kind : Byte) (payload : List Byte) : RxFrame :=
  gapless (envelopeFrame { address := address, kind := kind, payload := payload })

/-- Frames in an open window, and whether each is the reply that the exchange expects; the lengths are those of R194 and
one more or less. -/
theorem test_ring_steps :
    let report (a : Byte) (n : Nat) : RxFrame := answer a 0x02 (List.replicate n 0)
    let discards (s : State) (f : RxFrame) : Prop := s.ringStep f = .ringFrameDiscard f
    (∀ k ∈ [fun i => ExchangeKind.sweepPoll i, fun i => .outletPoll i], ∀ p ∈ [((0 : Slot), (1 : Byte), 4), (1, 2, 5), (4, 5, 3)],
      let s := windowOf (k p.1) p.1
      s.ringStep (report p.2.1 p.2.2) = .ringReport p.2.1 (List.replicate p.2.2 0) ∧
      ∀ f ∈ [report p.2.1 (p.2.2 + 1), report p.2.1 (p.2.2 - 1), report 9 p.2.2, answer p.2.1 0x04 []], discards s f) ∧
    (let s := windowOf (.demand 1) 1
     s.ringStep (answer 2 0x04 []) = .demandAck 2 [] ∧ discards s (answer 2 0x04 [0]) ∧ discards s (report 2 5) ∧
     discards (s.withNow 9) (answer 2 0x04 [])) ∧
    (windowOf (.openOutlet .a 0 7) 0).ringStep (answer 1 0x04 []) = .openAck 1 [] ∧
    (windowOf (.closeOutlet .a 0 7 false) 0).ringStep (answer 1 0x04 []) = .closeAck 1 [] ∧
    (let s := windowOf (.relay 3 0 4) 0
     s.ringStep (answer 1 0x09 (4 :: List.replicate 64 0)) = .ringRelayBack 1 (4 :: List.replicate 64 0) ∧
     s.ringStep (answer 1 0x09 [4]) = .ringRelayBack 1 [4] ∧
     ∀ f ∈ [answer 1 0x09 (4 :: List.replicate 65 0), answer 1 0x09 [5], answer 1 0x09 []], discards s f) ∧
    discards (sendingOf (.demand 1)) (answer 2 0x04 []) ∧ discards deck (answer 2 0x04 []) ∧
    discards (windowOf .go 1) (answer 2 0x04 []) := by decide +kernel

/-- The open windows of the exchanges, their slots' kinds and lengths, the frames' envelopes, and frames that pass no
check: a wrong CRC, 241 payload bytes, nothing. -/
theorem test_hyps_ReceiverCollectsAFrame_ring :
    (∀ p ∈ [(ExchangeKind.sweepPoll 0, (0 : Slot), (1 : Byte)), (.outletPoll 4, 4, 5), (.demand 1, 1, 2),
        (.openOutlet .a 0 7, 0, 1), (.closeOutlet .a 0 7 false, 0, 1), (.relay 3 0 4, 0, 1), (.go, 0, 1)],
      ∃ x, (windowOf p.1 p.2.1).Takes p.2.2 x ∧ x.kind = p.1) ∧
    (∀ x, ¬ deck.Takes 1 x) ∧ ((deck.node 0).kind = .outlet ∧ (deck.node 1).kind = .jack ∧ (deck.node 4).kind = .sensor) ∧
    frameEnvelope .ring (answer 1 0x04 []) = some { address := 1, kind := 0x04, payload := [] } ∧
    (∀ f ∈ [gapless [0xA5, 1, 4, 0, 0, 0], answer 1 0x04 (List.replicate 241 0), gapless []],
      frameEnvelope .ring f = none) := by
  refine ⟨fun p hp => ?_, fun x h => (nomatch (show (none : Option Exchange) = some x from h.1)), by decide +kernel, by decide +kernel, by decide +kernel⟩
  simp only [List.mem_cons, List.not_mem_nil, or_false] at hp
  rcases hp with rfl | rfl | rfl | rfl | rfl | rfl | rfl <;> exact ⟨_, ⟨rfl, ⟨8, rfl, by decide +kernel⟩, by decide +kernel⟩, rfl⟩

/-- The longest gap that each line allows, and one microsecond more. -/
theorem test_hyps_ReceiverCollectsAFrame_gaps :
    (∀ g ∈ [2000, 2001, 5000, 5001],
      (gapped g).bytes.map RxByte.value = envelopeFrame { address := 0, kind := 0x21, payload := [7, 1] }) ∧
    (∀ b ∈ (gapped 2000).bytes.tail, b.gap ≤ 2000) ∧ (∃ b ∈ (gapped 2001).bytes.tail, 2000 < b.gap) ∧
    (∀ b ∈ (gapped 5000).bytes.tail, b.gap ≤ 5000) ∧ (∃ b ∈ (gapped 5001).bytes.tail, 5000 < b.gap) := by decide +kernel

/-- The last byte of a GO that is ready to go, in a mode and with changes of mode under way to the dispatch. -/
def goEnding (mode : RiseMode) (under : List ModeChange) : State :=
  (((sendingOf .go).withDispatch (dispatching .goReady).dispatch).withMode mode).withTransit
    { deck.transit with dispatchModes := under }

/-- R27, R121: the mode that left CLIMB while the GO was on the line, and a mode that has come back to CLIMB. -/
theorem test_hyps_RequestFramesLeave_stops :
    (let s := goEnding .hold [{ old := .climb, new := .hold, moment := 0 }]
     s.running = true ∧ s.dispatch.state = .goReady ∧ s.mode ≠ .climb ∧ s.mode ≠ .trim ∧ s.goSent.dispatch.state = .idle ∧
     s.goSent.expectation 1 = none) ∧
    (let m : ModeChange := { old := .climb, new := .hold, moment := 0 }
     let s := goEnding .climb [m, { old := .hold, new := .climb, moment := 0 }]
     s.dispatch.state = .goReady ∧ m ∈ s.transit.dispatchModes ∧ m.new ≠ .climb ∧ m.new ≠ .trim ∧
     s.goSent.dispatch.state = .idle) ∧
    (let s := goEnding .trim [{ old := .climb, new := .trim, moment := 0 }]
     s.goSent.dispatch.state = .window ∧ (s.goSent.expectation 1).map Expectation.demand = some 3) := by decide +kernel

/-- Records that READ finds: the last layer of a full queue, an occupied relay slot, a latest result, a judged monitor. -/
theorem test_hyps_ReadReply_records :
    (((deck.setWall 0 (layered 16)).wall 0).queue[(15 : Fin 16).val]?.map Layer.top) = some 16 ∧
    (relaying [.queued]).relaySlot 0 = some (relayIn 1 .queued) ∧ deck.level.latest = none ∧
    deck.relaySlot 0 = none ∧ (deck.wall 0).queue.length ≤ (0 : Fin 16).val ∧
    (deck.withLevel { deck.level with latest := some (cycleAt 0) }).level.latest = some (cycleAt 0) ∧
    ((deck.monitorRecord 0).lastValue = none ∧ (deck.monitorRecord 0).judgedAt = none) ∧
    ((MonitorRecord.initial.judged (deck.monitor 0) 7 3).lastValue = some 7) := by decide +kernel

/-- Bytes that spell an edit of each table at the ends of its ranges. -/
theorem test_hyps_WriteStages_spelled :
    (Edit.node 127 { enabled := true, address := 200, kind := .jack, strokeMax := some 300, zero := some (-32768) }).SpelledBy
      [0, 127, 1, 200, 0, 1, 44, 128, 0] ∧
    (Edit.node 0 { enabled := false, address := 1, kind := .sensor, strokeMax := none, zero := none }).SpelledBy
      [0, 0, 0, 1, 2] ∧
    (Edit.segment 31 { enabled := true, area := 100, startTop := 16777215 }).SpelledBy
      [1, 31, 1, 0, 0, 0, 100, 0, 255, 255, 255] ∧
    (Edit.descriptor 63 { enabled := true, segment := 31, outlet := 127, litres := 4000, next := none, pauseAfter := true
                          mark := false }).SpelledBy [2, 63, 1, 31, 127, 15, 160, 255, 0xFD] ∧
    (Edit.monitor 7 { enabled := true, sensor := 127, direction := .falling, levels := #v[-32768, 32767, -1, 0], select := 3
                      hysteresis := 1000, cls := .note }).SpelledBy
      [3, 7, 1, 127, 1, 128, 0, 127, 255, 255, 255, 0, 0, 3, 3, 232, 1] ∧
    (Edit.marker 23 { enabled := true, height := 16777215, action := .rate 6000 }).SpelledBy
      [4, 23, 1, 0, 255, 255, 255, 1, 23, 112] ∧
    (Edit.marker 0 { enabled := true, height := 0, action := .feedStop .b }).SpelledBy [4, 0, 1, 0, 0, 0, 0, 2, 1] ∧
    (Edit.agent 15 { enabled := true, matchKind := .sensor, low := 127, high := 127, everyN := 255, form := .compact
                     rank := 3 }).SpelledBy [5, 15, 1, 3, 127, 127, 255, 1, 3] ∧
    (Edit.parameter 22 86400).SpelledBy [6, 22, 0, 1, 81, 128] ∧ oneEdit.SpelledBy [6, 0, 0, 0, 0x13, 0x88] :=
  ⟨⟨by decide, 300, -32768, rfl, rfl, by decide, by decide, by decide⟩, ⟨by decide, rfl, rfl, by decide⟩, ⟨by decide, by decide, by decide⟩,
    ⟨by decide, 0xFD, by decide, by decide, by decide⟩, ⟨by decide, by decide, by decide +kernel⟩,
    ⟨by decide, by decide, by decide⟩, ⟨by decide, by decide⟩, ⟨by decide, by decide, by decide⟩,
    ⟨600, 86400, rfl, by decide, by decide, by decide⟩, ⟨5000, 120000, rfl, by decide, by decide, by decide⟩⟩

/-- Bytes that spell no edit, and bytes that name no target. -/
theorem test_hyps_WriteStages_malformed : (∀ e : Edit, ¬ e.SpelledBy []) ∧ (∀ e : Edit, ¬ e.SpelledBy [7, 0]) ∧
    ∀ v, ¬ (Edit.parameter 11 v).SpelledBy [6, 11, 0, 0, 0, 0] := by
  refine ⟨fun e => ?_, fun e => ?_, fun v ⟨_, _, h, low, high, _⟩ => by cases h; omega⟩ <;> rcases e with ⟨_, _, _, _ | _ | _⟩ | _ | _ | _ | ⟨_, _, _, _ | _ | _ | _⟩ | _ | _ <;>
    simp [Edit.SpelledBy, u32, u16]

theorem test_hyps_ReadReply_named : (ReadTarget.layer 31 15).NamedBy 9 31 15 ∧ (ReadTarget.channel .b).NamedBy 11 1 7 ∧
    (ReadTarget.condition .ringDown).NamedBy 10 (u8 Cond.ringDown.num.val) 0 ∧ (ReadTarget.agentCounters 15).NamedBy 16 15 9 ∧
    (∀ target : ReadTarget, ¬ target.NamedBy 17 0 0) ∧
    ∀ (t i j : Byte) (target : ReadTarget), ([] : List Byte) = [t, i, j] → ¬ target.NamedBy t i j := by
  refine ⟨⟨rfl, rfl, rfl⟩, ⟨rfl, rfl⟩, ⟨rfl, rfl⟩, ⟨rfl, rfl⟩, fun target => ?_, fun _ _ _ _ h => nomatch h⟩
  rcases target with _ | _ | _ | _ | _ | _ | _ | _ | _ | _ | _ | (_ | _) | _ | _ | _ | _ | _ <;> simp [ReadTarget.NamedBy]

/-- A pending commit whose edit keeps the kind and address of the jack it names. -/
theorem test_hyps_StartEntersClimbOrHold_pending :
    let u := (staging [.node 1 { jackAt 2 with strokeMax := some 300 }] true).silenceReset
    u.command.commitPending = true ∧ (∀ (i : Slot) (e : NodeEntry), .node i e ∈ u.command.staged →
      (u.node i).enabled = true → (u.node i).kind = .jack → e.kind = .jack ∧ e.address = (u.node i).address) := by
  refine ⟨by decide +kernel, fun i e h _ _ => ?_⟩
  rw [show (staging [.node 1 { jackAt 2 with strokeMax := some 300 }] true).silenceReset.command.staged =
    [.node 1 { jackAt 2 with strokeMax := some 300 }] by decide +kernel, List.mem_singleton] at h
  cases h
  decide +kernel

/-- READ of a PARAMETER carries its default in the width of its range (R161, R192). -/
theorem test_read_parameter_widths :
    [(0 : ParamIx), 4, 10, 11, 22, 27].map (fun i => State.reset.readFields (.parameter i)) =
      [[0, 0, 0x4E, 0x20], [3], [0x0B, 0xB8], [0, 0], [0, 0, 0x38, 0x40], [1]].map fun bs => some [.bytes bs] := by
  decide +kernel

/-- A pending edit that disables a jack and changes its address or kind blocks START (R113); it does not by itself refuse
COMMIT (R166, check 4). -/
theorem test_start_blocked_by_a_disabling_edit :
    (∀ e ∈ [{ jackAt 9 with enabled := false }, { jackAt 1 with kind := .sensor, enabled := false }],
      (staging [.node 1 e] true).startOutcome = (.notReady, none) ∧ (staging [.node 1 e] true).readdressedJack = none) ∧
    (staging [.node 1 { jackAt 2 with enabled := false }] true).startOutcome = (.ok, some .climb) := by decide +kernel

/-- No enabled slot shares its address with a lower enabled one, where only the first five are enabled and differ. -/
theorem test_unshared (s : State) (h : ∀ i : Slot, (s.node i).enabled = true → i.val < 5)
    (d : ∀ a b : Fin 5, b < a → (s.node (b.castLE (by decide))).address ≠ (s.node (a.castLE (by decide))).address)
    (i : Slot) : ¬ ((s.node i).enabled = true ∧ ∃ j : Slot, j < i ∧ (s.node j).enabled = true ∧
      (s.node j).address = (s.node i).address) :=
  fun ⟨hi, j, hj, ej, ha⟩ => d ⟨i.val, h i hi⟩ ⟨j.val, h j ej⟩ hj ha

/-- Staged lists that fail one check each: a descriptor that names a jack for its outlet, and one relation of the
parameters after the other. -/
def failing : List State :=
  [staging [.descriptor 7 { DescriptorEntry.initial with enabled := true, outlet := 1 }] false,
   staging [.parameter 13 150] false, staging [.parameter 12 400] false, staging [.parameter 1 20000] false,
   staging [.parameter 21 3001] false]

/-- A descriptor of the tables that a state's commit would leave names no enabled segment and OUTLET slot. -/
abbrev badDescriptor (s : State) (d : DescriptorIx) : Prop :=
  (s.silenceReset.prospective.descriptor d).enabled = true ∧
    ¬ ((s.silenceReset.prospective.segment (s.silenceReset.prospective.descriptor d).segment).enabled = true ∧
      (s.silenceReset.prospective.node (s.silenceReset.prospective.descriptor d).outlet).enabled = true ∧
      (s.silenceReset.prospective.node (s.silenceReset.prospective.descriptor d).outlet).kind = .outlet)

theorem test_hyps_CommitIsTakenOrNamesAConflict_invalid :
    (∀ s ∈ failing, s.running = true ∧ s.silenceReset.command.commitPending = false ∧
      ∀ i : Slot, ¬ ((s.silenceReset.prospective.node i).enabled = true ∧ ∃ j : Slot, j < i ∧
        (s.silenceReset.prospective.node j).enabled = true ∧
        (s.silenceReset.prospective.node j).address = (s.silenceReset.prospective.node i).address)) ∧
    (∃ s ∈ failing, badDescriptor s 7 ∧ ∀ e : DescriptorIx, e < 7 → ¬ badDescriptor s e) ∧
    (∀ s ∈ failing.tail, ∀ d, ¬ badDescriptor s d) ∧
    (failing.tail.map fun s => let p := s.silenceReset.prospective.params
      (decide (p.trimExit < p.trimBand), decide (p.trimBand < p.haltBand), decide (p.strokeMs < p.cycleMs),
        decide (p.freeboard ≤ p.maxVoid))) =
      [(false, true, true, true), (true, false, true, true), (true, true, false, true), (true, true, true, false)] := by
  refine ⟨fun s hs => ?_, ⟨_, .head _, by decide +kernel⟩, by decide +kernel, by decide +kernel⟩
  have h : ∀ s ∈ failing, s.running = true ∧ s.silenceReset.command.commitPending = false ∧
      (∀ i : Slot, (s.silenceReset.prospective.node i).enabled = true → i.val < 5) ∧
      (∀ a b : Fin 5, b < a → (s.silenceReset.prospective.node (b.castLE (by decide))).address ≠
        (s.silenceReset.prospective.node (a.castLE (by decide))).address) := by decide +kernel
  exact ⟨(h s hs).1, (h s hs).2.1, test_unshared _ (h s hs).2.2.1 (h s hs).2.2.2⟩

/-- The deck in CLIMB with jack 1 staged under another address. -/
def moved : State := (staging [.node 1 (jackAt 9)] false).withMode .climb

theorem test_hyps_CommitIsTakenOrNamesAConflict_notNow : let u := moved.silenceReset
    moved.running = true ∧ u.command.commitPending = false ∧ u.mode = .climb ∧
    (∀ i : Slot, ¬ ((u.prospective.node i).enabled = true ∧ ∃ j : Slot, j < i ∧ (u.prospective.node j).enabled = true ∧
      (u.prospective.node j).address = (u.prospective.node i).address)) ∧ (∀ d, ¬ badDescriptor moved d) ∧
    (u.prospective.params.trimExit < u.prospective.params.trimBand ∧
      u.prospective.params.trimBand < u.prospective.params.haltBand ∧
      u.prospective.params.strokeMs < u.prospective.params.cycleMs ∧
      u.prospective.params.freeboard ≤ u.prospective.params.maxVoid) ∧
    (∃ e : NodeEntry, .node 1 e ∈ u.command.staged ∧ (u.node 1).enabled = true ∧ (u.node 1).kind = .jack ∧
      e.enabled = true ∧ ¬ (e.kind = (u.node 1).kind ∧ e.address = (u.node 1).address)) ∧
    (∀ j : Slot, j < 1 → ∀ e : NodeEntry, .node j e ∉ u.command.staged) := by
  refine ⟨by decide +kernel, by decide +kernel, by decide +kernel,
    test_unshared _ (by decide +kernel) (by decide +kernel), by decide +kernel, by decide +kernel,
    ⟨jackAt 9, by decide +kernel⟩, fun j hj e he => ?_⟩
  rw [show moved.silenceReset.command.staged = [.node 1 (jackAt 9)] from by decide +kernel] at he
  simp only [List.mem_singleton, Edit.node.injEq] at he
  exact absurd (he.1 ▸ hj) (by decide)

/-- The deck with a commit pending that edits every table: one slot goes and one comes, a segment is resized, a monitor
begins and another stays, a relay waits for the slot that goes. -/
def applying : State :=
  let entry : MonitorEntry := {
    enabled := true, sensor := 4, direction := .rising, levels := Table.const 4 100, select := 3, hysteresis := 10,
    cls := .note }
  let s := deck.setRelaySlot 0 (some (relayIn 1 .queued))
  s.withCommand { s.command with
    commitPending := true, commitSeq := some 9
    staged := [.node 0 { jackAt 1 with enabled := false }, .node 5 (jackAt 6),
      .segment 0 { enabled := true, area := 101, startTop := 0 }, .descriptor 0 DescriptorEntry.initial, .monitor 7 entry,
      .marker 23 { enabled := true, height := 1, action := .hold }, .agent 15 AgentEntry.initial, .parameter 0 5000,
      .parameter 10 5] }

theorem test_hyps_CommitIsTakenOrNamesAConflict_applied :
    applying.command.commitPending = true ∧ applying.command.commitSeq = some 9 ∧ applying.StagedInv ∧
    deck.command.commitPending = false ∧
    (let t := applying.prospective
     ((applying.node 0).enabled = true ∧ (t.node 0).enabled = false) ∧
     ((applying.node 5).enabled = false ∧ (t.node 5).enabled = true) ∧ t.params.cycleMs ≠ applying.params.cycleMs ∧
     (t.segment 0).area ≠ (applying.segment 0).area ∧ (t.monitor 7).enabled = true ∧ (t.monitor 0).enabled = false ∧
     applying.relaySlot 0 = some (relayIn 1 .queued)) := by
  refine ⟨by decide +kernel, by decide +kernel, ?_, by decide +kernel, by decide +kernel⟩
  unfold State.StagedInv
  decide +kernel

/-- GREEN_EXIT uncleared in HOLD, as the last condition that holds and beside another. -/
theorem test_hyps_AckAcknowledges_hold :
    let s := withCond (deck.withMode .hold) .greenExit { stands with state := .uncleared, source := false }
    (s.silenceReset.mode = .hold ∧ Cond.greenExit.cls = .hold ∧ (s.silenceReset.condition .greenExit).state = .uncleared) ∧
    (∀ d : Cond, d ≠ .greenExit → d.cls = .hold ∨ d.cls = .halt → (s.silenceReset.condition d).state = .idle) ∧
    (let u := (withCond s .manualHold stands).silenceReset
     u.mode = .hold ∧ (u.condition .greenExit).state = .uncleared ∧ Cond.manualHold ≠ .greenExit ∧
     Cond.manualHold.cls = .hold ∧ (u.condition .manualHold).state ≠ .idle) := by
  refine ⟨by decide +kernel, ?_, by decide +kernel⟩
  intro d
  cases d <;> decide +kernel

/-- A B of 16 lies above the bottom of the record that a full queue merges into and not above that of a new record on 16
tm: the flag is set in the one case only. -/
theorem test_hyps_PlaceTurnsLitresIntoHeight_green : let s := (walled 100 16).withPlacementSeen (some (cycleAt 12016))
    s.silenceReset.placementSeen.bind CycleResult.bottom = some 16 ∧ 0 < s.silenceReset.params.setAgeS ∧
    (((s.silenceReset.wall 0).queue.dropLast.getLast?.map Layer.top).getD (s.silenceReset.wall 0).base : Int) < 16 ∧
    ¬ (((s.silenceReset.wall 0).top : Int) < 16) ∧ (s.silenceReset.wall 0).queue.length = 16 ∧
    ((((walled 100 15).withPlacementSeen (some (cycleAt 12016))).silenceReset.wall 0).top : Int) < 16 := by
  decide +kernel

/-- Channel A in OPEN on segment 0 and outlet 0, channel B in a state on the same segment and outlet 1, which is ready. -/
def sharing (x : ChannelState) : State :=
  let s := ((claimed.withPlacementSeen (some (cycleAt 10000))).withNodes
    (deck.nodes.write 1 { jackAt 9 with kind := .outlet })).setRecord 1
    { NodeRecord.fresh with lastReport := some (.outlet true false false 0 0) }
  s.setChannel .b { ChannelContext.initial with
    state := x, current := some 1, working := some { copy with outlet := 1 }, blockReason := .segmentBusy
    openConfirmed := true }

theorem test_hyps_PlaceTurnsLitresIntoHeight_sharing :
    (∀ x ∈ [ChannelState.wait, .opened, .closing],
      ((sharing x).segment 0).enabled = true ∧ (0 < 1) ∧ ((sharing x).channel .b).state = x ∧
      ((sharing x).channel .b).working.map WorkingCopy.segment = some 0 ∧ (sharing x).running = true) ∧
    ((sharing .wait).segment 31).enabled = false ∧
    ((sharing .wait).channel (otherChannel .a)).working = some { copy with outlet := 1 } ∧
    ((sharing .wait).channel (otherChannel .a)).void = false ∧
    ((sharing .wait).dropClaims .a copy).blockFor .b { copy with outlet := 1 } = .none := by decide +kernel

theorem test_hyps_PlaceTurnsLitresIntoHeight_form : ((sharing .wait).wall 0).Form (sharing .wait).pourClock := by
  rw [show (sharing .wait).wall 0 = { SegmentLive.initial with claim := some .a } from by decide +kernel]
  exact ⟨by decide, rfl, trivial⟩

/-- The release of a segment's claim lets the waiting other channel open (R84, R86, R87). -/
theorem test_release_lets_the_other_open : let t := (sharing .wait).releaseClaims .a copy
    (t.channel .b).state = .opened ∧ (t.wall 0).claim = some .b ∧ t.outletClaim 0 = none ∧ t.outletClaim 1 = some .b := by
  decide +kernel

/-- A channel's placement that comes to lie below B raises GREEN_EXIT with the segment, and CLIMB ends in HOLD; the record
is the channel's and names its descriptor (R65, R69, R75, R93, R110). -/
theorem test_placement_below_bottom_is_green :
    let s := ((claimed.withMode .climb).withPlacementSeen (some (cycleAt 12001))).takePlacement 0 5 .a (some 0)
    s.mode = .hold ∧ (s.condition .greenExit).detail = some 0 ∧ (s.wall 0).queue =
      [{ top := 5000, placedAt := 0, litres := 5, source := .a, descriptor := some 0, greenExited := true }] := by
  decide +kernel

/-- An opening of channel A with 5 litres delivered, channel B at rest, and a cycle result on its way to the store. -/
theorem test_hyps_RestartKeepsAndResets_delivered :
    let s := (claimed.setChannel .a { claimed.channel .a with delivered := 5 }).withTransit
      { claimed.transit with placementResults := [cycleAt 0] }
    s.running = true ∧ ((s.channel .a).state = .opened ∧ (s.channel .a).working = some copy ∧ 0 < (s.channel .a).delivered) ∧
    ((s.channel (otherChannel .a)).state = .idle) ∧ (s.segment copy.segment).enabled = true ∧
    (s.segment 1).enabled = false ∧ (s.wall copy.segment).queue.length < 16 ∧
    0 < min ((5 * 100000 + (s.wall copy.segment).remainder) / (s.segment copy.segment).area)
      (16777215 - (s.wall copy.segment).top) := by decide +kernel

theorem test_hyps_RestartKeepsAndResets_form : (claimed.wall 0).Form claimed.pourClock := by
  rw [show claimed.wall 0 = { SegmentLive.initial with claim := some .a } from by decide +kernel]
  exact ⟨by decide, rfl, trivial⟩

/-- The poll of slot 1 in a sweep of some slots, its record in a state. -/
def sweeping (polled : List Slot) (i : Slot) (x : NodeState) : State :=
  ((windowOf (.sweepPoll i) i).setRecord i { NodeRecord.fresh with state := x, missCount := 2 }).withSweep
    { deck.sweep with running := true, cursor := some i, polled := polled }

/-- A sweep's poll that is not its last and one that is, each with a state that changes, for each kind of slot. -/
theorem test_hyps_ReportUpdatesTheRecord_sweep :
    (∀ p ∈ [((0 : Slot), [(6 : Byte), 0, 5, 7], Report.outlet true true false 5 7), (1, [0, 0, 9, 0, 0], .jack 9 0 false),
        (4, [0, 1, 1], .sensor 1 true)],
      let s := sweeping [0, 1, 2, 4] p.1 .lost
      s.running = true ∧ (∃ x ∈ s.ring, x.phase = .window 8 ∧ (u8 (s.node p.1).address).toNat = x.address ∧
        x.discarded = false ∧ x.kind = .sweepPoll p.1) ∧ s.now ≤ 8 ∧
      p.2.2.SpelledBy (s.node p.1).kind p.2.1 ∧ (s.record p.1).state = .lost) ∧
    (let s := sweeping [0, 1, 2, 4] 1 .lost
     s.sweep.polled.Pairwise (· < ·) ∧ 2 ∈ s.sweep.polled ∧ (1 : Slot) < 2 ∧ ∀ k ∈ s.sweep.polled, 1 < k → 2 ≤ k) ∧
    (∀ j ∈ (sweeping [0, 1, 2, 4] 4 .lost).sweep.polled, j ≤ 4) := by
  refine ⟨fun p hp => ?_, by decide +kernel, by decide +kernel⟩
  simp only [List.mem_cons, List.not_mem_nil, or_false] at hp
  rcases hp with rfl | rfl | rfl <;>
    exact ⟨by decide +kernel, ⟨_, rfl, rfl, by decide +kernel, rfl, rfl⟩, by decide +kernel,
      (Laws.parseReport_iff ..).1 (by decide +kernel), by decide +kernel⟩

/-- Slots that a missed poll had made STALE or LOST and a FAULTED one, no channel waiting for the outlet. -/
theorem test_hyps_AcksEndExchanges_states : ∀ x ∈ [NodeState.stale, .lost, .faulted],
    (let s := (ackable (.demand 1) 1).setRecord 1 { NodeRecord.fresh with state := x, missCount := 3 }
     (s.record 1).state = x ∧ (s.node 1).kind = .jack ∧ s.dispatch.cursor = some 1) ∧
    (let s := (ackable (.openOutlet .a 0 7) 0).setRecord 0 { NodeRecord.fresh with state := x, missCount := 3 }
     (s.record 0).state = x ∧ (s.node 0).kind = .outlet ∧
     ∀ c, (s.channel c).working = none) := by
  have h : ∀ x ∈ [NodeState.stale, .lost, .faulted],
      (let s := (ackable (.demand 1) 1).setRecord 1 { NodeRecord.fresh with state := x, missCount := 3 }
       (s.record 1).state = x ∧ (s.node 1).kind = .jack ∧ s.dispatch.cursor = some 1) ∧
      (let s := (ackable (.openOutlet .a 0 7) 0).setRecord 0 { NodeRecord.fresh with state := x, missCount := 3 }
       (s.record 0).state = x ∧ (s.node 0).kind = .outlet ∧ (s.channel .a).working = none ∧
       (s.channel .b).working = none) := by decide +kernel
  exact fun x hx => ⟨(h x hx).1, (h x hx).2.1, (h x hx).2.2.1, fun c => by
    cases c
    · exact (h x hx).2.2.2.1
    · exact (h x hx).2.2.2.2⟩

/-- A missed attempt of an exchange with a slot whose record has a state and a miss count. -/
def missing (k : ExchangeKind) (i : Slot) (x : NodeState) (n : Nat) : State :=
  ((silent k i true false).setRecord i { NodeRecord.fresh with state := x, missCount := n }).withSweep
    { deck.sweep with running := true, cursor := some i, polled := [0, 1, 4] }

/-- Every kind of exchange that misses; first miss, the miss that makes LOST, and counts at 14 and 15. -/
theorem test_hyps_SilenceIsRetriedThenMissed_kinds :
    (∀ k ∈ [ExchangeKind.sweepPoll 0, .sweepPoll 4, .demand 1, .openOutlet .a 0 7, .closeOutlet .a 0 7 false],
      (missing k 0 .active 0).running = true ∧ (∃ x ∈ (missing k 0 .active 0).ring, x.phase = .window 8 ∧
        x.discarded = false ∧ x.retry = true ∧ x.kind = k) ∧ 8 ≤ (missing k 0 .active 0).now) ∧
    ([(0 : Nat), 1, 2, 14, 15].map fun n => decide (3 ≤ min 15 (n + 1))) = [false, false, true, true, true] ∧
    deck.params.missLimit = 3 ∧
    (let s := missing (.sweepPoll 0) 0 .active 0
     s.sweep.polled.Pairwise (· < ·) ∧ 1 ∈ s.sweep.polled ∧ (0 : Slot) < 1 ∧ (∀ k ∈ s.sweep.polled, 0 < k → 1 ≤ k) ∧
     (∀ j ∈ s.sweep.polled, j ≤ 4)) := by
  refine ⟨fun k hk => ?_, by decide +kernel, by decide +kernel, by decide +kernel⟩
  simp only [List.mem_cons, List.not_mem_nil, or_false] at hk
  rcases hk with rfl | rfl | rfl | rfl | rfl <;>
    exact ⟨by decide +kernel, ⟨_, rfl, rfl, rfl, rfl, rfl⟩, by decide +kernel⟩

/-- A missed DEMAND with one behind it, as the last with one acknowledged, and as the last with none. -/
theorem test_hyps_SilenceIsRetriedThenMissed_demands :
    let e (i : Slot) (x : DemandOutcome) : DispatchEntry := { slot := i, demand := 1, outcome := x }
    let s (es : List DispatchEntry) := (missing (.demand 1) 1 .active 0).withDispatch
      { (dispatching .demanding).dispatch with entries := es }
    (∀ es, (s es).dispatch.state = .demanding ∧ (s es).dispatch.cursor = some 1 ∧ (s es).dispatch.entries = es) ∧
    (∃ before n after, [e 1 .pending, e 3 .pending] = before ++ n :: after ∧ 1 < n.slot ∧ ∀ y ∈ before, y.slot ≤ 1) ∧
    ((∀ x ∈ [e 0 .acked, e 1 .pending], x.slot ≤ 1) ∧ ∃ x ∈ [e 0 .acked, e 1 .pending], x.slot ≠ 1 ∧ x.outcome = .acked) ∧
    ((∀ x ∈ [e 0 .unconfirmed, e 1 .pending], x.slot ≤ 1) ∧
      ∀ x ∈ [e 0 .unconfirmed, e 1 .pending], x.slot = 1 ∨ x.outcome ≠ .acked) := by
  refine ⟨fun es => ⟨rfl, rfl, rfl⟩, ⟨[_], _, [], rfl, by decide, by decide⟩, by decide, by decide⟩

/-- The openings that a missed OPEN or CLOSE meets, channel B at rest. -/
theorem test_hyps_SilenceIsRetriedThenMissed_openings :
    (∀ x ∈ [ChannelState.opened, .closing], let s := (channelIn .a x).setRecord 0 { NodeRecord.fresh with state := .stale }
      (s.channel .a).tag = 7 ∧ (s.channel .a).openConfirmed = false ∧ (s.channel .a).working = some copy ∧
      (s.channel (otherChannel .a)).working = none ∧ (s.channel .a).state = x ∧ (s.record copy.outlet).state ≠ .active) ∧
    ((channelIn .a .closing).channel .a).closeCause = none ∧ (channelIn .a .closing).running = true ∧
    (let s := (channelIn .a .closing).setChannel .a { (channelIn .a .closing).channel .a with closeCause := some .halt }
     (s.channel .a).state = .closing ∧ (s.channel .a).closeCause = some .halt) ∧
    ((channelIn .a .idle).channel .a).state ≠ .closing := by decide +kernel

/-- Channel A waiting under SEGMENT_FULL since the moment 0, the latest result bound by FILL, with a deferred list. -/
def fullSince (deferred : List DescriptorIx) : State :=
  let s := ((channelWith .wait fun x => { x with
    blockReason := .segmentFull, blockedSince := some 0, blockTimer := some 120000, deferred := deferred }).withNow
      120000).withPlacementSeen (some (cycleAt 0))
  s.withFeed { s.feed with seen := some { cycleAt 0 with binding := .fill } }

/-- A void copy, the pause after a descriptor, a new reason, and SEGMENT_FULL with and without room for the descriptor. -/
theorem test_hyps_FeedTimersExpire_choices :
    (∀ x ∈ [ChannelState.wait, .paused], let s := channelWith x fun x => { x with
        void := true, blockTimer := some 0, pause := some { endsAt := 0, kind := .resume } }
      s.running = true ∧ (s.channel .a).state = x ∧ (s.channel .a).void = true ∧ (s.channel .a).blockTimer = some 0 ∧
      (s.channel .a).pause = some { endsAt := 0, kind := .resume } ∧ (s.channel .a).working = some copy) ∧
    (let s := channelWith .paused fun x => { x with pause := some { endsAt := 0, kind := .after } }
     (s.channel .a).state = .paused ∧ (s.channel .a).pause = some { endsAt := 0, kind := .after } ∧ 0 ≤ s.now) ∧
    (let s := channelWith .wait fun x => { x with blockReason := .notReady, blockTimer := some 0 }
     s.blockFor .a copy ≠ .none ∧ s.blockFor .a copy ≠ (s.channel .a).blockReason ∧ 0 < s.params.blockS ∧
     (acceptsAll s).blockFor .a copy = .none) ∧
    (∀ ds ∈ [[(0 : DescriptorIx)], [1, 2, 3, 4, 5, 6, 7], [1, 2, 3, 4, 5, 6, 7, 8]],
      (fullSince ds).blockFor .a copy = .segmentFull ∧ ((fullSince ds).channel .a).current = some 0 ∧
      ((fullSince ds).channel .a).blockTimer = some 120000 ∧ 120000 ≤ (fullSince ds).now ∧
      ((0 : DescriptorIx) ∈ ((fullSince ds).channel .a).deferred ∨ ((fullSince ds).channel .a).deferred.length < 8 ↔
        ds.length < 8)) := by decide +kernel

theorem test_hyps_FeedTimersExpire_deferral :
    (∀ ds ∈ [[(0 : DescriptorIx)], [1, 2, 3, 4, 5, 6, 7]], (fullSince ds).MayDefer ((fullSince ds).channel .a) 0) ∧
    ¬ (fullSince [1, 2, 3, 4, 5, 6, 7, 8]).MayDefer ((fullSince [1, 2, 3, 4, 5, 6, 7, 8]).channel .a) 0 := by
  refine ⟨fun ds h => ?_, fun h => absurd h.2.2 (by decide +kernel)⟩
  simp only [List.mem_cons, List.not_mem_nil, or_false] at h
  rcases h with rfl | rfl <;>
    exact ⟨by decide +kernel, ⟨by decide +kernel, ⟨0, by decide +kernel⟩,
      ⟨{ cycleAt 0 with binding := .fill }, by decide +kernel, .inl rfl⟩⟩, by decide +kernel⟩

/-- Three records retire unset at a B of 3 in CLIMB, in the one segment that is enabled; a result under way at a RESTART
comes first. -/
theorem test_hyps_PlacementResultRetires_green :
    let s := (handing .climb (cycleAt 12003) (change .idle .climb)).setWall 0 (layered 4)
    let gone := (s.wall 0).queue.takeWhile fun l => decide ((l.top : Int) ≤ 3)
    gone.countP (fun l => decide (s.pourClock - l.placedAt < s.params.setAgeS) && !l.greenExited) = 3 ∧
    (s.condition .greenExit).state = .idle ∧ s.mode = .climb ∧ (∀ k : SegmentIx, k ≠ 0 → (s.segment k).enabled = false) ∧
    s.transit.retirements = [] ∧
    (s.withTransit { s.transit with retirements := [cycleAt 12003] }).transit.retirements = cycleAt 12003 :: [] := by
  decide +kernel

/-- The deck with both channels at work, in one state each, and a change of mode handed. -/
def bothIn (x y : ChannelState) (m : ModeChange) : State :=
  let at_ (z : ChannelState) : ChannelContext := { ChannelContext.initial with
    state := z, current := some 0, working := some copy, tag := 7, openConfirmed := true }
  ((handing .hold (cycleAt 10000) m).setChannel .a (at_ x)).setChannel .b (at_ y)

theorem test_hyps_FeedArrivals_both :
    (∀ p ∈ [(ChannelState.opened, ChannelState.opened), (.opened, .wait), (.closing, .paused), (.wait, .wait)],
      let s := bothIn p.1 p.2 (change .climb .halt)
      s.running = true ∧ (s.channel .a).state = p.1 ∧ (s.channel .b).state = p.2 ∧ (s.channel .a).working = some copy ∧
      (s.channel .b).working = some copy ∧ s.transit.feedModes = change .climb .halt :: [] ∧
      s.transit.feedResults = cycleAt 10000 :: []) ∧
    ((bothIn .wait .wait (change .climb .hold)).transit.feedModes = change .climb .hold :: [] ∧
      (change .climb .hold).new ≠ .halt) := by decide +kernel

/-- Each reason of the open test, and a waiting channel that may defer under it or not. -/
theorem test_hyps_FeedArrivals_reasons :
    ((channelIn .a .wait).channel .a).working = some copy ∧ (channelIn .a .wait).placementSeen = none ∧
    ((fullSince [0]).placementSeen.bind CycleResult.hRef = some 0 ∧ ¬ (((fullSince [0]).wall 0).top : Int) <
      0 - (fullSince [0]).params.freeboard) ∧
    (let s := acceptsAll (channelIn .a .wait)
     s.placementSeen.bind CycleResult.hRef = some 10000 ∧ (s.segment 0).enabled = true ∧
     ((s.wall 0).top : Int) < 10000 - s.params.freeboard ∧ (s.wall 0).claim ≠ some (otherChannel .a) ∧
     s.outletClaim 0 ≠ some (otherChannel .a) ∧ (s.record 0).state = .active ∧
     (s.record 0).lastReport = some (.outlet true false false 0 0) ∧
     ((s.setSegmentClaim 0 (some .b)).wall 0).claim = some (otherChannel .a) ∧
     (s.setOutletClaim 0 (some .b)).outletClaim 0 = some (otherChannel .a) ∧
     ((s.setRecord 0 NodeRecord.fresh).record 0).lastReport = none) := by decide +kernel

/-- A commit that takes the segment, the outlet or neither from under channel A, with channel B at rest. -/
theorem test_hyps_FeedArrivals_commit :
    let segments := deck.segments.write 0 { enabled := false, area := 100, startTop := 0 }
    let nodes := deck.nodes.write 0 { jackAt 1 with kind := .outlet, enabled := false }
    (∀ x ∈ [ChannelState.wait, .opened, .closing, .paused, .idle, .done, .stopped], let s := channelIn .a x
      (s.channel .a).working = some copy ∧ (s.channel (otherChannel .a)).working = none ∧ (s.channel .a).state = x ∧
      ((deck.segments.read 0).enabled = true ∧ ((s.withSegments segments).segment 0).enabled = false) ∧
      ((deck.nodes.read 0).enabled = true ∧ ((s.withNodes nodes).node 0).enabled = false) ∧
      (s.segment 0).enabled = true ∧ (s.node 0).enabled = true ∧ deck.nodes.read 0 = s.node 0) := by decide +kernel

/-- The deck with agent 3 on slots 0 to 4 at every second report and agent 5 on everything. -/
def forwarding (counter : Nat) : State :=
  let entry (n : Nat) : AgentEntry := { AgentEntry.initial with enabled := true, high := 4, everyN := n }
  deck.withAgents { deck.agents with
    entries := (deck.agents.entries.write 3 (entry 2)).write 5 (entry 1)
    counters := deck.agents.counters.write 3 counter }

theorem test_hyps_ConsoleSendsByRank_agents :
    (∀ n ∈ [0, 1], let e := (forwarding n).agents.entries.read 3
      e.enabled = true ∧ e.low ≤ (4 : Slot) ∧ (4 : Slot) ≤ e.high ∧ e.matchKind = .any ∧
      ((forwarding n).agents.counters.read 3 + 1 = e.everyN ↔ n = 1)) ∧
    (∀ b : AgentIx, b < 3 → ((forwarding 0).agents.entries.read b).enabled = false) ∧
    ¬ (5 : Slot) ≤ ((forwarding 0).agents.entries.read 3).high ∧ (deck.agents.entries.read 3).enabled = false := by
  decide +kernel

/-- The forward queue with room, and full with a newest record of a lower rank, of the same rank and of a higher one. -/
theorem test_hyps_ConsoleSendsByRank_forward :
    let s (n : Nat) := deck.withConsole { deck.console with forward := List.replicate n { record4 with rank := 2 } }
    (s 31).ForwardInv ∧ (s 31).console.forward.length < 32 ∧ (s 32).ForwardInv ∧ (s 32).console.forward.length = 32 ∧
    (s 32).console.forward = List.replicate 31 { record4 with rank := 2 } ++ [{ record4 with rank := 2 }] ∧
    record4.rank < ({ record4 with rank := 2 } : ForwardRecord).rank := by
  refine ⟨?_, by decide +kernel, ?_, by decide +kernel, by decide +kernel, by decide⟩ <;>
    (unfold State.ForwardInv; decide +kernel)

/-- The climbing deck with a segment's top at 2,000 tm, a set record and an unset one whose bottom lies above B. -/
def gated : State :=
  let layer (top placed : Nat) : Layer :=
    { top := top, placedAt := placed, litres := 1, source := .a, descriptor := none, greenExited := false }
  (climbing.withPourClock 30000).setWall 0 { SegmentLive.initial with
    top := 2000, queue := [layer 1000 0, layer 2000 30000] }

/-- A gate of each kind, the switches both ways, a mode that takes no step, no rate clock start, no participant and a
rate of 0. -/
theorem test_hyps_ComputationsFollowTheHeights_cases :
    (let r := gated.compute.level.latest
     (r.map fun r => (r.aFill.isSome, r.aSet.isSome)) = some (true, true)) ∧
    (((gated.withMode .trim).setRecord 3 (gated.record 1)).compute.level.latest.map CycleResult.stepMode) = some .climb ∧
    (gated.compute.level.latest.map CycleResult.stepMode) = some .trim ∧
    (((gated.withMode .hold).compute.level.latest.map fun r => (r.stepMode, r.sReq)) = some (.hold, 0)) ∧
    ((gated.withLevel deck.level).transit.rateModes = [] ∧ (gated.withLevel deck.level).level.rateClock = none) ∧
    ((gated.withSweep { gated.sweep with replies := [] }).compute.level.latest.map CycleResult.n) = some 0 ∧
    (gated.withSweep { gated.sweep with replies := [] }).sweep.polled ≠ [] ∧
    ((gated.withParams deck.params).compute.level.latest.map CycleResult.binding) = some .none ∧
    (gated.segment 0).enabled = true := by decide +kernel

/-- A STANDING HOLD-class condition in HOLD as the last one and beside another, and a source in both states. -/
theorem test_hyps_ConditionsRaiseAndClear_holds :
    ((holding.condition .manualHold).state = .standing ∧ Cond.manualHold.cls = .hold ∧ holding.mode = .hold) ∧
    (∀ d : Cond, d ≠ .manualHold → d.cls = .hold ∨ d.cls = .halt → (holding.condition d).state = .idle) ∧
    ((withCond holding .greenExit stands).condition .greenExit).state ≠ .idle ∧
    (holding.condition .manualHold).source = true ∧ (deck.condition .manualHold).source = false := by
  refine ⟨by decide +kernel, ?_, by decide +kernel, by decide +kernel, by decide +kernel⟩
  intro d
  cases d <;> decide +kernel

/-- Channel A in an opening with both its claims, 5 litres delivered and channel B at rest. -/
def ending (x : ChannelState) (cause : Option CloseCause) : State :=
  claimed.setChannel .a { claimed.channel .a with
    state := x, closeCause := cause, openConfirmed := true, delivered := 5, dwellEndsAt := some 90000 }

theorem test_hyps_AnEndCompletesTheOpening_form :
    ((ending .opened none).wall copy.segment).Form (ending .opened none).pourClock := by
  rw [show (ending .opened none).wall copy.segment = { SegmentLive.initial with claim := some .a } from by decide +kernel]
  exact ⟨by decide, rfl, trivial⟩

theorem test_hyps_AnEndCompletesTheOpening_causes :
    (∀ x ∈ [ChannelState.opened, .closing], ∀ cause ∈ [none, some CloseCause.stop, some .halt, some .void, some .dwell,
        some .full, some .notReady],
      ((ending x cause).channel .a).working = some copy ∧ ((ending x cause).channel .a).state = x ∧
      ((ending x cause).channel .a).closeCause = cause ∧ ((ending x cause).channel (otherChannel .a)).working = none ∧
      (ending x cause).outletClaim copy.outlet = some .a ∧ ((ending x cause).wall copy.segment).claim = some .a ∧
      ((ending x cause).channel .a).tag = 7 ∧ ((ending x cause).channel .a).openConfirmed = true) ∧
    0 < copy.litres ∧ 0 < ((ending .opened none).channel .a).delivered ∧
    (deck.segment copy.segment).enabled = true ∧ deck.params.pauseS ≠ 0 ∧
    (deck.withParams (deck.params.set 24 0)).params.pauseS = 0 := by decide +kernel

/-- The deck whose descriptor 0 has mark, pause-after and the next descriptor 1; 2 is enabled on a segment that accepts,
3 on one that does not. -/
def chained (current : Option DescriptorIx) (deferred : List DescriptorIx) : State :=
  let s := acceptsAll deck
  let e : DescriptorEntry := { DescriptorEntry.initial with enabled := true }
  let ds := (((s.feed.descriptors.write 0 { e with mark := true, pauseAfter := true, next := some 1 }).write 1 e).write 2
    e).write 3 { e with segment := 9 }
  (s.withFeed { s.feed with descriptors := ds }).setChannel .a { ChannelContext.initial with
    state := .wait, current := current, working := some copy, deferred := deferred }

/-- A deferred descriptor that accepts behind a disabled one and one that does not; the next of the chain; the oldest
deferred one; none; a pause after the descriptor and none. -/
theorem test_hyps_AnEndCompletesTheOpening_choices :
    let ready (s : State) (d : DescriptorIx) : Prop := (s.descriptor d).enabled = true ∧
      s.acceptance (s.descriptor d).segment = .accepts ∧ (s.wall (s.descriptor d).segment).claim = none
    (let s := chained (some 0) [63, 3, 2]
     (s.channel .a).deferred = [63, 3] ++ 2 :: [] ∧ ready s 2 ∧ ∀ e ∈ [(63 : DescriptorIx), 3], ¬ ready s e) ∧
    (let s := chained (some 0) [63, 3]
     (∀ d ∈ (s.channel .a).deferred, ¬ ready s d) ∧ (s.descriptor 1).enabled = true ∧ (s.channel .a).current = some 0 ∧
     (s.descriptor 0).enabled = true ∧ (s.descriptor 0).next = some 1 ∧ (s.descriptor 0).mark = true ∧
     (s.descriptor 0).pauseAfter = true ∧ s.params.pauseS ≠ 0) ∧
    (let s := chained none [63, 3]
     (s.channel .a).current = none ∧ ((s.channel .a).deferred.filter fun d => (s.descriptor d).enabled) = 3 :: []) ∧
    ((chained none [63]).channel .a).deferred.filter (fun d => ((chained none [63]).descriptor d).enabled) = [] ∧
    (chained none []).blockFor .a copy = .none ∧ deck.blockFor .a copy ≠ .none := by
  refine ⟨?_, ?_, by decide +kernel, by decide +kernel, by decide +kernel, by decide +kernel⟩ <;> decide +kernel

/-- A report of the outlet that channel A waits for or is open on, and the loss of it. -/
theorem test_hyps_AnEndCompletesTheOpening_reports :
    (∀ x ∈ [ChannelState.wait, .opened, .closing], ((channelIn .a x).channel .a).working = some copy ∧
      copy.outlet = 0 ∧ ((channelIn .a x).channel .a).state = x ∧
      ((channelIn .a x).channel (otherChannel .a)).working = none) ∧
    (∀ x ∈ [NodeState.lost, .active], (((channelIn .a .opened).setRecord 0 { NodeRecord.fresh with state := x }).record
      0).state = x) ∧
    ((deck.channel .a).working = none ∧ (deck.channel .b).working = none) := by decide +kernel

/-! ## The spec's worked examples -/

/-- The deck of the worked cycle in which the set gate binds (chapter 3): six jacks with their zeros and heights, two
segments with their tops and lowest unset records, 20,000 ms after the rate clock start. -/
def workedCycle : State :=
  let jack (z : Int) : NodeEntry := { enabled := true, address := 1, kind := .jack, strokeMax := some 250, zero := some z }
  let at_ (h : Nat) : NodeRecord := { NodeRecord.fresh with lastReport := some (.jack h 0 false) }
  let wall (top bottom : Nat) : SegmentLive := { SegmentLive.initial with
    top := top, base := bottom
    queue := [{ top := top, placedAt := 0, litres := 1, source := .a, descriptor := none, greenExited := false }] }
  let s := State.reset
  let s := s.withNodes ((((((s.nodes.write 1 (jack 20)).write 2 (jack (-5))).write 3 (jack 10)).write 4 (jack 0)).write 5
    (jack (-30))).write 6 (jack 15))
  let s := (((((s.setRecord 1 (at_ 150420)).setRecord 2 (at_ 150395)).setRecord 3 (at_ 150470)).setRecord 4
    (at_ 150350)).setRecord 5 (at_ 150380)).setRecord 6 (at_ 150430)
  let s := s.withSegments ((s.segments.write 0 { enabled := true, area := 10000, startTop := 0 }).write 1
    { enabled := true, area := 10000, startTop := 0 })
  let s := (s.setWall 0 (wall 149200 138700)).setWall 1 (wall 148900 138410)
  (((s.withSweep { s.sweep with polled := [1, 2, 3, 4, 5, 6], replies := [1, 2, 3, 4, 5, 6] }).withMode .climb).withNow
    20000).withLevel { s.level with rateClock := some 0 } |>.withParams (s.params.set 11 2400)

/-- Chapter 3, "Worked cycle: the set gate binds". -/
theorem test_worked_cycle : let latest := workedCycle.compute.level.latest
    (latest.map fun r => (r.hRef, r.bottom, r.spread)) = some (some 150405, some 138405, 110) ∧
    (latest.map fun r => (r.stepMode, r.sReq, r.remainder)) = some (.climb, 13, 1200000) ∧
    (latest.map fun r => (r.aFill, r.aSet)) = some (some 1495, some 5) ∧
    (latest.map fun r => (r.s, r.binding)) = some (5, .set) ∧
    (latest.map fun r => r.errors.map SlotError.error) = some [-5, -5, 55, -55, 5, 10] ∧
    (latest.map fun r => r.demands.map SlotDemand.demand) = some [8, 8, 0, 33, 2, 0] := by decide +kernel

/-- Chapter 3, "Worked sequence: into TRIM and out again": the spread tests and the demands of computations k to k+2. -/
theorem test_worked_trim :
    (stepModeOf Params.initial .climb 4 160, stepModeOf Params.initial .trim 4 75) = (.trim, .climb) ∧
    [90, -70, 10, -30].map (demandOf 8 0 250) = [0, 35, 0, 15] ∧
    [40, -25, -35, 20].map (demandOf 8 0 250) = [0, 13, 18, 0] ∧
    [5, -3, 1, -3].map (demandOf 8 13 250) = [10, 15, 12, 15] := by decide +kernel

/-- Chapter 2, "Worked verification": slots 0, 2, 3, 4 and 5. -/
theorem test_worked_verification :
    let due (d : Nat) (b : Bool) (n : Nat) : State := (deck.setExpectation 1 (some { tag := 5, demand := d, confirmed := b })).setRecord 1
      { NodeRecord.fresh with shortCounter := n }
    (((due 40 true 0).verifyStroke 1 150045 (some 150000)).record 1).shortCounter = 0 ∧
    (((due 55 true 0).verifyStroke 1 150080 (some 149990)).condition .jackOver).detail = some 1 ∧
    (((due 60 false 0).verifyStroke 1 150061 (some 150020)).condition .jackOver).state = .idle ∧
    (((due 35 true 2).verifyStroke 1 150031 (some 150030)).record 1).shortCounter = 3 ∧
    (((due 35 true 2).verifyStroke 1 150031 (some 150030)).condition .jackShort).state = .raised ∧
    (((due 48 true 0).verifyStroke 1 149990 (some 150015)).condition .jackSlip).state = .uncleared := by decide +kernel

/-- Chapter 4, "Whole and carried height": segments 7 and 9. -/
theorem test_worked_placements :
    let w := ({ SegmentLive.initial with top := 100000, base := 100000 } : SegmentLive)
    let first := w.placed 9300 350 0 .b none
    let second := first.placed 9300 200 0 .b none
    (first.top, first.remainder) = (103763, 4100) ∧ (second.top, second.remainder) = (105913, 9100) ∧
    (second.placedTotal, second.queue.length) = (550, 2) ∧
    (let once := SegmentLive.initial.placed 150000 1 0 .manual none
     let twice := once.placed 150000 1 9 .manual none
     (once.top, once.remainder, once.queue.length) = (0, 100000, 0) ∧ (twice.top, twice.remainder) = (1, 50000) ∧
     twice.queue.map Layer.litres = [1]) := by decide +kernel

/-- Chapter 4, "Worked retirement and green exit": segment 2 before and after the commit of `set_age_s`. -/
theorem test_worked_retirement :
    let layer (top placed : Nat) : Layer :=
      { top := top, placedAt := placed, litres := 1, source := .a, descriptor := none, greenExited := false }
    let left := [layer 139200 34000, layer 140500 37000, layer 141800 41000]
    retire 138600 50000 14400 137000 (layer 138000 30000 :: left) = (138000, left, 0) ∧
    countGreen 138600 50000 14400 138000 left = 0 ∧ retire 138610 50020 18000 138000 left = (138000, left, 0) ∧
    (flagGreen 138610 50020 18000 138000 left).map Layer.greenExited = [true, false, false] := by decide +kernel

/-- Chapter 7, "Worked example: an acknowledgement that meets a raise", in both orders. -/
theorem test_worked_acknowledgement :
    let s := withCond (deck.withMode .hold) .jackOver { state := .uncleared, source := false, detail := some 2, count := 5 }
    let first := (s.acknowledge .jackOver).raise .jackOver (some 4)
    let second := (s.raise .jackOver (some 4)).acknowledge .jackOver
    (s.acknowledge .jackOver).mode = .climb ∧ first.mode = .hold ∧ second.mode = .climb ∧
    first.condition .jackOver = { state := .uncleared, source := false, detail := some 4, count := 6 } ∧
    ((second.condition .jackOver).state, (second.condition .jackOver).count) = (.idle, 6) := by decide +kernel

/-- Chapter 10, "a reply queue that overflows": replies 116 to 119 meet 15 filled places. -/
theorem test_worked_overflow : let r : ReplyRecord := .reply 0 2 .ok []
    ([r, r, r, r].foldl enqueueReply (List.replicate 15 r)) = List.replicate 15 r ++ [.overflow 4] := by decide +kernel

/-- Chapter 11, "Sizing example": a FULL sensor frame is 19 bytes, a COMPACT one 13. -/
theorem test_worked_sizes :
    (envelopeFrame { address := 0, kind := 0x24, payload := record4.payload }).length = 13 ∧
    (envelopeFrame { address := 0, kind := 0x24, payload :=
      ({ record4 with content := .full .active 0 (.sensor 7 false) } : ForwardRecord).payload }).length = 19 := by
  decide +kernel

/-- Chapter 11, "Sizing example": a beacon of 32 segments and 100 jacks fills its first frame with 19 entries. -/
theorem test_worked_beacon :
    let wall : BeaconEntry := .wall { segment := 0, top := 0, queueLength := 0, lowestUnset := none }
    let entries := [BeaconEntry.head true 1 0 0, .cycle (cycleAt 0) 0 none none, .conditions none []] ++
      List.replicate 32 wall ++ List.replicate 100 (.jack 0 none 0 .active) ++ [.user CommandUnit.initial.user, .finish]
    let first := fillFrame 234 entries
    let second := fillFrame 234 first.2
    (first.1.length, (first.1.map BeaconEntry.encode).flatten.length) = (19, 229) ∧
    (second.1.length, (second.1.map BeaconEntry.encode).flatten.length) = (24, 232) := by decide +kernel

/-- R144: a FALLING monitor clears only above level plus hysteresis. -/
theorem test_monitor_hold_band :
    (MonitorRecord.initial.judged ((watching .falling).monitor 7) 100 0).tripped = true ∧
    (({ MonitorRecord.initial with tripped := true }).judged ((watching .falling).monitor 7) 110 0).tripped = true ∧
    (({ MonitorRecord.initial with tripped := true }).judged ((watching .falling).monitor 7) 111 0).tripped = false := by
  decide +kernel

/-! ### Frames that no open window takes, exchanges made void, abandoned demands -/

/-- Whether the open window takes a REPORT, as a test that evaluates. -/
def takesReport (s : State) (a : Byte) (payload : List Byte) : Bool :=
  (s.openWindow a).any fun x => match x.kind with
    | .sweepPoll i => (parseReport (s.node i).kind payload).isSome
    | .outletPoll i => (parseReport (s.node i).kind payload).isSome
    | _ => false

theorem untaken_report {s : State} {a : Byte} {payload : List Byte} (h : takesReport s a payload = false) :
    ∀ x i, s.Takes a x → x.kind = .outletPoll i ∨ x.kind = .sweepPoll i →
      ∀ report : Report, ¬ report.SpelledBy (s.node i).kind payload := by
  intro x i ht hk report hr
  rw [takesReport, (Laws.openWindow_iff s a x).2 ht] at h
  rcases hk with hk | hk <;> simp [hk, (Laws.parseReport_iff _ _ _).2 hr] at h

/-- The poll of sensor slot 4 at address 5 met by a report after its window, from another address, of another length, in
another exchange, while the request is on the line, and with no exchange; and by one taken at the window's last moment. -/
theorem test_hyps_ReportUpdatesTheRecord_untaken :
    let s := windowOf (.outletPoll 4) 4
    (∀ t ∈ [(s.withNow 9, (5 : Byte), [(0 : Byte), 1, 0]), (s, 4, [0, 1, 0]), (s, 5, [0, 1, 0, 0]), (s, 5, []),
        (windowOf (.demand 4) 4, 5, [0, 1, 0]), (sendingOf (.outletPoll 4), 2, [0, 1, 0]), (deck, 5, [0, 1, 0])],
      t.1.running = true ∧ ∀ x i, t.1.Takes t.2.1 x → x.kind = .outletPoll i ∨ x.kind = .sweepPoll i →
        ∀ report : Report, ¬ report.SpelledBy (t.1.node i).kind t.2.2) ∧
    takesReport (s.withNow 8) 5 [0, 1, 0] = true := by
  refine ⟨fun t ht => ?_, by decide +kernel⟩
  simp only [List.mem_cons, List.not_mem_nil, or_false] at ht
  rcases ht with rfl | rfl | rfl | rfl | rfl | rfl | rfl <;>
    exact ⟨by decide +kernel, untaken_report (by decide +kernel)⟩

/-- Reports of the three kinds at the ends of their fields, the unnamed bits of their flags bytes set. -/
theorem test_hyps_ReportUpdatesTheRecord_spelled :
    (Report.jack 16777215 255 false).SpelledBy .jack [255, 255, 255, 255, 0xFE] ∧
    (Report.jack 0 0 true).SpelledBy .jack [0, 0, 0, 0, 1] ∧
    (Report.outlet true false true 65535 255).SpelledBy .outlet [0xFB, 255, 255, 255] ∧
    (Report.outlet false true false 0 0).SpelledBy .outlet [4, 0, 0, 0] ∧
    (Report.sensor (-32768) true).SpelledBy .sensor [0x80, 0, 0xFF] ∧
    (Report.sensor 32767 false).SpelledBy .sensor [0x7F, 255, 0] := by
  simp only [← Laws.parseReport_iff]
  decide

/-- The window of an exchange with a slot that RESTART has made void. -/
def voidWindow (k : ExchangeKind) (i : Slot) : State :=
  deck.withRing (some { deck.requestFor k i 0x01 [] with phase := .window 8, discarded := true })

/-- The windows of ReportUpdatesTheRecord, AcksEndExchanges and RelayRepliesAndDiscards that RESTART has made void. -/
theorem test_hyps_ReportUpdatesTheRecord_void :
    ∀ p ∈ [(ExchangeKind.sweepPoll 4, (4 : Slot), (5 : Byte)), (.outletPoll 4, 4, 5), (.demand 1, 1, 2),
        (.openOutlet .a 0 7, 0, 1), (.closeOutlet .a 0 7 false, 0, 1), (.relay 3 0 4, 0, 1)],
      (voidWindow p.1 p.2.1).running = true ∧ ∃ x, (voidWindow p.1 p.2.1).Takes p.2.2 x ∧ x.discarded = true ∧
        x.kind = p.1 := by
  intro p hp
  simp only [List.mem_cons, List.not_mem_nil, or_false] at hp
  rcases hp with rfl | rfl | rfl | rfl | rfl | rfl <;>
    exact ⟨by decide +kernel, _, ⟨rfl, ⟨8, rfl, by decide +kernel⟩, by decide +kernel⟩, rfl, rfl⟩

/-- An ACK or a RELAY_BACK after the window, from another address, in another exchange, with a payload, with another tag
and with a result that is too long. -/
theorem test_hyps_AcksEndExchanges_untaken :
    (∀ t ∈ [((windowOf (.demand 1) 1).withNow 9, (2 : Byte)), (windowOf (.demand 1) 1, 3), (deck, 2),
        (windowOf (.outletPoll 1) 1, 2)], t.1.running = true ∧ ∀ x i, t.1.Takes t.2 x → x.kind ≠ .demand i) ∧
    (∀ x i, (windowOf (.demand 1) 1).Takes 2 x → x.kind = .demand i → [(0 : Byte)] ≠ []) := by
  refine ⟨fun t ht => ?_, fun _ _ _ _ => by decide⟩
  have h : ((t.1.openWindow t.2).all fun x => match x.kind with
      | .demand _ => false
      | _ => true) = true := by
    simp only [List.mem_cons, List.not_mem_nil, or_false] at ht
    rcases ht with rfl | rfl | rfl | rfl <;> decide +kernel
  refine ⟨?_, fun x i hx hk => ?_⟩
  · simp only [List.mem_cons, List.not_mem_nil, or_false] at ht
    rcases ht with rfl | rfl | rfl | rfl <;> decide +kernel
  · rw [(Laws.openWindow_iff _ _ _).2 hx] at h
    simp [hk] at h

theorem test_hyps_RelayRepliesAndDiscards_untaken :
    ∀ payload ∈ [[], [5, 1], 4 :: List.replicate 65 (0 : Byte)], ∀ x i target tag result, relayWindow.Takes 1 x →
      x.kind = .relay i target tag → payload = u8 tag :: result → 64 < result.length := by
  intro payload hp x i target tag result hx hk he
  obtain rfl : x = { deck.requestFor (.relay 3 0 4) 0 0x01 [] with phase := .window 8 } := Option.some.inj hx.1.symm
  obtain ⟨-, -, rfl⟩ : (3 : RelayIx) = i ∧ (0 : Slot) = target ∧ 4 = tag := by injection hk with a b c; exact ⟨a, b, c⟩
  simp only [List.mem_cons, List.not_mem_nil, or_false] at hp
  rcases hp with rfl | rfl | rfl
  · simp at he
  · exact absurd (List.cons.inj he).1 (by decide)
  · rw [← (List.cons.inj he).2]; decide

/-- For DispatchRequestsBegin, AcksEndExchanges and SilenceIsRetriedThenMissed, a DEMAND on the ring whose dispatch has been
abandoned: at the last moment of its window it may be acknowledged or miss, and none begins in HOLD, or in TRIM with a change
to HOLD under way. -/
theorem test_hyps_DispatchRequestsBegin_abandoned :
    let s := (missing (.demand 1) 1 .stale 2).withDispatch Dispatch.idle
    (s.running = true ∧ s.now = 8 ∧ (∃ x ∈ s.ring, x.kind = .demand 1 ∧ x.phase = .window 8 ∧ (2 : Byte).toNat = x.address ∧
      x.discarded = false ∧ x.retry = true) ∧ s.dispatch.state ≠ .demanding ∧ (s.node 1).kind = .jack) ∧
    (((dispatching .demanding).withMode .hold).mode ≠ .climb ∧ ((dispatching .demanding).withMode .hold).mode ≠ .trim) ∧
    (let t := (dispatching .goReady).withTransit { deck.transit with dispatchModes := [change .trim .hold] }
     ∃ m ∈ t.transit.dispatchModes, m.new ≠ .climb ∧ m.new ≠ .trim) := by
  refine ⟨⟨by decide +kernel, by decide +kernel, ⟨_, rfl, rfl, rfl, by decide +kernel, rfl, rfl⟩, by decide, by decide +kernel⟩,
    by decide, ⟨_, List.mem_singleton.2 rfl, by decide⟩⟩

/-- What bars DEMAND and GO: a busy ring, the poll of a running sweep, a sweep that may start; and a running sweep whose
cursor is absent, which bars neither. -/
theorem test_hyps_DispatchRequestsBegin_waits :
    (∀ x ∈ [DispatchState.demanding, .goReady], let s := dispatching x
      s.running = true ∧ (s.withRing (sendingOf .go).ring).ring ≠ none ∧
      (s.withSweep { s.sweep with running := true, cursor := some 0 }).SweepServes ∧
      ¬ (s.withSweep { s.sweep with running := true, cursor := none }).SweepServes) ∧
    (dispatching .idle).SweepServes ∧ (dispatching .idle).dispatch.state ≠ .demanding ∧
    (dispatching .window).dispatch.state ≠ .goReady := by decide +kernel

/-- R27: the abandoned DEMAND's ACK, and its miss, update the record and free the ring, and the dispatch stays IDLE. -/
theorem test_abandoned_demand :
    let s := (missing (.demand 1) 1 .stale 2).withDispatch Dispatch.idle
    (∃ t, exec (.demandAck 2 []) s = .next t ∧ t.ring = none ∧ (t.record 1).state = .active ∧ t.dispatch = Dispatch.idle) ∧
    (∃ t, exec .replyWindowExpiry s = .next t ∧ t.ring = none ∧ (t.record 1).state = .lost ∧ t.dispatch = Dispatch.idle) :=
  ⟨⟨_, rfl, by decide +kernel⟩, ⟨_, rfl, by decide +kernel⟩⟩

/-- R6, R18: a report in a void window frees the ring and changes nothing else, a late one changes nothing. -/
theorem test_late_and_void_reports :
    (∃ t, exec (.ringReport 5 [0, 1, 0]) (voidWindow (.outletPoll 4) 4) = .next t ∧
      t = (voidWindow (.outletPoll 4) 4).withRing none) ∧
    (∃ t, exec (.ringReport 5 [0, 1, 0]) ((windowOf (.outletPoll 4) 4).withNow 9) = .next t ∧
      t = (windowOf (.outletPoll 4) 4).withNow 9) :=
  ⟨⟨_, rfl, by decide +kernel⟩, ⟨_, rfl, by decide +kernel⟩⟩

/-! ### Stroke verification and the rise mode -/

/-- The expecting deck with a short counter of slot 1 and a record of JACK_SHORT. -/
def shortened (n : Nat) (r : CondRecord) : State :=
  withCond ((expecting true).setRecord 1 { NodeRecord.fresh with shortCounter := n }) .jackShort r

/-- A short stroke at a counter of 2 reaches the limit, a full one at 3 ends it, and one at 15 changes no counter; a raise
in each mode. -/
theorem test_hyps_StrokesAreVerified_short :
    deck.params.shortLimit = 3 ∧
    (let s := shortened 2 CondRecord.initial
     let t := s.verifyStroke 1 1069 (some 1000)
     (t.record 1).shortCounter ≠ (s.record 1).shortCounter ∧ (s.condition .jackShort).source = false ∧
     (s.node 1).enabled = true ∧ (s.node 1).kind = .jack ∧ s.params.shortLimit ≤ (t.record 1).shortCounter ∧
     ∀ k, k < (1 : Slot) → (s.node k).kind ≠ .jack) ∧
    (let s := shortened 3 { stands with state := .raised }
     let t := s.verifyStroke 1 1070 (some 1000)
     (t.record 1).shortCounter ≠ (s.record 1).shortCounter ∧ (s.condition .jackShort).source = true ∧
     ∀ j, (t.record j).shortCounter = 0) ∧
    (let s := shortened 15 stands
     ((s.verifyStroke 1 1069 (some 1000)).record 1).shortCounter = (s.record 1).shortCounter) ∧
    (deck.condition .jackSlip).state = .idle ∧ (deck.withMode .hold).mode = .hold ∧ deck.mode ≠ .climb := by
  decide +kernel

/-- A deck in HOLD that expects a stroke, channel A in OPEN with its OPEN confirmed and channel B in WAIT. -/
def slipping : State :=
  let x : ChannelContext := { ChannelContext.initial with
    state := .opened, current := some 0, working := some copy, tag := 7, openConfirmed := true }
  (((expecting true).withMode .hold).setChannel .a x).setChannel .b
    { x with state := .wait, blockReason := .segmentBusy, blockedSince := some 0, blockTimer := some 120000 }

/-- The slipping deck as JACK_SLIP has taken the mode to HALT, before the channels stop. -/
def slipped : State := (slipping.raise .jackSlip (some 1)).setExpectation 1 none

/-- Chapter 6, the worked sequence at 160 (R35, R102): the slip of a jack in HOLD halts the deck and hands the change on, and
in the same event channel A is CLOSING with cause HALT and sends its CLOSE, and channel B is STOPPED. -/
theorem test_slip_halts : let t := slipping.verifyStroke 1 979 (some 1000)
    t.mode = .halt ∧ t.transit = deck.transit.handed { old := .hold, new := .halt, moment := 0 } ∧
    (t.channel .a).state = .closing ∧ (t.channel .a).closeCause = some .halt ∧ (t.channel .a).closeSent = true ∧
    (t.channel .b).state = .stopped ∧ (t.channel .b).blockReason = .none ∧
    t.feed.waiting.map (fun e => (e.isOpen, e.channel, e.tag)) = [(false, .a, 7)] := by
  have h : slipping.verifyStroke 1 979 (some 1000) = slipped.bothChannels fun c t => t.stopChannel c .halt := by
    rw [show slipping.verifyStroke 1 979 (some 1000) = slipped.haltFeed .hold from rfl]
    exact if_pos (by decide +kernel)
  rw [h, State.bothChannels]
  cases Config.channelBFirst slipped.free <;> decide +kernel

/-- The two states of test_slip_halts meet HaltInv's and StrokesAreVerified's hypotheses: a slip that halts, one that finds
JACK_SLIP UNCLEARED, and one in IDLE. -/
theorem test_hyps_StrokesAreVerified_halts :
    ((979 : Nat) : Int) - (1000 : Nat) < -(slipping.params.slipTol : Int) ∧ (slipping.condition .jackSlip).state = .idle ∧
    slipping.mode = .hold ∧ (slipped.condition .jackSlip).state ≠ .idle ∧ deck.mode = .idle := by decide +kernel

theorem test_hyps_StepsKeepTheModeInvariant_halt :
    (let s := (channelIn .a .closing).setChannel .a { (channelIn .a .closing).channel .a with closeCause := some .halt }
     (s.withMode .halt).HaltInv ∧ ∃ t, step (s.withMode .halt) = .next t) ∧
    (slipping.HaltInv ∧ ∃ t, step slipping = .next t) := by
  refine ⟨⟨⟨fun _ c => ?_, fun c => ?_, fun x hx => by cases hx⟩, _, rfl⟩,
    ⟨fun h => absurd h (by decide +kernel), fun c => ?_, fun x hx => by cases hx⟩, _, rfl⟩ <;> cases c <;> decide +kernel

/-! ### The order of service -/

/-- The deck's sweep at a due time, with a dispatch in a state and cycle results on their way to it. -/
def dueAt (t : Nat) (x : DispatchState) (rs : List CycleResult) : State :=
  ((deck.withSweep { deck.sweep with dueAt := t }).withDispatch { deck.dispatch with state := x }).withTransit
    { deck.transit with dispatchResults := rs }

/-- Each test of R12 fails by itself: the ring busy, a sweep that runs, one due a millisecond later, a dispatch in a stroke
window, a result on its way to the dispatcher. -/
theorem test_hyps_SweepStarts_waits :
    (∀ s ∈ [windowOf (.outletPoll 0) 0, deck.withSweep { deck.sweep with running := true, cursor := some 0 },
        dueAt 1 .idle [], dueAt 0 .window [], dueAt 0 .idle [cycleAt 0]], s.running = true ∧ ¬ (s.ring = none ∧ s.SweepMayStart)) ∧
    (dueAt 0 .idle []).SweepMayStart := by decide +kernel

/-- A poll is due while the ring is busy, or while each higher rank serves; and none is due a millisecond before. -/
theorem test_hyps_PollsBegin_waits :
    (let s := pollDue.withRing (some (deck.requestFor (.relay 0 0 1) 0 0x08 []))
     s.ring ≠ none ∧ s.PollServes) ∧
    (let s := pollDue.withSweep deck.sweep
     s.SweepServes ∧ s.PollServes) ∧
    (∀ x ∈ [DispatchState.demanding, .goReady], let s := (pollDue.withMode .climb).withDispatch (dispatching x).dispatch
     ¬ s.SweepServes ∧ s.DispatchServes ∧ s.PollServes ∧
     ¬ (s.withMode .hold).DispatchServes ∧
     ¬ (s.withTransit { deck.transit with dispatchModes := [change .climb .hold] }).DispatchServes) ∧
    (let s := pollDue.withFeed (queued [waits .a true 0]).feed
     s.feed.waiting ≠ [] ∧ s.PollServes) ∧
    ¬ (pollDue.setRecord 0 { NodeRecord.fresh with pollDue := some 1 }).PollServes ∧ ¬ calm.PollServes ∧
    deck.sweep.running = false ∧ deck.running = true := by
  refine ⟨?_, ?_, fun x hx => ?_, ?_, ?_, ?_, ?_, ?_⟩
  case refine_3 =>
    simp only [List.mem_cons, List.not_mem_nil, or_false] at hx
    rcases hx with rfl | rfl <;> refine ⟨?_, ?_, ?_, ?_, ?_⟩ <;> decide +kernel
  all_goals decide +kernel

/-- The deck with a queued relay to a jack, in a stroke window or not, with changes of mode on their way to the Relay Unit. -/
def jackRelay (x : DispatchState) (ms : List ModeChange) : State :=
  (((calm.setRelaySlot 3 (some { relayIn 1 .queued with target := 1 })).withDispatch (dispatching x).dispatch)).withTransit
    { deck.transit with relayModes := ms }

/-- A relay to a jack waits for the ring but in a stroke window and under an entry into CLIMB; a relay waits behind an
OPEN and behind a due poll. -/
theorem test_hyps_FeedAndRelayExchangesBegin_waits :
    (jackRelay .idle []).RelayServes 3 ∧ (jackRelay .idle [change .climb .trim]).RelayServes 3 ∧
    (∀ s ∈ [jackRelay .window [], jackRelay .idle [change .hold .climb], deck], ∀ i, ¬ s.RelayServes i) ∧
    (let s := pollDue.withRelays (relaying [.queued]).relays
     s.RelayServes 0 ∧ s.PollServes) ∧
    (let s := (queued [waits .a true 0]).withRelays (relaying [.queued]).relays
     s.RelayServes 0 ∧ s.feed.waiting ≠ []) ∧
    (let s := (deck.withFeed (queued [waits .a true 0]).feed)
     s.SweepServes ∧ s.running = true) := by
  refine ⟨?_, ?_, ?_, ?_, ?_, ?_⟩ <;> decide +kernel

/-- An OPEN is not begun where a CLOSE waits longer or nothing waits, nor a CLOSE where an OPEN waits longer. -/
theorem test_hyps_FeedAndRelayExchangesBegin_first : ∀ o ∈ [true, false],
    ∀ xs ∈ [[waits .a o 0, waits .b (!o) 1], []], ∀ x, (∃ before after, (queued xs).feed.waiting = before ++ x :: after ∧
      (∀ y ∈ before, x.since < y.since ∨ (x.since = y.since ∧ x.channel = .a ∧ y.channel = .b)) ∧
      (∀ y ∈ after, x.since < y.since ∨ (x.since = y.since ∧ (x.channel = .a ∨ y.channel = .b)))) → x.isOpen = o := by
  rintro o - xs hxs x ⟨before, after, h, hb, -⟩
  have h : xs = before ++ x :: after := h
  simp only [List.mem_cons, List.not_mem_nil, or_false] at hxs
  rcases hxs with rfl | rfl
  · cases before with
    | nil => rw [← (List.cons.inj h).1]; rfl
    | cons y ys =>
      obtain ⟨e, h⟩ := List.cons.inj h
      rw [← e] at hb
      cases ys with
      | nil =>
        rw [← (List.cons.inj h).1] at hb
        exact absurd (hb (waits .a o 0) (by simp)) (by simp [waits])
      | cons z zs => simpa using congrArg List.length h
  · cases before <;> cases h

/-- The steps that may not begin change nothing: an OPEN while the ring is busy, an outlet poll while a sweep may start, a
sweep in a stroke window. -/
theorem test_nothing_begins :
    (∃ t, exec .openExchange ((queued [waits .a true 0]).withRing (some (deck.requestFor (.relay 0 0 1) 0 0x08 []))) = .next t ∧
      t.feed.waiting = [waits .a true 0]) ∧
    (∃ t, exec .outletPoll (pollDue.withSweep deck.sweep) = .next t ∧ t.ring = none) ∧
    (∃ t, exec .sweepStart (dueAt 0 .window []) = .next t ∧ t.sweep.running = false) :=
  ⟨⟨_, rfl, by decide +kernel⟩, ⟨_, rfl, by decide +kernel⟩, ⟨_, rfl, by decide +kernel⟩⟩

/-! ### Sources, timers before their time, and two channels at one outlet -/

/-- CONSOLE_SILENT with its source active: STANDING as the last condition in HOLD, beside another, and RAISED. -/
theorem test_hyps_CommandsRestartTheSilenceTimer_active :
    (let s := withCond (deck.withMode .hold) .consoleSilent stands
     (s.condition .consoleSilent).source = true ∧ (s.condition .consoleSilent).state = .standing ∧ s.mode = .hold ∧
     ((withCond s .greenExit stands).condition .greenExit).state ≠ .idle ∧
     ∀ d : Cond, d ≠ .consoleSilent → d.cls = .hold ∨ d.cls = .halt → (s.condition d).state = .idle) ∧
    ((withCond deck .consoleSilent { stands with state := .raised }).condition .consoleSilent).source = true := by
  refine ⟨⟨by decide +kernel, by decide +kernel, by decide +kernel, by decide +kernel, ?_⟩, by decide +kernel⟩
  intro d
  cases d <;> decide +kernel

/-- The lowest LOST or FAULTED jack and no other lost node; the lowest TRIPPED monitor of a class, and none of the other. -/
theorem test_hyps_AcksEndExchanges_lowest :
    let s := ((deck.setRecord 2 { NodeRecord.fresh with state := .faulted }).setRecord 3 { NodeRecord.fresh with state := .lost })
    LowestOf (fun j => (s.node j).enabled = true ∧ (s.node j).kind = .jack ∧
      ((s.record j).state = .lost ∨ (s.record j).state = .faulted)) (some 2) ∧
    LowestOf (fun j => (s.node j).enabled = true ∧ (s.node j).kind ≠ .jack ∧ (s.record j).state = .lost) none := by
  unfold LowestOf
  decide +kernel

theorem test_hyps_MonitorsJudge_lowest :
    let s := (watching .rising).setMonitorRecord 7 { MonitorRecord.initial with tripped := true }
    let tripped (cls : MonitorClass) (m : MonitorIx) :=
      (s.monitor m).enabled = true ∧ (s.monitor m).cls = cls ∧ (s.monitorRecord m).tripped = true
    LowestOf (tripped .hold) (some 7) ∧ LowestOf (tripped .note) none ∧
    ∀ m, ((watching .rising).monitor m).enabled = true → ((watching .rising).monitor m).sensor ≠ 3 := by
  unfold LowestOf
  decide +kernel

/-- The details of JACK_LOST and NODE_LOST (R10). -/
theorem test_lowest_lost_slot :
    let s := (((deck.setRecord 2 { NodeRecord.fresh with state := .faulted }).setRecord 3
      { NodeRecord.fresh with state := .lost }).setRecord 4 { NodeRecord.fresh with state := .lost }).evaluateNodes
    (s.condition .jackLost).detail = some 2 ∧ (s.condition .nodeLost).detail = some 4 := by decide +kernel

/-- A reply window one millisecond before its end, a request still on the line, and no exchange. -/
theorem test_hyps_SilenceIsRetriedThenMissed_early :
    ∀ s ∈ [(windowOf (.outletPoll 0) 0).withNow 7, (sendingOf (.sweepPoll 1)).withNow 8, deck], s.running = true ∧
      ∀ x ends, s.ring = some x → x.phase = .window ends → s.now < ends := by
  intro s hs
  simp only [List.mem_cons, List.not_mem_nil, or_false] at hs
  rcases hs with rfl | rfl | rfl
  · refine ⟨by decide +kernel, fun x ends h k => ?_⟩
    obtain rfl := Option.some.inj h
    obtain rfl : 8 = ends := by injection k
    decide +kernel
  · refine ⟨by decide +kernel, fun x ends h k => ?_⟩
    obtain rfl := Option.some.inj h
    cases k
  · exact ⟨by decide +kernel, fun x ends h => by cases h⟩

/-- A dwell, a pause and a block timer one millisecond before their time. -/
theorem test_hyps_FeedTimersExpire_early :
    let f (x : ChannelContext) : ChannelContext := { x with
      dwellEndsAt := some 1, pause := some { endsAt := 1, kind := .resume }, blockTimer := some 1 }
    (∀ ends ∈ ((channelWith .opened f).channel .a).dwellEndsAt, (channelWith .opened f).now < ends) ∧
    (∀ p ∈ ((channelWith .paused f).channel .a).pause, (channelWith .paused f).now < p.endsAt) ∧
    (∀ ends ∈ ((channelWith .wait f).channel .a).blockTimer, (channelWith .wait f).now < ends) ∧
    ((channelWith .idle f).channel .a).state ≠ .wait ∧ (channelWith .wait f).running = true := by decide +kernel

/-- FEED_JAM's detail is 1 for channel B, 0 for A and for both (R99). -/
theorem test_jam_detail :
    let x : ChannelContext := { ChannelContext.initial with
      state := .wait, current := some 0, working := some copy, blockReason := .notReady, blockedSince := some 0
      blockTimer := some 0 }
    ((deck.setChannel .b x).evaluateJam.condition .feedJam).detail = some 1 ∧
    ((deck.setChannel .a x).evaluateJam.condition .feedJam).detail = some 0 ∧
    (((deck.setChannel .a x).setChannel .b x).evaluateJam.condition .feedJam).detail = some 0 := by decide +kernel

/-- A change to HALT that arrives in HALT, and one that arrives when the mode has left it. -/
theorem test_hyps_FeedArrivals_halt :
    let s (m : RiseMode) := (bothIn .closing .stopped (change .climb .halt)).withMode m
    (∀ m ∈ [RiseMode.halt, .idle], (s m).running = true ∧ (s m).mode = m ∧
      (s m).transit.feedModes = change .climb .halt :: []) ∧ (change .climb .halt).new = .halt := by decide +kernel

/-- A sweep that drew no reply in CLIMB, and a spread above halt_band. -/
theorem test_hyps_ComputationsFollowTheHeights_halt :
    (let s := climbing.withSweep { climbing.sweep with replies := [] }
     s.mode = .climb ∧ s.sweep.polled ≠ [] ∧ s.sweep.replies = [] ∧ (s.evaluate .ringDown true none).mode = .halt) ∧
    (climbing.evaluate .levelLimit true none).mode = .halt ∧
    (climbing.level.rateClock = some 0 ∧ climbing.params.haltBand = 400) := by decide +kernel

/-- Both channels work on one outlet: channel A is in OPEN on it and channel B waits for it, or both wait. -/
theorem test_hyps_AnEndCompletesTheOpening_both : ∀ x ∈ [ChannelState.opened, .closing, .wait],
    let s := bothIn x .wait (change .idle .climb)
    (s.channel .a).working = some copy ∧ (s.channel .b).working = some copy ∧ copy.outlet = 0 ∧
    (s.channel .a).state = x ∧ (s.channel .b).state = .wait := by decide +kernel

/-! ### Openings that RESTART closes -/

/-- Both channels in OPEN in one segment whose queue holds `n` records, with litres delivered. -/
def closing (n : Nat) : State :=
  let x : ChannelContext := { ChannelContext.initial with
    state := .opened, current := some 0, working := some copy, tag := 7, delivered := 5 }
  ((deck.setChannel .a x).setChannel .b { x with working := some { copy with outlet := 5 }, delivered := 3 }).setWall 0
    (layered n)

theorem test_hyps_RestartKeepsAndResets_both : ∀ n ∈ [0, 15, 16],
    (closing n).running = true ∧ ((closing n).wall copy.segment).Form (closing n).pourClock ∧
    ((closing n).segment copy.segment).enabled = true ∧
    (∀ c ∈ [Channel.a, .b], ((closing n).channel c).state = .opened ∧ 0 < ((closing n).channel c).delivered ∧
      ∃ w ∈ ((closing n).channel c).working, w.segment = copy.segment) := by
  intro n hn
  have hw : (closing n).wall copy.segment = layered n := by
    show Table.read (Table.write deck.walls 0 (layered n)) 0 = layered n
    simp
  rw [hw]
  simp only [List.mem_cons, List.not_mem_nil, or_false] at hn
  rcases hn with rfl | rfl | rfl <;> refine ⟨by decide +kernel, ?_, by decide +kernel, by decide +kernel⟩ <;>
    simp [SegmentLive.Form, layered, topsRise, timesRise, List.range_succ, SegmentLive.initial]

/-- R67, R68, R103: 5 litres of channel A and 3 of channel B into 100 cm² make two records of 5,000 and 3,000 tm, or merge
into the youngest of 16. -/
theorem test_restart_places_both :
    (∃ t, exec (.restart 1 []) (closing 0) = .next t ∧
      (t.wall 0).queue.map (fun l => (l.top, l.litres, l.source)) = [(5000, 5, .a), (8000, 3, .b)]) ∧
    (∃ t, exec (.restart 1 []) (closing 16) = .next t ∧ (t.wall 0).queue.length = 16 ∧
      ((t.wall 0).queue.getLast?.map fun l => (l.top, l.litres, l.source)) = some (8016, 9, .b)) :=
  ⟨⟨_, rfl, by decide +kernel⟩, ⟨_, rfl, by decide +kernel⟩⟩

/-! ### Hand-offs of the rise mode and of the beacon -/

theorem test_hyps_HoldAndRelease_modes :
    (((deck.withMode .climb).silenceReset.condition .manualHold).state = .idle ∧ (deck.withMode .climb).silenceReset.mode = .climb) ∧
    (deck.silenceReset.mode ≠ .climb ∧ deck.silenceReset.mode ≠ .trim) := by decide +kernel

/-- The silence timer before its time and at it, in CLIMB, in HALT, not evaluated, and with the source active; a stroke
window and a relay result one millisecond before their time, and none. -/
theorem test_hyps_PlainTimersExpire_edges :
    (let s := (deck.withMode .climb).withConsole { deck.console with silence := { latestValid := 0, evaluated := true } }
     (s.withNow 9999).now < (s.withNow 9999).console.silence.latestValid + (s.withNow 9999).params.silenceMs ∧
     s.mode = .climb ∧ (s.condition .consoleSilent).state = .idle ∧ s.params.silenceMs = 10000) ∧
    (deck.console.silence.evaluated = false ∧ (deck.withMode .halt).mode = .halt ∧
      ((withCond deck .consoleSilent stands).condition .consoleSilent).source = true) ∧
    (∀ ends ∈ ((dispatching .window).withNow 7999).dispatch.windowEndsAt, 7999 < ends) ∧ deck.dispatch.state ≠ .window ∧
    (∀ x ∈ [RelayState.queued, .done], ∀ y ∈ ((relaying [x]).withNow 29999).relaySlot 0, ∀ done ∈ y.completion,
      29999 < done + 30000) ∧ deck.relaySlot 0 = none := by decide +kernel

/-- A state with two computations in the Beacon Builder: the older has both hand-offs, the younger none. -/
def building : State :=
  (handing .climb (cycleAt 12003) (change .idle .climb)).withJobs
    [{ result := cycleAt 0, clock := 0, summary := some [], marker := some none },
     { result := cycleAt 0, clock := 0, summary := none, marker := none }]

/-- The hand-offs of PlacementResultRetires and MarkersFire, and the builder of BeaconsAreBuilt that waits. -/
theorem test_hyps_PlacementResultRetires_beacon :
    (∃ before j after, building.jobs = before ++ j :: after ∧ (∀ x ∈ before, x.summary ≠ none ∧ x.marker ≠ none) ∧
      j.summary = none ∧ j.marker = none) ∧
    (∀ j js, (building.withJobs building.jobs.tail).jobs = j :: js → j.summary = none ∨ j.marker = none) ∧
    (∀ x ∈ deck.jobs, x.summary ≠ none ∧ x.marker ≠ none) := by
  refine ⟨⟨[_], _, [], rfl, ?_, rfl, rfl⟩, fun j js h => ?_, ?_⟩
  · intro x hx
    obtain rfl := List.mem_singleton.1 hx
    exact ⟨nofun, nofun⟩
  · obtain ⟨rfl, -⟩ := List.cons.inj h
    exact .inl rfl
  · intro x hx
    cases hx

end Sys2Proof.Tests
end

section
/-! PROOFS. Placement queues keep the form of R66 (O7), part 1: one queue. What the form says of appended queues, and that
placement, retirement, the green-exited flags, a segment reset and the pour clock keep it. -/

namespace Sys2Proof.Proofs

open Sys2Proof Sys2Proof.Machine Sys2Proof.Laws

/-! ## Rising tops and times -/

/-- Tops that rise along a queue in two parts rise along each, and the second begins where the first ends. -/
theorem topsRise_append (bottom top : Nat) (ls ms : List Layer) :
    topsRise bottom (ls ++ ms) top ↔ ∃ m, topsRise bottom ls m ∧ topsRise m ms top := by
  induction ls generalizing bottom with
  | nil => simp [topsRise]
  | cons l ls ih => simp [topsRise, ih, and_assoc]

theorem topsRise_singleton (bottom top : Nat) (l : Layer) :
    topsRise bottom [l] top ↔ bottom < l.top ∧ l.top = top := Iff.rfl

/-- Rising tops are a fact about the tops alone. -/
theorem topsRise_congr (bottom top : Nat) {ls ms : List Layer} (h : ls.map Layer.top = ms.map Layer.top) :
    topsRise bottom ls top ↔ topsRise bottom ms top := by
  induction ls generalizing bottom ms with
  | nil =>
    obtain rfl := List.map_eq_nil_iff.1 h.symm
    rfl
  | cons l ls ih =>
    obtain ⟨m, ms, rfl, hm, hms⟩ := List.map_eq_cons_iff.1 h.symm
    simp only [topsRise, hm, ih _ hms.symm]

/-- `timesRise` in the library's words. -/
theorem timesRise_iff (clock : Nat) (ls : List Layer) :
    timesRise clock ls ↔ (∀ l ∈ ls, l.placedAt ≤ clock) ∧ ls.Pairwise fun l m => l.placedAt ≤ m.placedAt := by
  induction ls with
  | nil => simp [timesRise]
  | cons l ls ih =>
    rw [timesRise, ih, List.forall_mem_cons, List.pairwise_cons]
    tauto

/-- Rising times are a fact about the times alone. -/
theorem timesRise_congr (clock : Nat) {ls ms : List Layer} (h : ls.map Layer.placedAt = ms.map Layer.placedAt) :
    timesRise clock ls ↔ timesRise clock ms := by
  have key (q : List Layer) : timesRise clock q ↔
      (∀ t ∈ q.map Layer.placedAt, t ≤ clock) ∧ (q.map Layer.placedAt).Pairwise (· ≤ ·) := by
    rw [timesRise_iff, List.forall_mem_map, List.pairwise_map]
  rw [key, key, h]

/-- What is left of a queue keeps its rising times. -/
theorem timesRise_sublist (clock : Nat) {ls ms : List Layer} (h : ls.Sublist ms) (k : timesRise clock ms) :
    timesRise clock ls := by
  rw [timesRise_iff] at k ⊢
  exact ⟨fun l hl => k.1 l (h.subset hl), k.2.sublist h⟩

/-- A record placed now may stand behind every record of a queue. -/
theorem timesRise_append_now {clock : Nat} {ls : List Layer} {l : Layer} (h : timesRise clock ls)
    (hl : l.placedAt = clock) : timesRise clock (ls ++ [l]) := by
  rw [timesRise_iff] at h ⊢
  obtain ⟨bound, sorted⟩ := h
  simp only [List.forall_mem_append, List.pairwise_append, List.forall_mem_singleton, hl]
  exact ⟨⟨bound, le_refl _⟩, sorted, List.pairwise_singleton _ _, bound⟩

/-! ## Changes of a queue that keep its form -/

/-- The form stays as the pour clock advances (R64). -/
theorem form_mono {w : SegmentLive} {clock later : Nat} (h : w.Form clock) (k : clock ≤ later) : w.Form later := by
  obtain ⟨short, tops, times⟩ := h
  rw [timesRise_iff] at times
  exact ⟨short, tops, (timesRise_iff _ _).2 ⟨fun l hl => (times.1 l hl).trans k, times.2⟩⟩

/-- The form is a fact about base, top and the tops and times of the records: flags, litres and claims do not matter. -/
theorem form_congr {w x : SegmentLive} {clock : Nat} (h : w.Form clock) (base : x.base = w.base) (top : x.top = w.top)
    (tops : x.queue.map Layer.top = w.queue.map Layer.top)
    (times : x.queue.map Layer.placedAt = w.queue.map Layer.placedAt) : x.Form clock := by
  obtain ⟨short, rising, sorted⟩ := h
  have same : x.queue.length = w.queue.length := by simpa using congrArg List.length tops
  exact ⟨same ▸ short, by rwa [base, top, topsRise_congr _ _ tops], (timesRise_congr _ times).2 sorted⟩

/-- A queue that is not empty ends in its youngest record, whose top is the concrete top. -/
theorem topsRise_getLast {bottom top : Nat} {q : List Layer} {l : Layer} (h : topsRise bottom q top)
    (hl : q.getLast? = some l) : ∃ m, topsRise bottom q.dropLast m ∧ m < l.top ∧ l.top = top := by
  rw [← List.dropLast_append_getLast? l hl, topsRise_append] at h
  simpa [topsRise_singleton] using h

/-- A placement that gains height keeps the form, in a queue with a free place and in a full one (R67, R68). -/
theorem placeLayer_form {w : SegmentLive} {clock gain : Nat} (v : Nat) (source : LayerSource)
    (descriptor : Option DescriptorIx) (h : w.Form clock) (hg : 0 < gain) :
    ({ w with top := w.top + gain, queue := placeLayer w.queue w.top gain clock v source descriptor } : SegmentLive).Form
      clock := by
  obtain ⟨short, tops, times⟩ := h
  unfold placeLayer
  split
  · next room =>
    refine ⟨?_, (topsRise_append _ _ _ _).2 ⟨w.top, tops, ?_⟩, timesRise_append_now times rfl⟩
    · rw [List.length_append]
      exact Nat.succ_le_of_lt room
    · exact (topsRise_singleton _ _ _).2 ⟨Nat.lt_add_of_pos_right hg, rfl⟩
  · next full =>
    split
    · next l hl =>
      obtain ⟨m, rising, below, top⟩ := topsRise_getLast tops hl
      refine ⟨?_, (topsRise_append _ _ _ _).2 ⟨m, rising, (topsRise_singleton _ _ _).2 ⟨?_, ?_⟩⟩, ?_⟩
      · simp only [List.length_append, List.length_dropLast, List.length_singleton]
        omega
      · exact Nat.lt_add_right gain below
      · exact congrArg (· + gain) top
      · exact timesRise_append_now (timesRise_sublist clock (List.dropLast_sublist _) times) rfl
    · next empty =>
      rw [List.getLast?_eq_none_iff.1 empty] at full
      exact absurd (by decide) full

/-- A placement keeps the form (R67, R68). -/
theorem placed_form {w : SegmentLive} {clock : Nat} (area v : Nat) (source : LayerSource)
    (descriptor : Option DescriptorIx) (h : w.Form clock) : (w.placed area v clock source descriptor).Form clock := by
  unfold SegmentLive.placed
  dsimp only
  split
  · next flat => exact form_congr h rfl (by simp [flat]) rfl rfl
  · next gains => exact form_congr (placeLayer_form v source descriptor h (Nat.pos_of_ne_zero gains)) rfl rfl rfl rfl

/-- Retirement takes whole records and moves the base to the top of the last of them, so tops rise from there (R73). -/
theorem retire_topsRise (b : Int) (clock setAge base top : Nat) (queue : List Layer) (h : topsRise base queue top) :
    topsRise (retire b clock setAge base queue).1 (retire b clock setAge base queue).2.1 top := by
  induction queue generalizing base with
  | nil => exact h
  | cons l ls ih =>
    unfold retire
    split
    · exact ih l.top h.2
    · exact h

/-- Retirement keeps the form (R73). -/
theorem retire_form {w : SegmentLive} {clock : Nat} (b : Int) (setAge : Nat) (h : w.Form clock) :
    ({ w with base := (retire b clock setAge w.base w.queue).1
              queue := (retire b clock setAge w.base w.queue).2.1 } : SegmentLive).Form clock := by
  obtain ⟨short, tops, times⟩ := h
  have left : (retire b clock setAge w.base w.queue).2.1.Sublist w.queue := by
    rw [retire_queue]
    exact List.dropWhile_sublist _
  exact ⟨left.length_le.trans short, retire_topsRise _ _ _ _ _ _ tops, timesRise_sublist clock left times⟩

/-- The records beside their bottoms are the queue. -/
theorem withBottoms_map_snd (base : Nat) (queue : List Layer) : (withBottoms base queue).map Prod.snd = queue := by
  induction queue generalizing base with
  | nil => rfl
  | cons l ls ih => simp [withBottoms, ih]

/-- Flags leave every other field of the records (R74). -/
theorem flagGreen_map {α : Type} (f : Layer → α) (hf : ∀ l : Layer, f l.flagged = f l) (b : Int)
    (clock setAge base : Nat) (queue : List Layer) : (flagGreen b clock setAge base queue).map f = queue.map f := by
  have each : ∀ p : Nat × Layer, f (if foundGreen b clock setAge p.1 p.2 then p.2.flagged else p.2) = f p.2 := by
    intro p
    split
    · exact hf p.2
    · rfl
  conv_rhs => rw [← withBottoms_map_snd base queue]
  simp only [flagGreen, List.map_map, Function.comp_def, each]

/-- A flag on the youngest record leaves every other field of the records (R69). -/
theorem flagYoungest_map {α : Type} (f : Layer → α) (hf : ∀ l : Layer, f l.flagged = f l) {base bottom : Nat}
    {queue : List Layer} {l : Layer} (h : (withBottoms base queue).getLast? = some (bottom, l)) :
    (queue.dropLast ++ [l.flagged]).map f = queue.map f := by
  have last : queue.getLast? = some l := by
    rw [← withBottoms_map_snd base queue, List.getLast?_map, h]
    rfl
  conv_rhs => rw [← List.dropLast_append_getLast? l last]
  simp [hf]

/-- A commit keeps the form: a segment reset empties the queue with base and top equal (R63). -/
theorem committed_form {w : SegmentLive} {clock : Nat} (old new : SegmentEntry) (h : w.Form clock) :
    (w.committed old new).Form clock := by
  unfold SegmentLive.committed
  split
  · exact ⟨Nat.zero_le _, rfl, trivial⟩
  · exact h

end Sys2Proof.Proofs
end

section
/-! PROOFS. Placement queues keep the form of R66 (O7), part 2: the relation that every operation of the running part is
shown to be in, and the operations block by block, in the order of the model. -/

namespace Sys2Proof.Proofs

open Sys2Proof Sys2Proof.Machine Sys2Proof.Laws

/-! ## The relation -/

/-- The pour clock stays, and every segment's queue that has its form keeps it. -/
structure FormKept (s t : State) : Prop where
  clock : t.pourClock = s.pourClock
  form : ∀ k, (s.wall k).Form s.pourClock → (t.wall k).Form s.pourClock

/-- What keeps every form keeps the invariant of the wall. -/
theorem FormKept.wallInv {s t : State} (h : FormKept s t) (hs : s.WallInv) : t.WallInv := by
  obtain ⟨bound, forms⟩ := hs
  exact ⟨h.clock ▸ bound, fun k => h.clock ▸ h.form k (forms k)⟩

/-- An operation of other blocks leaves the wall and the pour clock. -/
theorem FormKept.same {s t : State} (walls : t.walls = s.walls) (clock : t.pourClock = s.pourClock) : FormKept s t :=
  ⟨clock, fun k h => wall_congr walls k ▸ h⟩

theorem FormKept.refl (s : State) : FormKept s s := .same rfl rfl

theorem FormKept.trans {s t u : State} (h : FormKept s t) (k : FormKept t u) : FormKept s u :=
  ⟨k.clock.trans h.clock, fun i hi => h.clock ▸ k.form i (h.clock.symm ▸ h.form i hi)⟩

/-! ## Updates of the other blocks -/

theorem withPower_formKept (s : State) (x : Power) : FormKept s (s.withPower x) := .same rfl rfl
theorem withFree_formKept (s : State) (x : Nat) : FormKept s (s.withFree x) := .same rfl rfl
theorem withNow_formKept (s : State) (x : Nat) : FormKept s (s.withNow x) := .same rfl rfl
theorem withPending_formKept (s : State) (x : List Instr) : FormKept s (s.withPending x) := .same rfl rfl
theorem withRecords_formKept (s : State) (x : Table NodeRecord 128) : FormKept s (s.withRecords x) := .same rfl rfl
theorem withExpectations_formKept (s : State) (x : Table (Option Expectation) 128) :
    FormKept s (s.withExpectations x) := .same rfl rfl
theorem withSweep_formKept (s : State) (x : Sweep) : FormKept s (s.withSweep x) := .same rfl rfl
theorem withRing_formKept (s : State) (x : Option Exchange) : FormKept s (s.withRing x) := .same rfl rfl
theorem withDispatch_formKept (s : State) (x : Dispatch) : FormKept s (s.withDispatch x) := .same rfl rfl
theorem withLevel_formKept (s : State) (x : LevelUnit) : FormKept s (s.withLevel x) := .same rfl rfl
theorem withPlacementSeen_formKept (s : State) (x : Option CycleResult) : FormKept s (s.withPlacementSeen x) := .same rfl rfl
theorem withFeed_formKept (s : State) (x : Feed) : FormKept s (s.withFeed x) := .same rfl rfl
theorem withConditions_formKept (s : State) (x : Conditions) : FormKept s (s.withConditions x) := .same rfl rfl
theorem withMonitors_formKept (s : State) (x : Monitors) : FormKept s (s.withMonitors x) := .same rfl rfl
theorem withMarkers_formKept (s : State) (x : Markers) : FormKept s (s.withMarkers x) := .same rfl rfl
theorem withCommand_formKept (s : State) (x : CommandUnit) : FormKept s (s.withCommand x) := .same rfl rfl
theorem withParams_formKept (s : State) (x : Params) : FormKept s (s.withParams x) := .same rfl rfl
theorem withAgents_formKept (s : State) (x : Agents) : FormKept s (s.withAgents x) := .same rfl rfl
theorem withConsole_formKept (s : State) (x : Console) : FormKept s (s.withConsole x) := .same rfl rfl
theorem withRelays_formKept (s : State) (x : Relays) : FormKept s (s.withRelays x) := .same rfl rfl
theorem withTransit_formKept (s : State) (x : Transit) : FormKept s (s.withTransit x) := .same rfl rfl
theorem withJobs_formKept (s : State) (x : List BeaconJob) : FormKept s (s.withJobs x) := .same rfl rfl

/-! ## Updates of the wall, and compound updates -/

/-- One segment's live state is replaced by one whose queue has its form. -/
theorem setWall_formKept (s : State) (k : SegmentIx) (w : SegmentLive)
    (h : (s.wall k).Form s.pourClock → w.Form s.pourClock) : FormKept s (s.setWall k w) := by
  refine ⟨rfl, fun j hj => ?_⟩
  by_cases e : j = k
  · subst e
    rw [wall_setWall_same]
    exact h hj
  · rwa [wall_setWall_other _ _ e]

/-- Every segment's live state is replaced by one whose queue has its form. -/
theorem tabulate_formKept (s : State) (f : SegmentIx → SegmentLive)
    (h : ∀ k, (s.wall k).Form s.pourClock → (f k).Form s.pourClock) : FormKept s (s.withWalls (Table.tabulate f)) := by
  refine ⟨withWalls_pourClock _ _, fun k hk => ?_⟩
  rw [State.wall, withWalls_walls, table_read_tabulate]
  exact h k hk

/-- A run of operations, one for each member of a list. -/
theorem foldl_formKept {α : Type} (f : State → α → State) (h : ∀ s x, FormKept s (f s x)) (xs : List α) (s : State) :
    FormKept s (xs.foldl f s) := by
  induction xs generalizing s with
  | nil => exact .refl s
  | cons x xs ih => exact (h s x).trans (ih _)

/-- An event of both channels, in either order. -/
theorem bothChannels_formKept (s : State) (f : Channel → State → State) (h : ∀ c t, FormKept t (f c t)) :
    FormKept s (s.bothChannels f) :=
  (withFree_formKept s _).trans ((h _ _).trans (h _ _))

/-! ## Conditions and the rise mode -/

theorem changeMode_formKept (s : State) (m : RiseMode) : FormKept s (s.changeMode m) := by
  rw [changeMode_frame]
  exact .same rfl rfl

theorem raise_formKept (s : State) (c : Cond) (d : Option Nat) : FormKept s (s.raise c d) := by
  rw [raise_frame]
  exact .same rfl rfl

theorem evaluate_formKept (s : State) (c : Cond) (a : Bool) (d : Option Nat) : FormKept s (s.evaluate c a d) := by
  rw [evaluate_frame]
  exact .same rfl rfl

theorem acknowledge_formKept (s : State) (c : Cond) : FormKept s (s.acknowledge c) := by
  rw [acknowledge_frame]
  exact .same rfl rfl

theorem releaseManual_formKept (s : State) : FormKept s s.releaseManual := by
  rw [releaseManual_frame]
  exact .same rfl rfl

theorem haltFeed_formKept (s : State) (before : RiseMode) : FormKept s (s.haltFeed before) :=
  .same (haltFeed_walls s before) (haltFeed_pourClock s before)

/-! ## The Console Port and the Beacon Builder -/

theorem reply_formKept (s : State) (seq code : Byte) (o : OutcomeCode) (fields : List Field) :
    FormKept s (s.reply seq code o fields) := .same rfl rfl

theorem rejectFrame_formKept (s : State) (f : RxFrame) : FormKept s (s.rejectFrame f) := by
  unfold State.rejectFrame
  split <;> exact .same rfl rfl

theorem silenceReset_formKept (s : State) : FormKept s s.silenceReset := by
  rw [silenceReset_frame]
  exact .same rfl rfl

theorem silenceExpiry_formKept (s : State) : FormKept s s.silenceExpiry := by
  unfold State.silenceExpiry
  split
  · exact evaluate_formKept s _ _ _
  · exact .refl s

theorem buildBeacon_formKept (s : State) : FormKept s s.buildBeacon := by
  unfold State.buildBeacon
  split
  · exact .refl s
  · split <;> exact .same rfl rfl

theorem sendForward_formKept (s : State) (r : ForwardRecord) (rest : List ForwardRecord) :
    FormKept s (s.sendForward r rest) := by
  unfold State.sendForward
  dsimp only
  split <;> exact .same rfl rfl

theorem consoleSend_formKept (s : State) : FormKept s s.consoleSend := by
  unfold State.consoleSend
  split
  · exact .refl s
  · exact .same rfl rfl
  · exact .same rfl rfl
  · exact .same rfl rfl
  · exact sendForward_formKept s _ _
  · exact .refl s

theorem offerReport_formKept (s : State) (i : Slot) (k : NodeKind) (p : Option Nat) (r : Report) :
    FormKept s (s.offerReport i k p r) := by
  rw [offerReport_frame]
  exact .same rfl rfl

/-! ## The Placement Store (R63, R67 to R69, R73, R74) -/

theorem raiseGreen_formKept (s : State) (k : SegmentIx) (n : Nat) : FormKept s (s.raiseGreen k n) := by
  rw [raiseGreen_frame]
  exact .same (raiseGreen_walls s k n) rfl

/-- The check of a placement's record flags it, and leaves its top and its time. -/
theorem checkYoungest_formKept (s : State) (k : SegmentIx) : FormKept s (s.checkYoungest k) := by
  unfold State.checkYoungest
  dsimp only
  split
  · next youngest =>
    split
    · refine (setWall_formKept s k _ fun h => ?_).trans (raiseGreen_formKept _ k 1)
      exact form_congr h rfl rfl (flagYoungest_map _ (fun _ => rfl) youngest) (flagYoungest_map _ (fun _ => rfl) youngest)
    · exact .refl s
  · exact .refl s

theorem takePlacement_formKept (s : State) (k : SegmentIx) (v : Nat) (source : LayerSource)
    (d : Option DescriptorIx) : FormKept s (s.takePlacement k v source d) := by
  have placed := setWall_formKept s k _ (placed_form (s.segment k).area v source d)
  unfold State.takePlacement
  dsimp only
  split
  · split
    · exact placed
    · exact placed.trans (checkYoungest_formKept _ k)
  · exact .refl s

theorem retireSegment_formKept (b : Int) (s : State) (k : SegmentIx) : FormKept s (s.retireSegment b k) := by
  unfold State.retireSegment
  dsimp only
  split
  · refine (setWall_formKept s k _ fun h => ?_).trans (raiseGreen_formKept _ k _)
    exact form_congr (retire_form b s.params.setAgeS h) rfl rfl (flagGreen_map _ (fun _ => rfl) _ _ _ _ _)
      (flagGreen_map _ (fun _ => rfl) _ _ _ _ _)
  · exact .refl s

theorem retireAll_formKept (s : State) (r : CycleResult) : FormKept s (s.retireAll r) := by
  unfold State.retireAll
  split
  · exact foldl_formKept _ (retireSegment_formKept _) _ s
  · exact .refl s

theorem placementResult_formKept (s : State) (r : CycleResult) : FormKept s (s.placementResult r) :=
  ((withPlacementSeen_formKept s _).trans (retireAll_formKept _ r)).trans (withJobs_formKept _ _)

theorem commitWalls_formKept (s : State) (old : Table SegmentEntry 32) : FormKept s (s.commitWalls old) :=
  tabulate_formKept s _ fun k => committed_form (old.read k) (s.segment k)

/-! ## The Feed Chain Engine -/

/-- Steps of the engine move claims on the wall, and nothing else of it. -/
theorem engine_formKept {s t : State} (h : EngineStep s t) : FormKept s t := by
  obtain ⟨frame, -, -, content⟩ := h
  unfold FeedFrame at frame
  refine ⟨by rw [frame]; rfl, fun k hk => ?_⟩
  rw [content k]
  exact form_congr hk rfl rfl rfl rfl

theorem channel_formKept {c : Channel} {s t : State} (h : ChannelStep c s t) : FormKept s t := engine_formKept h.engine

theorem setChannel_formKept (s : State) (c : Channel) (x : ChannelContext) : FormKept s (s.setChannel c x) :=
  withFeed_formKept s _

theorem queueExchange_formKept (s : State) (x : FeedExchange) : FormKept s (s.queueExchange x) := withFeed_formKept s _

theorem releaseClaims_formKept (s : State) (c : Channel) (w : WorkingCopy) : FormKept s (s.releaseClaims c w) :=
  engine_formKept (releaseClaims_step s c w)

theorem openTest_formKept (s : State) (c : Channel) : FormKept s (s.openTest c) := channel_formKept (openTest_step s c)

theorem finishDescriptor_formKept (s : State) (c : Channel) : FormKept s (s.finishDescriptor c) :=
  channel_formKept (finishDescriptor_step s c)

theorem askClose_formKept (s : State) (c : Channel) (k : CloseCause) : FormKept s (s.askClose c k) :=
  channel_formKept (askClose_step s c k)

theorem fullTest_formKept (s : State) (c : Channel) : FormKept s (s.fullTest c) := channel_formKept (fullTest_step s c)

theorem stopChannel_formKept (s : State) (c : Channel) (k : CloseCause) : FormKept s (s.stopChannel c k) :=
  channel_formKept (stopChannel_step s c k)

theorem evaluateJam_formKept (s : State) : FormKept s s.evaluateJam := evaluate_formKept s _ _ _

theorem place_formKept (s : State) (k : SegmentIx) (v : Nat) (source : LayerSource) (d : Option DescriptorIx)
    (maker : Option Channel) : FormKept s (s.place k v source d maker) := by
  have placed := takePlacement_formKept s k v source d
  unfold State.place
  dsimp only
  split
  · exact placed.trans (bothChannels_formKept _ _ fun c t => channel_formKept (segmentPlacedFor_step k maker c t))
  · exact placed

theorem placeDelivered_formKept (s : State) (c : Channel) (w : WorkingCopy) : FormKept s (s.placeDelivered c w) := by
  unfold State.placeDelivered
  dsimp only
  split
  · exact .refl s
  · exact place_formKept s _ _ _ _ _

theorem pauseToResume_formKept (s : State) (c : Channel) : FormKept s (s.pauseToResume c) := by
  unfold State.pauseToResume
  split
  · exact channel_formKept (endPause_step s c _)
  · exact .same rfl rfl

theorem feedShort_formKept (s : State) (c : Channel) : FormKept s (s.feedShort c) := by
  unfold State.feedShort
  dsimp only
  refine .trans ?_ (finishDescriptor_formKept _ c)
  exact (setChannel_formKept s c _).trans (raise_formKept _ _ _)

theorem afterOpening_formKept (s : State) (c : Channel) : FormKept s (s.afterOpening c) := by
  unfold State.afterOpening
  dsimp only
  split
  · exact .same rfl rfl
  · exact .same rfl rfl
  · exact finishDescriptor_formKept s c
  · exact feedShort_formKept s c
  · exact finishDescriptor_formKept s c
  · exact pauseToResume_formKept s c
  · exact pauseToResume_formKept s c
  · exact pauseToResume_formKept s c

theorem completeOpening_formKept (s : State) (c : Channel) (w : WorkingCopy) : FormKept s (s.completeOpening c w) := by
  have ended := (placeDelivered_formKept s c w).trans (releaseClaims_formKept _ c w)
  have continued (t : State) (x : ChannelContext) : FormKept t ((t.setChannel c x).afterOpening c).evaluateJam :=
    ((setChannel_formKept t c x).trans (afterOpening_formKept _ c)).trans (evaluateJam_formKept _)
  exact ended.trans (continued _ _)

theorem openingFault_formKept (s : State) (c : Channel) (w : WorkingCopy) : FormKept s (s.openingFault c w) := by
  unfold State.openingFault
  dsimp only
  refine .trans ?_ (evaluateJam_formKept _)
  refine .trans ?_ (setChannel_formKept _ c _)
  refine .trans ?_ (raise_formKept _ _ _)
  refine .trans ?_ (releaseClaims_formKept _ c w)
  refine .trans ?_ (channel_formKept (withdrawExchanges_step _ c c))
  exact (placeDelivered_formKept s c w).trans (setChannel_formKept _ c _)

theorem outletRemoved_formKept (s : State) (c : Channel) (w : WorkingCopy) : FormKept s (s.outletRemoved c w) := by
  have released := (channel_formKept (withdrawExchanges_step s c c)).trans (releaseClaims_formKept _ c w)
  unfold State.outletRemoved
  dsimp only
  refine released.trans ?_
  split
  · exact .same rfl rfl
  · exact .same rfl rfl
  · exact (setChannel_formKept _ c _).trans (finishDescriptor_formKept _ c)

theorem judgeOutletReport_formKept (s : State) (c : Channel) (w : WorkingCopy) (ready ended fault : Bool)
    (delivered tag : Nat) : FormKept s (s.judgeOutletReport c w ready ended fault delivered tag) := by
  have counted := setChannel_formKept s c { s.channel c with delivered := delivered }
  unfold State.judgeOutletReport
  dsimp only
  split
  · exact openingFault_formKept s c w
  · split
    · exact .refl s
    · refine counted.trans ?_
      split
      · exact completeOpening_formKept _ c w
      · split
        · split
          · exact fullTest_formKept _ c
          · exact askClose_formKept _ c _
        · exact .refl _

theorem outletReportFor_formKept (before : State) (slot : Slot) (report : Report) (c : Channel) (s : State) :
    FormKept s (State.outletReportFor before slot report c s) := by
  unfold State.outletReportFor
  dsimp only
  split
  · split
    · split
      · exact judgeOutletReport_formKept s c _ _ _ _ _ _
      · exact judgeOutletReport_formKept s c _ _ _ _ _ _
      · exact openTest_formKept s c
      · exact .refl s
    · exact .refl s
  · exact .refl s

theorem outletStateFor_formKept (before : State) (slot : Slot) (openMiss : Bool) (c : Channel) (s : State) :
    FormKept s (State.outletStateFor before slot openMiss c s) := by
  have lost : ∀ w, FormKept s (if (s.record slot).state = .lost ∧ !openMiss then s.openingFault c w else s) := by
    intro w
    split
    · exact openingFault_formKept s c w
    · exact .refl s
  unfold State.outletStateFor
  dsimp only
  split
  · split
    · split
      · exact openTest_formKept s c
      · exact lost _
      · exact lost _
      · exact .refl s
    · exact .refl s
  · exact .refl s

theorem openAcked_formKept (s : State) (c : Channel) (tag : Nat) : FormKept s (s.openAcked c tag) := by
  unfold State.openAcked
  dsimp only
  split
  · exact .refl s
  · split <;> exact .same rfl rfl

theorem openMissed_formKept (s : State) (c : Channel) (tag : Nat) : FormKept s (s.openMissed c tag) := by
  have queued : ∀ w, FormKept s ((s.releaseClaims c w).queueExchange ((s.releaseClaims c w).closeOf c w true)) :=
    fun w => (releaseClaims_formKept s c w).trans (queueExchange_formKept _ _)
  have stopped : ∀ (t : State) x, FormKept t (t.setChannel c x).evaluateJam :=
    fun t x => (setChannel_formKept t c x).trans (evaluateJam_formKept _)
  unfold State.openMissed
  dsimp only
  split
  · exact .refl s
  · split
    · exact ((queued _).trans (channel_formKept (resumeWait_step _ c))).trans (evaluateJam_formKept _)
    · split
      · exact (queued _).trans (stopped _ _)
      · exact (queued _).trans (stopped _ _)
      · exact ((queued _).trans (finishDescriptor_formKept _ c)).trans (evaluateJam_formKept _)
    · exact .refl s

theorem closeMissed_formKept (s : State) (c : Channel) (tag : Nat) (stray : Bool) :
    FormKept s (s.closeMissed c tag stray) := by
  unfold State.closeMissed
  dsimp only
  split
  · split <;> exact .same rfl rfl
  · exact .refl s

theorem feedResult_formKept (s : State) (r : CycleResult) : FormKept s (s.feedResult r) := by
  have tested (t : State) : FormKept t (t.bothChannels State.feedResultFor) :=
    bothChannels_formKept t _ fun c u => (openTest_formKept u c).trans (fullTest_formKept _ c)
  exact ((withFeed_formKept s _).trans (tested _)).trans (evaluateJam_formKept _)

theorem feedMode_formKept (s : State) (m : ModeChange) : FormKept s (s.feedMode m) := by
  refine (bothChannels_formKept s _ fun c t => ?_).trans (evaluateJam_formKept _)
  unfold State.feedModeFor
  split
  · exact stopChannel_formKept t c _
  · exact openTest_formKept t c

theorem commitChannelFor_formKept (before : State) (nodes : Table NodeEntry 128) (segments : Table SegmentEntry 32)
    (c : Channel) (s : State) : FormKept s (State.commitChannelFor before nodes segments c s) := by
  unfold State.commitChannelFor
  dsimp only
  split
  · exact .refl s
  · split
    · exact openTest_formKept s c
    · split
      · exact outletRemoved_formKept s c _
      · split
        · exact askClose_formKept s c _
        · exact .refl s
    · split
      · exact outletRemoved_formKept s c _
      · exact .refl s
    · exact .refl s

theorem commitFeed_formKept (s : State) (nodes : Table NodeEntry 128) (segments : Table SegmentEntry 32) :
    FormKept s (s.commitFeed nodes segments) := by
  unfold State.commitFeed
  dsimp only
  refine FormKept.trans ?_ (evaluateJam_formKept _)
  refine FormKept.trans ?_ (withFeed_formKept _ _)
  exact (withFeed_formKept s _).trans (bothChannels_formKept _ _ (commitChannelFor_formKept _ nodes segments))

/-! ## Markers, monitors and the feed's timers -/

theorem fireMarker_formKept (s : State) (i : MarkerIx) : FormKept s (s.fireMarker i) := by
  have acts (t : State) : ∀ a, FormKept t (t.markerAction i a)
    | .hold => raise_formKept t _ _
    | .rate _ => withParams_formKept t _
    | .feedStop c => stopChannel_formKept t c _
  exact (withMarkers_formKept s _).trans (acts _ _)

theorem markerResult_formKept (s : State) (r : CycleResult) : FormKept s (s.markerResult r) :=
  (foldl_formKept _ fireMarker_formKept _ s).trans (withJobs_formKept _ _)

theorem evaluateMonitors_formKept (s : State) : FormKept s s.evaluateMonitors :=
  (evaluate_formKept s _ _ _).trans (evaluate_formKept _ _ _ _)

theorem judgeValue_formKept (s : State) (slot : Slot) (v : Int) : FormKept s (s.judgeValue slot v) := by
  unfold State.judgeValue
  split
  · exact .refl s
  · refine (foldl_formKept _ (fun t i => ?_) _ s).trans (evaluateMonitors_formKept _)
    exact withMonitors_formKept t _

theorem sensorStateChanged_formKept (s : State) (slot : Slot) (new : NodeState) :
    FormKept s (s.sensorStateChanged slot new) := by
  unfold State.sensorStateChanged
  split
  · exact .refl s
  · refine (foldl_formKept _ (fun t i => ?_) _ s).trans (evaluateMonitors_formKept _)
    split <;> exact .same rfl rfl

theorem commitMonitors_formKept (s : State) (old : Table MonitorEntry 8) : FormKept s (s.commitMonitors old) :=
  (withMonitors_formKept s _).trans (evaluateMonitors_formKept _)

theorem pauseExpiry_formKept (s : State) (c : Channel) : FormKept s (s.pauseExpiry c) := by
  unfold State.pauseExpiry
  split
  · split
    · exact (channel_formKept (endPause_step s c _)).trans (evaluateJam_formKept _)
    · exact .refl s
  · exact .refl s

theorem dwellExpiry_formKept (s : State) (c : Channel) : FormKept s (s.dwellExpiry c) := by
  unfold State.dwellExpiry
  split
  · exact askClose_formKept s c _
  · exact .refl s

theorem blockExpiry_formKept (s : State) (c : Channel) : FormKept s (s.blockExpiry c) := by
  unfold State.blockExpiry
  split
  · exact openTest_formKept s c
  · exact .refl s

end Sys2Proof.Proofs
end

section
/-! PROOFS. Placement queues keep the form of R66 (O7), part 3: the computation, the commit, the sweep, the console
commands and the ring, then every step. -/

namespace Sys2Proof.Proofs

open Sys2Proof Sys2Proof.Machine Sys2Proof.Laws

/-! ## Node records and stroke verification -/

theorem setRecord_formKept (s : State) (i : Slot) (r : NodeRecord) : FormKept s (s.setRecord i r) :=
  withRecords_formKept s _

theorem evaluateNodes_formKept (s : State) : FormKept s s.evaluateNodes :=
  (evaluate_formKept s _ _ _).trans (evaluate_formKept _ _ _ _)

theorem evaluateShort_formKept (s : State) : FormKept s s.evaluateShort := evaluate_formKept s _ _ _

theorem setShort_formKept (s : State) (i : Slot) (n : Nat) : FormKept s (s.setShort i n) := by
  rw [setShort_frame]
  exact .same rfl rfl

theorem standardCheck_formKept (s : State) (i : Slot) (achieved : Int) (expected : Nat) :
    FormKept s (s.standardCheck i achieved expected) := by
  unfold State.standardCheck
  dsimp only
  split
  · exact raise_formKept s _ _
  · split
    · exact raise_formKept s _ _
    · split <;> exact setShort_formKept s i _

theorem tolerantCheck_formKept (s : State) (i : Slot) (achieved : Int) (d : Nat) :
    FormKept s (s.tolerantCheck i achieved d) := by
  unfold State.tolerantCheck
  dsimp only
  split
  · exact raise_formKept s _ _
  · split
    · exact raise_formKept s _ _
    · exact .refl s

theorem verifyStroke_formKept (s : State) (i : Slot) (height : Nat) (previous : Option Nat) :
    FormKept s (s.verifyStroke i height previous) := by
  unfold State.verifyStroke
  dsimp only
  refine .trans ?_ (haltFeed_formKept _ _)
  refine .trans ?_ (withExpectations_formKept _ _)
  split
  · exact .refl s
  · split
    · exact standardCheck_formKept s i _ _
    · split
      · exact standardCheck_formKept s i _ _
      · exact tolerantCheck_formKept s i _ _

theorem recomputeDue_formKept (s : State) : FormKept s s.recomputeDue := by
  unfold State.recomputeDue
  split
  · exact withSweep_formKept s _
  · exact .refl s

/-! ## The computation and the commit (R14) -/

theorem handTests_formKept (s : State) (mode : RiseMode) (r : CycleResult) : FormKept s (s.handTests mode r) := by
  unfold State.handTests
  dsimp only
  have tested : FormKept s (((s.evaluate .quorum (s.quorumActive r.n) none).evaluate .levelLimit
      (decide (r.spread > s.params.haltBand)) none).haltFeed s.mode) :=
    ((evaluate_formKept s _ _ _).trans (evaluate_formKept _ _ _ _)).trans (haltFeed_formKept _ _)
  split
  · exact tested
  · exact tested.trans (withTransit_formKept _ _)

theorem publish_formKept (s : State) (r : CycleResult) : FormKept s (s.publish r) := .same rfl rfl

theorem compute_formKept (s : State) : FormKept s s.compute := by
  unfold State.compute
  dsimp only
  refine .trans ?_ (publish_formKept _ _)
  refine .trans ?_ (handTests_formKept _ _ _)
  exact (withTransit_formKept s _).trans (withFree_formKept _ _)

theorem applyEdit_formKept (s : State) (e : Edit) : FormKept s (s.applyEdit e) := by
  cases e <;> exact .same rfl rfl

theorem commitDue_formKept (s : State) (old : Params) : FormKept s (s.commitDue old) := by
  unfold State.commitDue
  split
  · exact .refl s
  · exact recomputeDue_formKept s

/-- Of the blocks that act on a commit application, in their order, the wall alone changes what is in a queue. -/
theorem applyCommit_formKept (s : State) : FormKept s s.applyCommit := by
  have edited : FormKept s s.prospective := foldl_formKept _ applyEdit_formKept _ s
  have recorded (t : State) : FormKept t (t.commitRecords s.nodes) :=
    (withRecords_formKept t _).trans (withExpectations_formKept _ _)
  have done (t : State) : FormKept t t.commitDone := (withCommand_formKept t _).trans (withConsole_formKept _ _)
  unfold State.applyCommit
  dsimp only
  refine .trans ?_ (done _)
  refine .trans ?_ (withRelays_formKept _ _)
  refine .trans ?_ (withAgents_formKept _ _)
  refine .trans ?_ (withParams_formKept _ _)
  refine .trans ?_ (withMarkers_formKept _ _)
  refine .trans ?_ (commitMonitors_formKept _ _)
  refine .trans ?_ (commitFeed_formKept _ _ _)
  refine .trans ?_ (commitWalls_formKept _ _)
  refine .trans ?_ (commitDue_formKept _ _)
  refine .trans ?_ (evaluateShort_formKept _)
  exact (edited.trans (recorded _)).trans (evaluateNodes_formKept _)

theorem commitAtComplete_formKept (s : State) : FormKept s s.commitAtComplete := by
  unfold State.commitAtComplete
  split
  · exact (applyCommit_formKept s).trans (withSweep_formKept _ _)
  · exact .refl s

/-! ## The sweep (R12 to R15) -/

theorem sweepComplete_formKept (s : State) : FormKept s s.sweepComplete := by
  unfold State.sweepComplete
  dsimp only
  refine .trans ?_ (compute_formKept _)
  refine .trans ?_ (commitAtComplete_formKept _)
  refine .trans ?_ (evaluateMonitors_formKept _)
  refine .trans ?_ (haltFeed_formKept _ _)
  exact (withSweep_formKept s _).trans (evaluate_formKept _ _ _ _)

theorem advanceSweep_formKept (s : State) (i : Slot) : FormKept s (s.advanceSweep i) := by
  unfold State.advanceSweep
  split
  · exact withSweep_formKept s _
  · exact sweepComplete_formKept s

theorem startSweep_formKept (s : State) : FormKept s s.startSweep := by
  have late (t : State) : FormKept t (if s.startsLate then t.raise .cycleLate none else t) := by
    split
    · exact raise_formKept t _ _
    · exact .refl t
  have started (x : Sweep) (y : Console) :
      FormKept s (if s.startsLate then ((s.withSweep x).withConsole y).raise .cycleLate none
        else (s.withSweep x).withConsole y) :=
    ((withSweep_formKept s x).trans (withConsole_formKept _ y)).trans (late _)
  unfold State.startSweep
  dsimp only
  split
  · exact (started _ _).trans (sweepComplete_formKept _)
  · exact started _ _

/-! ## Console commands (R157) -/

theorem whenRunning_formKept (s : State) (f : State → State) (h : ∀ t, FormKept t (f t)) :
    FormKept s (s.whenRunning f) := by
  unfold State.whenRunning
  split
  · exact h s
  · exact .refl s

theorem onCommand_formKept (s : State) (f : State → State) (h : ∀ t, FormKept t (f t)) : FormKept s (s.onCommand f) :=
  whenRunning_formKept s _ fun t => (silenceReset_formKept t).trans (h _)

theorem takeStatus_formKept (s : State) (seq : Byte) (args : List Byte) : FormKept s (s.takeStatus seq args) := by
  unfold State.takeStatus
  split <;> exact reply_formKept s _ _ _ _

theorem takeRead_formKept (s : State) (seq : Byte) (args : List Byte) : FormKept s (s.takeRead seq args) := by
  unfold State.takeRead
  split
  · split
    · split <;> exact reply_formKept s _ _ _ _
    · exact reply_formKept s _ _ _ _
  · exact reply_formKept s _ _ _ _

theorem takeWrite_formKept (s : State) (seq : Byte) (args : List Byte) : FormKept s (s.takeWrite seq args) := by
  unfold State.takeWrite
  dsimp only
  split
  · exact reply_formKept s _ _ _ _
  · split
    · exact reply_formKept s _ _ _ _
    · split
      · exact (withCommand_formKept s _).trans (reply_formKept _ _ _ _ _)
      · exact reply_formKept s _ _ _ _

theorem takeDiscard_formKept (s : State) (seq : Byte) (args : List Byte) : FormKept s (s.takeDiscard seq args) := by
  unfold State.takeDiscard
  split
  · split
    · exact reply_formKept s _ _ _ _
    · exact (withCommand_formKept s _).trans (reply_formKept _ _ _ _ _)
  · exact reply_formKept s _ _ _ _

theorem takeCommit_formKept (s : State) (seq : Byte) (args : List Byte) : FormKept s (s.takeCommit seq args) := by
  unfold State.takeCommit
  split
  · split
    · exact reply_formKept s _ _ _ _
    · split
      · exact reply_formKept s _ _ _ _
      · exact (withCommand_formKept s _).trans (reply_formKept _ _ _ _ _)
  · exact reply_formKept s _ _ _ _

theorem dueAtOnce_formKept (s : State) : FormKept s s.dueAtOnce := by
  unfold State.dueAtOnce
  split
  · exact .refl s
  · exact (withSweep_formKept s _).trans (withTransit_formKept _ _)

theorem takeStart_formKept (s : State) (seq : Byte) (args : List Byte) : FormKept s (s.takeStart seq args) := by
  unfold State.takeStart
  dsimp only
  split
  · refine .trans (.trans ?_ (dueAtOnce_formKept _)) (reply_formKept _ _ _ _ _)
    split
    · exact changeMode_formKept s _
    · exact .refl s
  · exact reply_formKept s _ _ _ _

theorem takeStop_formKept (s : State) (seq : Byte) (args : List Byte) : FormKept s (s.takeStop seq args) := by
  unfold State.takeStop
  split
  · exact (changeMode_formKept s _).trans (reply_formKept _ _ _ _ _)
  · exact reply_formKept s _ _ _ _

theorem takeHold_formKept (s : State) (seq : Byte) (args : List Byte) : FormKept s (s.takeHold seq args) := by
  unfold State.takeHold
  split
  · exact (evaluate_formKept s _ _ _).trans (reply_formKept _ _ _ _ _)
  · exact reply_formKept s _ _ _ _

theorem takeRelease_formKept (s : State) (seq : Byte) (args : List Byte) : FormKept s (s.takeRelease seq args) := by
  unfold State.takeRelease
  split
  · exact (releaseManual_formKept s).trans (reply_formKept _ _ _ _ _)
  · exact reply_formKept s _ _ _ _

theorem takeSetRate_formKept (s : State) (seq : Byte) (args : List Byte) : FormKept s (s.takeSetRate seq args) := by
  unfold State.takeSetRate
  split
  · exact (withParams_formKept s _).trans (reply_formKept _ _ _ _ _)
  · exact reply_formKept s _ _ _ _

theorem takeAck_formKept (s : State) (seq : Byte) (args : List Byte) : FormKept s (s.takeAck seq args) := by
  unfold State.takeAck
  dsimp only
  split
  · split
    · exact reply_formKept s _ _ _ _
    · split
      · exact reply_formKept s _ _ _ _
      · exact (acknowledge_formKept s _).trans (reply_formKept _ _ _ _ _)
  · exact reply_formKept s _ _ _ _

theorem takePoll_formKept (s : State) (seq : Byte) (args : List Byte) : FormKept s (s.takePoll seq args) := by
  unfold State.takePoll
  split <;> exact reply_formKept s _ _ _ _

theorem takeMask_formKept (s : State) (seq : Byte) (args : List Byte) : FormKept s (s.takeMask seq args) := by
  unfold State.takeMask
  dsimp only
  split
  · split
    · exact (withConditions_formKept s _).trans (reply_formKept _ _ _ _ _)
    · exact reply_formKept s _ _ _ _
  · exact reply_formKept s _ _ _ _

theorem startChannel_formKept (s : State) (c : Channel) (d : DescriptorIx) : FormKept s (s.startChannel c d) :=
  ((setChannel_formKept s c _).trans (channel_formKept (loadAndTest_step _ c d))).trans (evaluateJam_formKept _)

theorem takeFeedStart_formKept (s : State) (seq : Byte) (args : List Byte) : FormKept s (s.takeFeedStart seq args) := by
  unfold State.takeFeedStart
  split
  · split
    · split
      · exact reply_formKept s _ _ _ _
      · split
        · exact reply_formKept s _ _ _ _
        · split
          · exact (startChannel_formKept s _ _).trans (reply_formKept _ _ _ _ _)
          · exact reply_formKept s _ _ _ _
    · exact reply_formKept s _ _ _ _
  · exact reply_formKept s _ _ _ _

theorem takeFeedStop_formKept (s : State) (seq : Byte) (args : List Byte) : FormKept s (s.takeFeedStop seq args) := by
  unfold State.takeFeedStop
  split
  · split
    · exact (stopChannel_formKept s _ _).trans (reply_formKept _ _ _ _ _)
    · exact reply_formKept s _ _ _ _
  · exact reply_formKept s _ _ _ _

theorem takePlace_formKept (s : State) (seq : Byte) (args : List Byte) : FormKept s (s.takePlace seq args) := by
  unfold State.takePlace
  dsimp only
  split
  · split
    · split
      · exact (place_formKept s _ _ _ _ _).trans (reply_formKept _ _ _ _ _)
      · exact reply_formKept s _ _ _ _
    · exact reply_formKept s _ _ _ _
  · exact reply_formKept s _ _ _ _

theorem collectRelay_formKept (s : State) (seq : Byte) (i : RelayIx) (x : RelaySlot) :
    FormKept s (s.collectRelay seq i x) := by
  unfold State.collectRelay
  split
  · exact reply_formKept s _ _ _ _
  · exact reply_formKept s _ _ _ _
  · exact (withRelays_formKept s _).trans (reply_formKept _ _ _ _ _)
  · exact (withRelays_formKept s _).trans (reply_formKept _ _ _ _ _)

theorem newRelay_formKept (s : State) (seq : Byte) (tag : Nat) (target : Slot) (payload : List Byte) :
    FormKept s (s.newRelay seq tag target payload) := by
  unfold State.newRelay
  dsimp only
  split
  · exact reply_formKept s _ _ _ _
  · split
    · exact reply_formKept s _ _ _ _
    · split
      · exact reply_formKept s _ _ _ _
      · split
        · exact reply_formKept s _ _ _ _
        · exact (withRelays_formKept s _).trans (reply_formKept _ _ _ _ _)

theorem takeRelay_formKept (s : State) (seq : Byte) (args : List Byte) : FormKept s (s.takeRelay seq args) := by
  unfold State.takeRelay
  split
  · split
    · split
      · split
        · split
          · exact collectRelay_formKept s _ _ _
          · exact newRelay_formKept s _ _ _ _
        · exact newRelay_formKept s _ _ _ _
      · exact reply_formKept s _ _ _ _
    · exact reply_formKept s _ _ _ _
  · exact reply_formKept s _ _ _ _

theorem takeSetUser_formKept (s : State) (seq : Byte) (args : List Byte) : FormKept s (s.takeSetUser seq args) := by
  unfold State.takeSetUser
  dsimp only
  split
  · exact (withCommand_formKept s _).trans (reply_formKept _ _ _ _ _)
  · exact reply_formKept s _ _ _ _

theorem relayExpiry_formKept (s : State) (i : RelayIx) : FormKept s (s.relayExpiry i) := by
  unfold State.relayExpiry
  dsimp only
  split
  · split
    · split
      · exact (withRelays_formKept s _).trans (withRelays_formKept _ _)
      · exact .refl s
    · exact .refl s
  · exact .refl s

/-! ## RESTART (R103, R174) -/

theorem restartClosure_formKept (s : State) (c : Channel) (x : ChannelContext) (w : WorkingCopy) :
    FormKept s (s.restartClosure c x w) := by
  unfold State.restartClosure
  dsimp only
  refine .trans ?_ (queueExchange_formKept _ _)
  split
  · exact .refl s
  · exact takePlacement_formKept s _ _ _ _

theorem closeAtRestart_formKept (s : State) (c : Channel) : FormKept s (s.closeAtRestart c) := by
  unfold State.closeAtRestart
  dsimp only
  split
  · exact restartClosure_formKept s c _ _
  · exact restartClosure_formKept s c _ _
  · exact .refl s

theorem restartFeed_formKept (s : State) : FormKept s s.restartFeed := by
  unfold State.restartFeed
  dsimp only
  refine .trans ?_ (tabulate_formKept _ _ fun k h => form_congr h rfl rfl rfl rfl)
  refine .trans ?_ (withFeed_formKept _ _)
  refine .trans ?_ (closeAtRestart_formKept _ .b)
  refine .trans ?_ (closeAtRestart_formKept _ .a)
  exact (withFeed_formKept s _).trans (withFeed_formKept _ _)

theorem restarted_formKept (s : State) : FormKept s s.restarted :=
  (restartFeed_formKept s).trans (.same (restarted_walls s) (restarted_pourClock s))

theorem takeRestart_formKept (s : State) (seq : Byte) (args : List Byte) : FormKept s (s.takeRestart seq args) := by
  unfold State.takeRestart
  split
  · exact (restarted_formKept s).trans (reply_formKept _ _ _ _ _)
  · exact reply_formKept s _ _ _ _

/-! ## The ring -/

/-- A grant that is not the step's own leaves the state. -/
theorem grant_formKept (s : State) (take : Grant → Option (State → State))
    (h : ∀ g u, FormKept u ((take g).getD id u)) : FormKept s (s.grant take) := by
  unfold State.grant
  split
  · next g _ =>
    have taken := h g s
    split
    · next e => rwa [e] at taken
    · exact .refl s
  · exact .refl s

theorem beginExchange_formKept (s : State) (x : ExchangeKind) (address : Nat) (kind : Byte) (payload : List Byte) :
    FormKept s (s.beginExchange x address kind payload) := (withRing_formKept s _).trans (withPower_formKept _ _)

theorem beginFeed_formKept (s : State) (x : FeedExchange) : FormKept s (s.beginFeed x) := by
  unfold State.beginFeed
  dsimp only
  split <;> exact (withFeed_formKept s _).trans (beginExchange_formKept _ _ _ _ _)

theorem beginRelay_formKept (s : State) (i : RelayIx) : FormKept s (s.beginRelay i) := by
  unfold State.beginRelay
  split
  · exact (withRelays_formKept s _).trans (beginExchange_formKept _ _ _ _ _)
  · exact .refl s

theorem requestSent_formKept (s : State) : FormKept s s.requestSent := by
  unfold State.requestSent
  split
  · split
    · exact (withRing_formKept s _).trans (withPower_formKept _ _)
    · exact .refl s
  · exact .refl s

theorem endExchange_formKept (s : State) (i : Slot) : FormKept s (s.endExchange i) :=
  (withRing_formKept s _).trans (setRecord_formKept _ i _)

theorem freeRing_formKept (s : State) : FormKept s s.freeRing := withRing_formKept s _

theorem updateRecord_formKept (s : State) (i : Slot) (r : NodeRecord) : FormKept s (s.updateRecord i r) := by
  unfold State.updateRecord
  dsimp only
  split
  · exact setRecord_formKept s i r
  · exact (setRecord_formKept s i r).trans (evaluateNodes_formKept _)

theorem outletReport_formKept (s : State) (slot : Slot) (report : Report) : FormKept s (s.outletReport slot report) :=
  bothChannels_formKept s _ (outletReportFor_formKept s slot report)

theorem outletStateChanged_formKept (s : State) (slot : Slot) (openMiss : Bool) :
    FormKept s (s.outletStateChanged slot openMiss) :=
  bothChannels_formKept s _ (outletStateFor_formKept s slot openMiss)

theorem updateState_formKept (s : State) (i : Slot) (r : NodeRecord) (openMiss : Bool) :
    FormKept s (s.updateState i r openMiss) := by
  have updated := updateRecord_formKept s i r
  unfold State.updateState
  dsimp only
  split
  · exact updated
  · refine updated.trans ?_
    split
    · exact sensorStateChanged_formKept _ i _
    · exact outletStateChanged_formKept _ i _
    · exact .refl _

theorem ackNode_formKept (s : State) (i : Slot) : FormKept s (s.ackNode i) := updateState_formKept s i _ _

theorem missNode_formKept (s : State) (i : Slot) (openMiss : Bool) : FormKept s (s.missNode i openMiss) :=
  updateState_formKept s i _ _

theorem takeSensorValue_formKept (s : State) (i : Slot) (value : Int) (old new : NodeState) :
    FormKept s (s.takeSensorValue i value old new) := by
  have changed : FormKept s (if old = new then s else s.sensorStateChanged i new) := by
    split
    · exact .refl s
    · exact sensorStateChanged_formKept s i new
  unfold State.takeSensorValue
  dsimp only
  split
  · exact changed.trans (judgeValue_formKept _ i value)
  · exact changed

theorem handReport_formKept (s : State) (i : Slot) (report : Report) (old new : NodeState) (previous : Option Nat) :
    FormKept s (s.handReport i report old new previous) := by
  cases report with
  | jack height tag fault => exact (verifyStroke_formKept s i height previous).trans (setRecord_formKept _ i _)
  | sensor value fault => exact takeSensorValue_formKept s i value old new
  | outlet ready ended fault delivered tag => exact outletReport_formKept s i _

theorem takeReport_formKept (s : State) (i : Slot) (report : Report) : FormKept s (s.takeReport i report) :=
  ((updateRecord_formKept s i _).trans (handReport_formKept _ i report _ _ _)).trans (offerReport_formKept _ i _ _ report)

theorem ringReport_formKept (s : State) (address : Byte) (payload : List Byte) :
    FormKept s (s.ringReport address payload) := by
  have taken (i : Slot) (report : Report) : FormKept s ((s.endExchange i).takeReport i report) :=
    (endExchange_formKept s i).trans (takeReport_formKept _ i report)
  unfold State.ringReport
  split
  · split
    · split
      · split
        · exact freeRing_formKept s
        · exact ((taken _ _).trans (withSweep_formKept _ _)).trans (advanceSweep_formKept _ _)
      · exact .refl s
    · split
      · split
        · exact freeRing_formKept s
        · exact taken _ _
      · exact .refl s
    · exact .refl s
    · exact .refl s
    · exact .refl s
    · exact .refl s
    · exact .refl s
  · exact .refl s

theorem goSent_formKept (s : State) : FormKept s s.goSent := by
  have freed := (withRing_formKept s none).trans (withPower_formKept _ { s.power with ringDriver := false })
  unfold State.goSent
  dsimp only
  split
  · split
    · refine freed.trans ?_
      split
      · split
        · exact (withExpectations_formKept _ _).trans (withDispatch_formKept _ _)
        · exact withDispatch_formKept _ _
      · exact .refl _
    · exact .refl s
  · exact .refl s

theorem strokeWindowExpiry_formKept (s : State) : FormKept s s.strokeWindowExpiry := by
  unfold State.strokeWindowExpiry
  split
  · split
    · exact withDispatch_formKept s _
    · exact .refl s
  · exact .refl s

theorem demandAck_formKept (s : State) (address : Byte) (payload : List Byte) :
    FormKept s (s.demandAck address payload) := by
  unfold State.demandAck
  split
  · split
    · split
      · exact freeRing_formKept s
      · exact ((freeRing_formKept s).trans (ackNode_formKept _ _)).trans (withDispatch_formKept _ _)
    · exact .refl s
  · exact .refl s

theorem openAck_formKept (s : State) (address : Byte) (payload : List Byte) : FormKept s (s.openAck address payload) := by
  unfold State.openAck
  split
  · split
    · split
      · exact freeRing_formKept s
      · exact ((endExchange_formKept s _).trans (ackNode_formKept _ _)).trans (openAcked_formKept _ _ _)
    · exact .refl s
  · exact .refl s

theorem closeAck_formKept (s : State) (address : Byte) (payload : List Byte) :
    FormKept s (s.closeAck address payload) := by
  unfold State.closeAck
  split
  · split
    · split
      · exact freeRing_formKept s
      · exact (endExchange_formKept s _).trans (ackNode_formKept _ _)
    · exact .refl s
  · exact .refl s

theorem endRelay_formKept (s : State) (i : RelayIx) (result : Option (List Byte)) :
    FormKept s (s.endRelay i result) := by
  unfold State.endRelay
  split
  · split <;> exact withRelays_formKept s _
  · exact .refl s

theorem relayBack_formKept (s : State) (address : Byte) (payload : List Byte) :
    FormKept s (s.relayBack address payload) := by
  unfold State.relayBack
  split
  · split
    · split
      · split
        · exact freeRing_formKept s
        · exact (freeRing_formKept s).trans (endRelay_formKept _ _ _)
      · exact .refl s
    · exact .refl s
  · exact .refl s

theorem exchangeMissed_formKept (s : State) (x : ExchangeKind) : FormKept s (s.exchangeMissed x) := by
  have missed (i : Slot) (openMiss : Bool) : FormKept s ((s.endExchange i).missNode i openMiss) :=
    (endExchange_formKept s i).trans (missNode_formKept _ i openMiss)
  cases x with
  | sweepPoll i => exact (missed i _).trans (advanceSweep_formKept _ i)
  | outletPoll i => exact missed i _
  | demand i => exact ((freeRing_formKept s).trans (missNode_formKept _ i _)).trans (withDispatch_formKept _ _)
  | go => exact freeRing_formKept s
  | openOutlet c i tag => exact (missed i _).trans (openMissed_formKept _ c tag)
  | closeOutlet c i tag stray => exact (missed i _).trans (closeMissed_formKept _ c tag stray)
  | relay i target tag => exact (freeRing_formKept s).trans (endRelay_formKept _ i none)

theorem replyWindowExpiry_formKept (s : State) : FormKept s s.replyWindowExpiry := by
  unfold State.replyWindowExpiry
  split
  · split
    · split
      · split
        · exact freeRing_formKept s
        · split
          · exact exchangeMissed_formKept s _
          · exact (withRing_formKept s _).trans (withPower_formKept _ _)
      · exact .refl s
    · exact .refl s
  · exact .refl s

/-! ## Arrivals -/

theorem dispatchResult_formKept (s : State) (r : CycleResult) : FormKept s (s.dispatchResult r) := by
  unfold State.dispatchResult
  dsimp only
  split
  · exact (withDispatch_formKept s _).trans (withTransit_formKept _ _)
  · exact .refl s

theorem takeSwitch_formKept (s : State) (x : SpreadSwitch) : FormKept s (s.takeSwitch x) := by
  unfold State.takeSwitch
  split
  · exact changeMode_formKept s _
  · exact .refl s

theorem dispatchMode_formKept (s : State) (m : ModeChange) : FormKept s (s.dispatchMode m) := by
  unfold State.dispatchMode
  split
  · exact withDispatch_formKept s _
  · exact .refl s

theorem relayMode_formKept (s : State) (m : ModeChange) : FormKept s (s.relayMode m) := by
  unfold State.relayMode
  split
  · exact withRelays_formKept s _
  · exact .refl s

theorem dispatchResultArrival_formKept (s : State) : FormKept s s.dispatchResultArrival := by
  unfold State.dispatchResultArrival
  dsimp only
  split
  · exact .refl s
  · exact (withTransit_formKept s _).trans (dispatchResult_formKept _ _)

theorem markerResultArrival_formKept (s : State) : FormKept s s.markerResultArrival := by
  unfold State.markerResultArrival
  dsimp only
  split
  · exact .refl s
  · exact (withTransit_formKept s _).trans (markerResult_formKept _ _)

theorem feedResultArrival_formKept (s : State) : FormKept s s.feedResultArrival := by
  unfold State.feedResultArrival
  dsimp only
  split
  · exact .refl s
  · exact (withTransit_formKept s _).trans (feedResult_formKept _ _)

theorem spreadSwitchArrival_formKept (s : State) : FormKept s s.spreadSwitchArrival := by
  unfold State.spreadSwitchArrival
  dsimp only
  split
  · exact .refl s
  · exact (withTransit_formKept s _).trans (takeSwitch_formKept _ _)

theorem dispatchModeArrival_formKept (s : State) : FormKept s s.dispatchModeArrival := by
  unfold State.dispatchModeArrival
  dsimp only
  split
  · exact .refl s
  · exact (withTransit_formKept s _).trans (dispatchMode_formKept _ _)

theorem feedModeArrival_formKept (s : State) : FormKept s s.feedModeArrival := by
  unfold State.feedModeArrival
  dsimp only
  split
  · exact .refl s
  · exact (withTransit_formKept s _).trans (feedMode_formKept _ _)

theorem relayModeArrival_formKept (s : State) : FormKept s s.relayModeArrival := by
  unfold State.relayModeArrival
  dsimp only
  split
  · exact .refl s
  · exact (withTransit_formKept s _).trans (relayMode_formKept _ _)

theorem sweepModeArrival_formKept (s : State) : FormKept s s.sweepModeArrival := by
  unfold State.sweepModeArrival
  dsimp only
  split
  · exact .refl s
  · exact (withTransit_formKept s _).trans (recomputeDue_formKept _)

theorem rateClockModeArrival_formKept (s : State) : FormKept s s.rateClockModeArrival := by
  unfold State.rateClockModeArrival
  dsimp only
  split
  · exact .refl s
  · exact (withTransit_formKept s _).trans (withLevel_formKept _ _)

theorem silenceModeArrival_formKept (s : State) : FormKept s s.silenceModeArrival := by
  unfold State.silenceModeArrival
  dsimp only
  split
  · exact .refl s
  · exact (withTransit_formKept s _).trans (withConsole_formKept _ _)

theorem placementResultArrival_formKept (s : State) : FormKept s s.placementResultArrival := by
  unfold State.placementResultArrival
  dsimp only
  split
  · exact (withTransit_formKept s _).trans (retireAll_formKept _ _)
  · exact (withTransit_formKept s _).trans (placementResult_formKept _ _)
  · exact .refl s

/-! ## Every step -/

/-- Every segment of a part right after POWER_ON has an empty queue (R61, R64). -/
theorem powerOn_wallInv (now free : Nat) (pending : List Instr) : (State.powerOn now free pending).WallInv := by
  refine ⟨Nat.zero_le _, fun k => ?_⟩
  have initial : (State.powerOn now free pending).wall k = SegmentLive.initial := table_read_const 32 _ k
  rw [initial]
  exact ⟨Nat.zero_le _, rfl, trivial⟩

/-- The pour clock advances no further than its greatest value, and no record becomes younger than it (R64). -/
theorem tickPourClock_wallInv (s : State) (h : s.WallInv) : s.tickPourClock.WallInv := by
  obtain ⟨bound, forms⟩ := h
  have advances : s.pourClock ≤ satAdd Config.max32 s.pourClock 1 := le_min bound (Nat.le_succ _)
  exact ⟨min_le_left _ _, fun k => form_mono (forms k) advances⟩

/-- What keeps the pour clock and the form of every queue is followed by the invariant. -/
theorem next_wallInv {s t u : State} (hs : s.WallInv) (kept : FormKept s u)
    (h : Host.Outcome.next (φ := Fault) (ρ := Refusal) u = .next t) : t.WallInv :=
  Host.Outcome.next.inj h ▸ kept.wallInv hs

/-- A console command. -/
theorem command_wallInv {s t : State} {f : State → State} (hs : s.WallInv) (k : ∀ u, FormKept u (f u))
    (h : Host.Outcome.next (φ := Fault) (ρ := Refusal) (s.onCommand f) = .next t) : t.WallInv :=
  next_wallInv hs (onCommand_formKept s f k) h

/-- An event in a part that runs. -/
theorem event_wallInv {s t : State} {f : State → State} (hs : s.WallInv) (k : ∀ u, FormKept u (f u))
    (h : Host.Outcome.next (φ := Fault) (ρ := Refusal) (s.whenRunning f) = .next t) : t.WallInv :=
  next_wallInv hs (whenRunning_formKept s f k) h

/-- A grant of the ring. -/
theorem granted_wallInv {s t : State} {take : Grant → Option (State → State)} (hs : s.WallInv)
    (k : ∀ g u, FormKept u ((take g).getD id u))
    (h : Host.Outcome.next (φ := Fault) (ρ := Refusal) (s.whenRunning fun u => u.grant take) = .next t) : t.WallInv :=
  event_wallInv hs (fun u => grant_formKept u take k) h

/-- A tick of the pour clock reaches only a part that runs. -/
theorem execPourClockTick_wallInv {s t : State} (hs : s.WallInv) (h : execPourClockTick s = .next t) : t.WallInv := by
  obtain rfl := Host.Outcome.next.inj h
  unfold State.whenRunning
  split
  · exact tickPourClock_wallInv s hs
  · exact hs

theorem execSweepStart_wallInv {s t : State} (hs : s.WallInv) (h : execSweepStart s = .next t) : t.WallInv := by
  refine granted_wallInv hs (fun g u => ?_) h
  cases g with
  | sweepStart => exact startSweep_formKept u
  | _ => exact .refl u

theorem execSweepPoll_wallInv {s t : State} (hs : s.WallInv) (h : execSweepPoll s = .next t) : t.WallInv := by
  refine granted_wallInv hs (fun g u => ?_) h
  cases g with
  | sweepPoll i => exact beginExchange_formKept u _ _ _ _
  | _ => exact .refl u

theorem execOutletPoll_wallInv {s t : State} (hs : s.WallInv) (h : execOutletPoll s = .next t) : t.WallInv := by
  refine granted_wallInv hs (fun g u => ?_) h
  cases g with
  | outletPoll i => exact beginExchange_formKept u _ _ _ _
  | _ => exact .refl u

theorem execDemand_wallInv {s t : State} (hs : s.WallInv) (h : execDemand s = .next t) : t.WallInv := by
  refine granted_wallInv hs (fun g u => ?_) h
  cases g with
  | demand e => exact beginExchange_formKept u _ _ _ _
  | _ => exact .refl u

theorem execGoBroadcast_wallInv {s t : State} (hs : s.WallInv) (h : execGoBroadcast s = .next t) : t.WallInv := by
  refine granted_wallInv hs (fun g u => ?_) h
  cases g with
  | go => exact beginExchange_formKept u _ _ _ _
  | _ => exact .refl u

theorem execRelayExchange_wallInv {s t : State} (hs : s.WallInv) (h : execRelayExchange s = .next t) : t.WallInv := by
  refine granted_wallInv hs (fun g u => ?_) h
  cases g with
  | relay i => exact beginRelay_formKept u i
  | _ => exact .refl u

theorem execOpenExchange_wallInv {s t : State} (hs : s.WallInv) (h : execOpenExchange s = .next t) : t.WallInv := by
  refine granted_wallInv hs (fun g u => ?_) h
  cases g with
  | feed x =>
    dsimp only
    split
    · exact beginFeed_formKept u x
    · exact .refl u
  | _ => exact .refl u

theorem execCloseExchange_wallInv {s t : State} (hs : s.WallInv) (h : execCloseExchange s = .next t) : t.WallInv := by
  refine granted_wallInv hs (fun g u => ?_) h
  cases g with
  | feed x =>
    dsimp only
    split
    · exact .refl u
    · exact beginFeed_formKept u x
  | _ => exact .refl u

/-- Every command keeps the invariant of the wall. -/
theorem exec_wallInv (i : Instr) {s t : State} (hs : s.WallInv) (h : exec i s = .next t) : t.WallInv := by
  cases i with
  | powerOn => exact Host.Outcome.next.inj h ▸ powerOn_wallInv _ _ _
  | powerLoss => exact next_wallInv (powerOn_wallInv s.now s.free s.pending) (withPower_formKept _ _) h
  | resetPinAssert => exact next_wallInv hs (withPower_formKept s _) h
  | pourClockTick => exact execPourClockTick_wallInv hs h
  | status seq args => exact command_wallInv hs (fun u => takeStatus_formKept u seq args) h
  | read seq args => exact command_wallInv hs (fun u => takeRead_formKept u seq args) h
  | write seq args => exact command_wallInv hs (fun u => takeWrite_formKept u seq args) h
  | discard seq args => exact command_wallInv hs (fun u => takeDiscard_formKept u seq args) h
  | commit seq args => exact command_wallInv hs (fun u => takeCommit_formKept u seq args) h
  | start seq args => exact command_wallInv hs (fun u => takeStart_formKept u seq args) h
  | stop seq args => exact command_wallInv hs (fun u => takeStop_formKept u seq args) h
  | hold seq args => exact command_wallInv hs (fun u => takeHold_formKept u seq args) h
  | release seq args => exact command_wallInv hs (fun u => takeRelease_formKept u seq args) h
  | setRate seq args => exact command_wallInv hs (fun u => takeSetRate_formKept u seq args) h
  | ack seq args => exact command_wallInv hs (fun u => takeAck_formKept u seq args) h
  | pollCondition seq args => exact command_wallInv hs (fun u => takePoll_formKept u seq args) h
  | mask seq args => exact command_wallInv hs (fun u => takeMask_formKept u seq args) h
  | feedStart seq args => exact command_wallInv hs (fun u => takeFeedStart_formKept u seq args) h
  | feedStop seq args => exact command_wallInv hs (fun u => takeFeedStop_formKept u seq args) h
  | place seq args => exact command_wallInv hs (fun u => takePlace_formKept u seq args) h
  | relay seq args => exact command_wallInv hs (fun u => takeRelay_formKept u seq args) h
  | setUser seq args => exact command_wallInv hs (fun u => takeSetUser_formKept u seq args) h
  | restart seq args => exact command_wallInv hs (fun u => takeRestart_formKept u seq args) h
  | unknownCommand seq code args => exact command_wallInv hs (fun u => reply_formKept u seq code _ _) h
  | consoleFrameReject frame => exact event_wallInv hs (fun u => rejectFrame_formKept u frame) h
  | consoleSend => exact event_wallInv hs consoleSend_formKept h
  | consoleFrameSent => exact event_wallInv hs (fun u => withConsole_formKept u _) h
  | silenceExpiry => exact event_wallInv hs silenceExpiry_formKept h
  | beaconBuild => exact event_wallInv hs buildBeacon_formKept h
  | dispatchResultArrival => exact event_wallInv hs dispatchResultArrival_formKept h
  | placementResultArrival => exact event_wallInv hs placementResultArrival_formKept h
  | markerResultArrival => exact event_wallInv hs markerResultArrival_formKept h
  | feedResultArrival => exact event_wallInv hs feedResultArrival_formKept h
  | spreadSwitchArrival => exact event_wallInv hs spreadSwitchArrival_formKept h
  | sweepModeArrival => exact event_wallInv hs sweepModeArrival_formKept h
  | dispatchModeArrival => exact event_wallInv hs dispatchModeArrival_formKept h
  | rateClockModeArrival => exact event_wallInv hs rateClockModeArrival_formKept h
  | feedModeArrival => exact event_wallInv hs feedModeArrival_formKept h
  | silenceModeArrival => exact event_wallInv hs silenceModeArrival_formKept h
  | relayModeArrival => exact event_wallInv hs relayModeArrival_formKept h
  | goSent => exact event_wallInv hs goSent_formKept h
  | requestFrameSent => exact event_wallInv hs requestSent_formKept h
  | replyWindowExpiry => exact event_wallInv hs replyWindowExpiry_formKept h
  | strokeWindowExpiry => exact event_wallInv hs strokeWindowExpiry_formKept h
  | dwellExpiry ch => exact event_wallInv hs (fun u => dwellExpiry_formKept u ch) h
  | pauseExpiry ch => exact event_wallInv hs (fun u => pauseExpiry_formKept u ch) h
  | blockTimerExpiry ch => exact event_wallInv hs (fun u => blockExpiry_formKept u ch) h
  | relayResultExpiry slot => exact event_wallInv hs (fun u => relayExpiry_formKept u slot) h
  | sweepStart => exact execSweepStart_wallInv hs h
  | sweepPoll => exact execSweepPoll_wallInv hs h
  | outletPoll => exact execOutletPoll_wallInv hs h
  | demand => exact execDemand_wallInv hs h
  | goBroadcast => exact execGoBroadcast_wallInv hs h
  | openExchange => exact execOpenExchange_wallInv hs h
  | closeExchange => exact execCloseExchange_wallInv hs h
  | relayExchange => exact execRelayExchange_wallInv hs h
  | ringReport address payload => exact event_wallInv hs (fun u => ringReport_formKept u address payload) h
  | demandAck address payload => exact event_wallInv hs (fun u => demandAck_formKept u address payload) h
  | openAck address payload => exact event_wallInv hs (fun u => openAck_formKept u address payload) h
  | closeAck address payload => exact event_wallInv hs (fun u => closeAck_formKept u address payload) h
  | ringRelayBack address payload => exact event_wallInv hs (fun u => relayBack_formKept u address payload) h
  | ringFrameDiscard frame => exact next_wallInv hs (.refl s) h

/-- Settles O7: the form of every placement queue (R66) and the bound of the pour clock (R64) are kept by the passing of a
millisecond and by every command. -/
theorem stepsKeepTheQueueForm : Obligations.StepsKeepTheQueueForm := by
  unfold Obligations.StepsKeepTheQueueForm
  intro s t hs h
  unfold step at h
  split at h
  · exact Host.Outcome.next.inj h ▸ (withNow_formKept s _).wallInv hs
  · next c rest _ => exact exec_wallInv c ((withPending_formKept s rest).wallInv hs) h

end Sys2Proof.Proofs
end

section
/-! PROOFS. DISCARD (O21, R165): how a console command reaches a part that runs, and the two replies of DISCARD. -/

namespace Sys2Proof.Proofs

open Sys2Proof Sys2Proof.Machine Sys2Proof.Laws

/-! ## A console command in a part that runs (R157, R178) -/

/-- In a part that runs, the silence timer restarts and the command is taken. -/
theorem onCommand_of_running {s : State} (h : s.running = true) (f : State → State) :
    s.onCommand f = f s.silenceReset := if_pos h

/-- A reply changes the reply queue alone. -/
theorem reply_eq_withConsole (s : State) (seq code : Byte) (o : OutcomeCode) (fields : List Field) :
    s.reply seq code o fields = s.withConsole (s.answered (.reply seq code o fields)) := rfl

/-! ## DISCARD (R165) -/

/-- DISCARD reaches a part that runs after its frame has restarted the silence timer. -/
theorem exec_discard_of_running {s : State} (h : s.running = true) (seq : Byte) (args : List Byte) :
    exec (.discard seq args) s = .next (s.silenceReset.takeDiscard seq args) :=
  congrArg Host.Outcome.next (onCommand_of_running h _)

/-- While a commit is pending, DISCARD is BUSY and keeps the staged list. -/
theorem takeDiscard_of_pending {u : State} (h : u.command.commitPending = true) (seq : Byte) :
    u.takeDiscard seq [] = u.withConsole (u.answered (.reply seq 0x04 .busy [])) := by
  simp only [State.takeDiscard, h, if_true, State.refuse, reply_eq_withConsole]

/-- With no commit pending, DISCARD empties the staged list and replies with the length it had. -/
theorem takeDiscard_of_not_pending {u : State} (h : u.command.commitPending = false) (seq : Byte) :
    u.takeDiscard seq [] = (u.withCommand { u.command with staged := [] }).withConsole
      (u.answered (.reply seq 0x04 .ok [.bytes [u8 u.command.staged.length]])) := by
  simp only [State.takeDiscard, h, Bool.false_eq_true, if_false, State.replyOk, reply_eq_withConsole, plain]
  rfl

/-- Settles O21: DISCARD is BUSY while a commit is pending, and otherwise empties the staged list (R165). -/
theorem discardEmpties : Obligations.DiscardEmpties := by
  unfold Obligations.DiscardEmpties
  intro s seq running u
  refine ⟨u.takeDiscard seq [], exec_discard_of_running running seq [], ?_⟩
  cases pending : u.command.commitPending with
  | true =>
    rw [takeDiscard_of_pending pending]
    exact ⟨rfl, fun _ => ⟨rfl, rfl⟩, nofun⟩
  | false =>
    rw [takeDiscard_of_not_pending pending]
    exact ⟨rfl, nofun, fun _ => ⟨rfl, rfl⟩⟩

end Sys2Proof.Proofs
end


section
/-! PROOFS. One walk through the model for the invariants that every step keeps (O2, O6, O8, O9, O10): what an invariant has
to satisfy at the few operations that touch what it speaks of, and that every command then keeps it. -/

namespace Sys2Proof.Proofs

open Sys2Proof Sys2Proof.Machine Sys2Proof.Laws

/-! ## What the invariants speak of -/

/-- The parts of the state that the invariants speak of: power, the model's own time base and queue, ring, rise mode,
condition records, spread switches, channels, claims, the reply and forward queues and the staged list. -/
structure Spoken where
  power : Power
  now : Nat
  pending : List Instr
  ring : Option Exchange
  mode : RiseMode
  records : Table CondRecord 18
  switches : List SpreadSwitch
  channel : Channel → ChannelContext
  outletClaim : Slot → Option Channel
  segmentClaim : SegmentIx → Option Channel
  replies : List ReplyRecord
  forward : List ForwardRecord
  staged : List Edit

def spoken (s : State) : Spoken :=
  { power := s.power, now := s.now, pending := s.pending, ring := s.ring, mode := s.mode
    records := s.conditions.records, switches := s.transit.spreadSwitches, channel := s.channel
    outletClaim := s.outletClaim, segmentClaim := fun k => (s.wall k).claim
    replies := s.console.replies, forward := s.console.forward, staged := s.command.staged }

/-- Nothing that the invariants speak of differs. -/
def Quiet (s t : State) : Prop := spoken t = spoken s

theorem Quiet.mode {s t : State} (h : Quiet s t) : t.mode = s.mode := congrArg Spoken.mode h

theorem Quiet.trans {s t u : State} (h : Quiet s t) (k : Quiet t u) : Quiet s u := Eq.trans k h

theorem withRecords_quiet (s : State) (x : Table NodeRecord 128) : Quiet s (s.withRecords x) := rfl

theorem withExpectations_quiet (s : State) (x : Table (Option Expectation) 128) : Quiet s (s.withExpectations x) := rfl

theorem withSweep_quiet (s : State) (x : Sweep) : Quiet s (s.withSweep x) := rfl

theorem withDispatch_quiet (s : State) (x : Dispatch) : Quiet s (s.withDispatch x) := rfl

theorem withPlacementSeen_quiet (s : State) (x : Option CycleResult) : Quiet s (s.withPlacementSeen x) := rfl

theorem withMonitors_quiet (s : State) (x : Monitors) : Quiet s (s.withMonitors x) := rfl

theorem withMarkers_quiet (s : State) (x : Markers) : Quiet s (s.withMarkers x) := rfl

theorem withParams_quiet (s : State) (x : Params) : Quiet s (s.withParams x) := rfl

theorem withAgents_quiet (s : State) (x : Agents) : Quiet s (s.withAgents x) := rfl

theorem withRelays_quiet (s : State) (x : Relays) : Quiet s (s.withRelays x) := rfl

theorem withJobs_quiet (s : State) (x : List BeaconJob) : Quiet s (s.withJobs x) := rfl

theorem setRecord_quiet (s : State) (i : Slot) (x : NodeRecord) : Quiet s (s.setRecord i x) := rfl

/-- Segments may change in everything but the claim. -/
theorem withWalls_quiet {s : State} {x : Table SegmentLive 32} (h : ∀ k, (x.read k).claim = (s.wall k).claim) :
    Quiet s (s.withWalls x) := by
  have claims : (fun k => ((s.withWalls x).wall k).claim) = fun k => (s.wall k).claim := funext h
  unfold Quiet spoken
  rw [claims]
  rfl

/-- The head of the forward queue is held against the budget: the queues stay. -/
theorem withConsole_quiet {s : State} {x : Console} (h : x.replies = s.console.replies) (k : x.forward = s.console.forward) :
    Quiet s (s.withConsole x) := by
  unfold Quiet spoken
  rw [withConsole_console, h, k]
  rfl

/-! ## What an invariant has to satisfy -/

/-- An invariant is kept by what does not touch what it speaks of, and by each of the operations that do: the power, the
ring driver and the ring; raises, clears and changes of mode; spread switches; the queues; and the events of the feed. -/
structure Keeps (P : State → Prop) : Prop where
  quiet : ∀ {s t}, P s → Quiet s t → P t
  powerOn : ∀ {s}, P s → P (State.powerOn s.now s.free s.pending)
  driverOff : ∀ {s} x, x.ringDriver = false → P s → P (s.withPower x)
  leaves : ∀ {s} r x, x.ringDriver = false → P s → P ((s.withRing r).withPower x)
  sends : ∀ {s} r x, r.phase = .sending → P s → P ((s.withRing (some r)).withPower x)
  freed : ∀ {s r e}, s.ring = some r → r.phase = .window e → P s → P s.freeRing
  raise : ∀ {s} c d, c.cls ≠ .halt → P s → P (s.raise c d)
  raiseHalt : ∀ {s t before} c d, c.cls = .halt → Quiet (s.raise c d) t → (before = .halt ↔ s.mode = .halt) → P s →
    P (t.haltFeed before)
  clear : ∀ {s} c, P s → P (s.clear c)
  acknowledge : ∀ {s} c, P s → P (s.acknowledge c)
  release : ∀ {s}, P s → P s.releaseManual
  stop : ∀ {s}, P s → P (s.changeMode .idle)
  start : ∀ {s} m, s.haltQuiet → (m = .climb ∧ s.holdQuiet ∨ m = .hold) → P s → P (s.changeMode m)
  switches : ∀ {s} x, (x.leaves = .climb ∨ x.leaves = .trim) → (x.enters = .climb ∨ x.enters = .trim) → P s →
    P (s.withTransit { s.transit with spreadSwitches := s.transit.spreadSwitches ++ [x] })
  takeSwitch : ∀ {s x rest}, s.transit.spreadSwitches = x :: rest → P s →
    P ((s.withTransit { s.transit with spreadSwitches := rest }).takeSwitch x)
  addReply : ∀ {s} r, P s → P (s.addReply r)
  replySent : ∀ {s r rest}, s.console.replies = r :: rest → P s → P (s.withConsole { s.console with replies := rest })
  enqueueForward : ∀ {s} r, P s → P (s.enqueueForward r)
  forwardSent : ∀ {s r rest}, s.console.forward = r :: rest → P s → P (s.withConsole { s.console with forward := rest })
  stage : ∀ {s} e, (s.command.staged.any (fun x => x.key == e.key) ∨ s.command.staged.length < Config.stagedPlaces) →
    P s → P (s.withCommand { s.command with staged := stageEdit s.command.staged e })
  unstage : ∀ {s} x, x.staged = [] → P s → P (s.withCommand x)
  restarted : ∀ {s}, P s → P s.restarted
  place : ∀ {s} k v source d, P s → P (s.place k v source d none)
  openTest : ∀ {s} c, P s → P (s.openTest c)
  askClose : ∀ {s} c cause, P s → P (s.askClose c cause)
  stopChannel : ∀ {s} c, P s → P (s.stopChannel c .stop)
  startChannel : ∀ {s} c d, s.mode ≠ .halt → (s.channel c).state.busy = false → P s → P (s.startChannel c d)
  endPause : ∀ {s} c kind, (s.channel c).state = .paused → P s → P (s.endPause c kind).evaluateJam
  outletReport : ∀ {s} slot report, P s → P (s.outletReport slot report)
  outletStateChanged : ∀ {s} slot openMiss, P s → P (s.outletStateChanged slot openMiss)
  openAcked : ∀ {s} c tag, P s → P (s.openAcked c tag)
  openMissed : ∀ {s} c tag, P s → P (s.openMissed c tag)
  feedResult : ∀ {s} r, P s → P (s.feedResult r)
  feedMode : ∀ {s} m, P s → P (s.feedMode m)
  commitFeed : ∀ {s} nodes segments, P s → P (s.commitFeed nodes segments)

variable {P : State → Prop} {s : State}

/-! ## Conditions -/

/-- An evaluation of a source that cannot take the mode to HALT. -/
theorem Keeps.evaluate (k : Keeps P) (c : Cond) (a : Bool) (d : Option Nat) (h : c.cls ≠ .halt) (hs : P s) :
    P (s.evaluate c a d) := by
  unfold State.evaluate
  split
  · exact k.raise c d h hs
  · exact k.clear c hs
  · exact hs
  · exact hs

theorem clear_halt_mode (s : State) (c : Cond) (h : c.cls = .halt) : (s.clear c).mode = s.mode := by
  unfold State.clear
  dsimp only
  split
  · rw [conditionReturned_other _ _ (by rw [h]; decide)]
    rfl
  · rfl

/-- An event whose mode is HALT only if it was before stops no channel (R102). -/
theorem haltFeed_of_mode {s : State} {before : RiseMode} (h : s.mode = .halt → before = .halt) : s.haltFeed before = s :=
  haltFeed_kept s before (by by_cases m : s.mode = .halt; exacts [.inr (h m), .inl m])

/-- An evaluation of a HALT-class source with what the entry into HALT does to the feed (R102). -/
theorem Keeps.evaluateHalt (k : Keeps P) {before : RiseMode} (c : Cond) (a : Bool) (d : Option Nat) (h : c.cls = .halt)
    (m : before = .halt ↔ s.mode = .halt) (hs : P s) : P ((s.evaluate c a d).haltFeed before) := by
  unfold State.evaluate
  split
  · exact k.raiseHalt c d h rfl m hs
  · rw [haltFeed_of_mode fun e => m.2 (clear_halt_mode s c h ▸ e)]
    exact k.clear c hs
  · rw [haltFeed_of_mode m.2]
    exact hs
  · rw [haltFeed_of_mode m.2]
    exact hs

theorem Keeps.evaluateMonitors (k : Keeps P) (hs : P s) : P s.evaluateMonitors :=
  k.evaluate _ _ _ (by decide) (k.evaluate _ _ _ (by decide) hs)

theorem Keeps.evaluateNodes (k : Keeps P) (hs : P s) : P s.evaluateNodes :=
  k.evaluate _ _ _ (by decide) (k.evaluate _ _ _ (by decide) hs)

theorem Keeps.evaluateShort (k : Keeps P) (hs : P s) : P s.evaluateShort := k.evaluate _ _ _ (by decide) hs

/-- A run of operations, one for each member of a list. -/
theorem Keeps.foldl {α : Type} (f : State → α → State) (h : ∀ {s} x, P s → P (f s x)) (xs : List α) (hs : P s) :
    P (xs.foldl f s) := by
  induction xs generalizing s with
  | nil => exact hs
  | cons x xs ih => exact ih (h x hs)

theorem Keeps.raiseGreen (k : Keeps P) (i : SegmentIx) (n : Nat) (hs : P s) : P (s.raiseGreen i n) := by
  induction n with
  | zero => exact hs
  | succ n ih => exact raiseGreen_succ s i n ▸ k.raise _ _ (by decide) ih

/-! ## The Placement Store, the markers and the monitors -/

theorem setWall_quiet {s : State} {i : SegmentIx} {w : SegmentLive} (h : w.claim = (s.wall i).claim) :
    Quiet s (s.setWall i w) := by
  refine withWalls_quiet fun j => ?_
  rw [table_read_write]
  split
  · next e => rw [h, e]
  · rfl

theorem Keeps.retireAll (k : Keeps P) (r : CycleResult) (hs : P s) : P (s.retireAll r) := by
  have retires (b : Int) {u : State} (i : SegmentIx) (hu : P u) : P (u.retireSegment b i) := by
    unfold State.retireSegment
    dsimp only
    split
    · exact k.raiseGreen _ _ (k.quiet hu (setWall_quiet rfl))
    · exact hu
  unfold State.retireAll
  split
  · exact foldl _ (retires _) _ hs
  · exact hs

theorem Keeps.placementResult (k : Keeps P) (r : CycleResult) (hs : P s) : P (s.placementResult r) :=
  k.quiet (k.retireAll r (k.quiet hs (withPlacementSeen_quiet s (some r)))) (withJobs_quiet _ _)

theorem Keeps.markerAction (k : Keeps P) (i : MarkerIx) (a : MarkerAction) (hs : P s) : P (s.markerAction i a) := by
  cases a with
  | hold => exact k.raise _ _ (by decide) hs
  | rate v => exact k.quiet hs rfl
  | feedStop c => exact k.stopChannel c hs

theorem Keeps.markerResult (k : Keeps P) (r : CycleResult) (hs : P s) : P (s.markerResult r) := by
  have fires {u : State} (i : MarkerIx) (hu : P u) : P (u.fireMarker i) := k.markerAction _ _ (k.quiet hu rfl)
  exact k.quiet (foldl _ fires _ hs) (withJobs_quiet _ _)

theorem Keeps.judgeValue (k : Keeps P) (slot : Slot) (v : Int) (hs : P s) : P (s.judgeValue slot v) := by
  unfold State.judgeValue
  split
  · exact hs
  · refine k.evaluateMonitors (foldl _ (fun i hu => ?_) _ hs)
    exact k.quiet hu rfl

theorem Keeps.sensorStateChanged (k : Keeps P) (slot : Slot) (new : NodeState) (hs : P s) :
    P (s.sensorStateChanged slot new) := by
  unfold State.sensorStateChanged
  split
  · exact hs
  · refine k.evaluateMonitors (foldl _ (fun i hu => ?_) _ hs)
    split
    · exact k.quiet hu rfl
    · exact hu

/-! ## Node records and stroke verification -/

theorem Keeps.setShort (k : Keeps P) (i : Slot) (n : Nat) (hs : P s) : P (s.setShort i n) := by
  unfold State.setShort
  split
  · exact hs
  · exact k.evaluateShort (k.quiet hs rfl)

theorem setShort_mode (s : State) (i : Slot) (n : Nat) : (s.setShort i n).mode = s.mode := by
  rw [setShort_frame]
  rfl

/-- A raise of a condition that is not HALT-class does not enter HALT (R109). -/
theorem raise_mode_halt {s : State} {c : Cond} {d : Option Nat} (h : c.cls ≠ .halt) (m : (s.raise c d).mode = .halt) :
    s.mode = .halt := by
  rw [raise_mode] at m
  split at m
  · split at m
    · exact absurd ‹c.cls = .halt› h
    · exact absurd ‹c.cls = .halt› h
    · exact absurd ‹c.cls = .halt› h
    · exact absurd m (by decide)
    · exact absurd m (by decide)
    · exact m
  · exact m

/-- What stroke verification finds, with what an entry into HALT does: JACK_SLIP alone can enter it (R32 to R35, R102). -/
theorem Keeps.checked (k : Keeps P) (i : Slot) (c : Cond) (h : c.cls ≠ .halt) (hs : P s) :
    P (((s.raise c (some i.val)).setExpectation i none).haltFeed s.mode) := by
  rw [haltFeed_of_mode (s := (s.raise c (some i.val)).setExpectation i none) fun m => raise_mode_halt (s := s) h m]
  exact k.quiet (k.raise c _ h hs) rfl

theorem Keeps.shortChecked (k : Keeps P) (i : Slot) (n : Nat) (hs : P s) :
    P (((s.setShort i n).setExpectation i none).haltFeed s.mode) := by
  rw [haltFeed_of_mode (s := (s.setShort i n).setExpectation i none) fun m => (setShort_mode s i n).symm.trans m]
  exact k.quiet (k.setShort i n hs) rfl

theorem Keeps.unchecked (k : Keeps P) (i : Slot) (hs : P s) : P ((s.setExpectation i none).haltFeed s.mode) := by
  rw [haltFeed_of_mode (s := s.setExpectation i none) (before := s.mode) fun m => m]
  exact k.quiet hs rfl

theorem Keeps.slipped (k : Keeps P) (i : Slot) (hs : P s) :
    P (((s.raise .jackSlip (some i.val)).setExpectation i none).haltFeed s.mode) :=
  k.raiseHalt .jackSlip _ rfl rfl Iff.rfl hs

theorem Keeps.standardCheck (k : Keeps P) (i : Slot) (achieved : Int) (expected : Nat) (hs : P s) :
    P (((s.standardCheck i achieved expected).setExpectation i none).haltFeed s.mode) := by
  unfold State.standardCheck
  dsimp only
  split
  · exact k.slipped i hs
  · split
    · exact k.checked i .jackOver (by decide) hs
    · split <;> exact k.shortChecked i _ hs

theorem Keeps.tolerantCheck (k : Keeps P) (i : Slot) (achieved : Int) (d : Nat) (hs : P s) :
    P (((s.tolerantCheck i achieved d).setExpectation i none).haltFeed s.mode) := by
  unfold State.tolerantCheck
  dsimp only
  split
  · exact k.slipped i hs
  · split
    · exact k.checked i .jackOver (by decide) hs
    · exact k.unchecked i hs

theorem Keeps.verifyStroke (k : Keeps P) (i : Slot) (height : Nat) (previous : Option Nat) (hs : P s) :
    P (s.verifyStroke i height previous) := by
  unfold State.verifyStroke
  dsimp only
  split
  · exact k.unchecked i hs
  · split
    · exact k.standardCheck i _ _ hs
    · split
      · exact k.standardCheck i _ _ hs
      · exact k.tolerantCheck i _ _ hs

theorem Keeps.recomputeDue (k : Keeps P) (hs : P s) : P s.recomputeDue := by
  unfold State.recomputeDue
  split
  · exact k.quiet hs rfl
  · exact hs

/-! ## The computation and the commit (R14) -/

/-- A switch of the spread test is between CLIMB and TRIM (R47). -/
theorem stepModeOf_switch {p : Params} {mode : RiseMode} {n spread : Nat} (h : stepModeOf p mode n spread ≠ mode) :
    (mode = .climb ∨ mode = .trim) ∧ (stepModeOf p mode n spread = .climb ∨ stepModeOf p mode n spread = .trim) := by
  unfold stepModeOf at h ⊢
  split at h
  · exact absurd rfl h
  · next n0 =>
    rw [if_neg n0]
    cases mode with
    | climb => dsimp only; split <;> simp
    | trim => dsimp only; split <;> simp
    | idle => exact absurd rfl h
    | hold => exact absurd rfl h
    | halt => exact absurd rfl h

/-- QUORUM neither enters nor leaves HALT (R109, R111). -/
theorem evaluate_quorum_halt (s : State) (a : Bool) : s.mode = .halt ↔ (s.evaluate .quorum a none).mode = .halt := by
  have clears : s.mode = .halt ↔ (s.clear .quorum).mode = .halt := by
    have resumes : s.resumeMode ≠ .halt := by
      unfold State.resumeMode
      split
      · split <;> decide
      · decide
    unfold State.clear State.conditionReturned
    dsimp only
    split
    · split
      · next h =>
        rw [changeMode_mode]
        have held : s.mode = .hold := h.2.1
        exact ⟨fun m => absurd (held.symm.trans m) (by decide), fun m => absurd m resumes⟩
      · rfl
    · rfl
  unfold State.evaluate
  split
  · refine ⟨fun m => ?_, raise_mode_halt (by decide)⟩
    rw [raise_mode, m]
    split <;> rfl
  · exact clears
  · rfl
  · rfl

theorem Keeps.handTests (k : Keeps P) (mode : RiseMode) (r : CycleResult)
    (h : r.stepMode ≠ mode → (mode = .climb ∨ mode = .trim) ∧ (r.stepMode = .climb ∨ r.stepMode = .trim)) (hs : P s) :
    P (s.handTests mode r) := by
  have tested : P (((s.evaluate .quorum (s.quorumActive r.n) none).evaluate .levelLimit
      (decide (r.spread > s.params.haltBand)) none).haltFeed s.mode) :=
    k.evaluateHalt _ _ _ rfl (evaluate_quorum_halt s _) (k.evaluate _ _ _ (by decide) hs)
  unfold State.handTests
  dsimp only
  split
  · exact tested
  · next e => exact k.switches _ (h e).1 (h e).2 tested

theorem publish_quiet (s : State) (r : CycleResult) : Quiet s (s.publish r) := rfl

theorem Keeps.compute (k : Keeps P) (hs : P s) : P s.compute := by
  have taken : P ((s.withTransit { s.transit with rateModes := [] }).withFree (s.free + 1)) := k.quiet hs rfl
  exact k.quiet (k.handTests s.mode (s.cycleResult s.mode _) (fun h => stepModeOf_switch h) taken) (publish_quiet _ _)

theorem Keeps.applyEdit (k : Keeps P) (e : Edit) (hs : P s) : P (s.applyEdit e) := by
  cases e <;> exact k.quiet hs rfl

theorem commitRecords_quiet (s : State) (old : Table NodeEntry 128) : Quiet s (s.commitRecords old) :=
  (withRecords_quiet s _).trans (withExpectations_quiet _ _)

/-- Markers, the rate, agents and relays at a commit application. -/
theorem commitTables_quiet (s : State) (edits : List Edit) (old : Table NodeEntry 128) :
    Quiet s (((s.commitMarkers edits).commitRate.commitAgents edits).commitRelays old) :=
  (((withMarkers_quiet s _).trans (withParams_quiet _ _)).trans (withAgents_quiet _ _)).trans (withRelays_quiet _ _)

theorem commitWalls_quiet (s : State) (old : Table SegmentEntry 32) : Quiet s (s.commitWalls old) := by
  refine withWalls_quiet fun i => ?_
  rw [table_read_tabulate]
  unfold SegmentLive.committed
  split <;> rfl

theorem Keeps.commitDue (k : Keeps P) (old : Params) (hs : P s) : P (s.commitDue old) := by
  unfold State.commitDue
  split
  · exact hs
  · exact k.recomputeDue hs

theorem Keeps.commitDone (k : Keeps P) (hs : P s) : P s.commitDone := k.addReply _ (k.unstage _ rfl hs)

theorem Keeps.commitMonitors (k : Keeps P) (old : Table MonitorEntry 8) (hs : P s) : P (s.commitMonitors old) :=
  k.evaluateMonitors (k.quiet hs (withMonitors_quiet _ _))

theorem Keeps.applyCommit (k : Keeps P) (hs : P s) : P s.applyCommit := by
  have edited : P s.prospective := foldl _ k.applyEdit _ hs
  have recorded : P (s.prospective.commitRecords s.nodes) := k.quiet edited (commitRecords_quiet _ _)
  have walled := k.quiet (k.commitDue s.params (k.evaluateShort (k.evaluateNodes recorded))) (commitWalls_quiet _ s.segments)
  have fed := k.commitMonitors s.monitors.entries (k.commitFeed s.nodes s.segments walled)
  exact k.commitDone (k.quiet fed (commitTables_quiet _ s.command.staged s.nodes))

theorem Keeps.commitAtComplete (k : Keeps P) (hs : P s) : P s.commitAtComplete := by
  unfold State.commitAtComplete
  split
  · exact k.quiet (k.applyCommit hs) (withSweep_quiet _ _)
  · exact hs

/-! ## The sweep (R12 to R15) -/

theorem Keeps.sweepComplete (k : Keeps P) (hs : P s) : P s.sweepComplete := by
  have ended : P (s.withSweep { s.sweep with running := false, cursor := none }) := k.quiet hs rfl
  exact k.compute (k.commitAtComplete (k.evaluateMonitors (k.evaluateHalt .ringDown _ _ rfl Iff.rfl ended)))

theorem Keeps.advanceSweep (k : Keeps P) (i : Slot) (hs : P s) : P (s.advanceSweep i) := by
  unfold State.advanceSweep
  split
  · exact k.quiet hs rfl
  · exact k.sweepComplete hs

theorem Keeps.startSweep (k : Keeps P) (hs : P s) : P s.startSweep := by
  have late {u : State} (hu : P u) : P (if s.startsLate then u.raise .cycleLate none else u) := by
    split
    · exact k.raise _ _ (by decide) hu
    · exact hu
  unfold State.startSweep
  dsimp only
  split
  · exact k.sweepComplete (late (k.quiet hs rfl))
  · exact late (k.quiet hs rfl)

/-! ## The console line -/

theorem Keeps.rejectFrame (k : Keeps P) (f : RxFrame) (hs : P s) : P (s.rejectFrame f) := by
  unfold State.rejectFrame
  split
  · exact hs
  · exact k.quiet hs rfl

theorem Keeps.silenceReset (k : Keeps P) (hs : P s) : P s.silenceReset :=
  k.evaluate _ _ _ (by decide) (k.quiet hs rfl)

theorem Keeps.silenceExpiry (k : Keeps P) (hs : P s) : P s.silenceExpiry := by
  unfold State.silenceExpiry
  split
  · exact k.evaluate _ _ _ (by decide) hs
  · exact hs

theorem Keeps.buildBeacon (k : Keeps P) (hs : P s) : P s.buildBeacon := by
  unfold State.buildBeacon
  split
  · exact hs
  · split
    · exact k.quiet hs rfl
    · exact hs

theorem Keeps.consoleSend (k : Keeps P) (hs : P s) : P s.consoleSend := by
  unfold State.consoleSend
  split
  · exact hs
  · next replies => exact k.quiet (k.replySent replies hs) rfl
  · exact k.quiet hs rfl
  · exact k.quiet hs rfl
  · next forward =>
    unfold State.sendForward
    dsimp only
    split
    · exact k.quiet (k.forwardSent forward hs) rfl
    · exact hs
  · exact hs

theorem Keeps.consoleFrameSent (k : Keeps P) (hs : P s) : P s.consoleFrameSent := by
  refine k.quiet hs (withConsole_quiet ?_ ?_)
  all_goals
    unfold Console.frameSent
    split
    · rfl
    · split <;> rfl

theorem Keeps.offerReport (k : Keeps P) (i : Slot) (kind : NodeKind) (p : Option Nat) (r : Report) (hs : P s) :
    P (s.offerReport i kind p r) := by
  unfold State.offerReport
  dsimp only
  split
  · exact hs
  · split
    · exact k.enqueueForward _ (k.quiet hs rfl)
    · exact k.quiet hs rfl

/-! ## Console commands (R157) -/

theorem Keeps.reply (k : Keeps P) (seq code : Byte) (o : OutcomeCode) (fields : List Field) (hs : P s) :
    P (s.reply seq code o fields) := k.addReply _ hs

theorem Keeps.whenRunning (f : State → State) (h : ∀ {s}, P s → P (f s)) (hs : P s) : P (s.whenRunning f) := by
  unfold State.whenRunning
  split
  · exact h hs
  · exact hs

theorem Keeps.onCommand (k : Keeps P) (f : State → State) (h : ∀ {s}, P s → P (f s)) (hs : P s) : P (s.onCommand f) :=
  whenRunning _ (fun hu => h (k.silenceReset hu)) hs

theorem Keeps.takeStatus (k : Keeps P) (seq : Byte) (args : List Byte) (hs : P s) : P (s.takeStatus seq args) := by
  unfold State.takeStatus
  split <;> exact k.reply _ _ _ _ hs

theorem Keeps.takeRead (k : Keeps P) (seq : Byte) (args : List Byte) (hs : P s) : P (s.takeRead seq args) := by
  unfold State.takeRead
  split
  · split
    · split <;> exact k.reply _ _ _ _ hs
    · exact k.reply _ _ _ _ hs
  · exact k.reply _ _ _ _ hs

theorem Keeps.takeWrite (k : Keeps P) (seq : Byte) (args : List Byte) (hs : P s) : P (s.takeWrite seq args) := by
  unfold State.takeWrite
  dsimp only
  split
  · exact k.reply _ _ _ _ hs
  · split
    · exact k.reply _ _ _ _ hs
    · split
      · next room => exact k.reply _ _ _ _ (k.stage _ room hs)
      · exact k.reply _ _ _ _ hs

theorem Keeps.takeDiscard (k : Keeps P) (seq : Byte) (args : List Byte) (hs : P s) : P (s.takeDiscard seq args) := by
  unfold State.takeDiscard
  split
  · split
    · exact k.reply _ _ _ _ hs
    · exact k.reply _ _ _ _ (k.unstage _ rfl hs)
  · exact k.reply _ _ _ _ hs

theorem Keeps.takeCommit (k : Keeps P) (seq : Byte) (args : List Byte) (hs : P s) : P (s.takeCommit seq args) := by
  unfold State.takeCommit
  split
  · split
    · exact k.reply _ _ _ _ hs
    · split
      · exact k.reply _ _ _ _ hs
      · exact k.reply _ _ _ _ (k.quiet hs rfl)
  · exact k.reply _ _ _ _ hs

/-- START enters CLIMB or HOLD, and only with every HALT-class condition IDLE, CLIMB with every HOLD-class one (R113). -/
theorem startOutcome_mode {s : State} {m : RiseMode} (h : s.startOutcome.2 = some m) :
    s.haltQuiet ∧ (m = .climb ∧ s.holdQuiet ∨ m = .hold) := by
  unfold State.startOutcome at h
  split at h
  case h_5 =>
    split at h
    · exact absurd h nofun
    · next blocked =>
      simp only [Bool.or_eq_true, Bool.not_eq_true', not_or, Bool.not_eq_false] at blocked
      split at h
      · next quiet => exact ⟨blocked.1.1, .inl ⟨(Option.some.inj h).symm, quiet⟩⟩
      · exact ⟨blocked.1.1, .inr (Option.some.inj h).symm⟩
  all_goals exact absurd h nofun

theorem Keeps.takeStart (k : Keeps P) (seq : Byte) (args : List Byte) (hs : P s) : P (s.takeStart seq args) := by
  have due {u : State} (hu : P u) : P u.dueAtOnce := by
    unfold State.dueAtOnce
    split
    · exact hu
    · exact k.quiet hu rfl
  unfold State.takeStart
  dsimp only
  split
  · refine k.reply _ _ _ _ (due ?_)
    split
    · next m e => exact k.start m (startOutcome_mode e).1 (startOutcome_mode e).2 hs
    · exact hs
  · exact k.reply _ _ _ _ hs

theorem Keeps.takeStop (k : Keeps P) (seq : Byte) (args : List Byte) (hs : P s) : P (s.takeStop seq args) := by
  unfold State.takeStop
  split
  · exact k.reply _ _ _ _ (k.stop hs)
  · exact k.reply _ _ _ _ hs

theorem Keeps.takeHold (k : Keeps P) (seq : Byte) (args : List Byte) (hs : P s) : P (s.takeHold seq args) := by
  unfold State.takeHold
  split
  · exact k.reply _ _ _ _ (k.evaluate _ _ _ (by decide) hs)
  · exact k.reply _ _ _ _ hs

theorem Keeps.takeRelease (k : Keeps P) (seq : Byte) (args : List Byte) (hs : P s) : P (s.takeRelease seq args) := by
  unfold State.takeRelease
  split
  · exact k.reply _ _ _ _ (k.release hs)
  · exact k.reply _ _ _ _ hs

theorem Keeps.takeSetRate (k : Keeps P) (seq : Byte) (args : List Byte) (hs : P s) : P (s.takeSetRate seq args) := by
  unfold State.takeSetRate
  split
  · exact k.reply _ _ _ _ (k.quiet hs rfl)
  · exact k.reply _ _ _ _ hs

theorem Keeps.takeAck (k : Keeps P) (seq : Byte) (args : List Byte) (hs : P s) : P (s.takeAck seq args) := by
  unfold State.takeAck
  dsimp only
  split
  · split
    · exact k.reply _ _ _ _ hs
    · split
      · exact k.reply _ _ _ _ hs
      · exact k.reply _ _ _ _ (k.acknowledge _ hs)
  · exact k.reply _ _ _ _ hs

theorem Keeps.takePoll (k : Keeps P) (seq : Byte) (args : List Byte) (hs : P s) : P (s.takePoll seq args) := by
  unfold State.takePoll
  split <;> exact k.reply _ _ _ _ hs

theorem Keeps.takeMask (k : Keeps P) (seq : Byte) (args : List Byte) (hs : P s) : P (s.takeMask seq args) := by
  unfold State.takeMask
  dsimp only
  split
  · split
    · exact k.reply _ _ _ _ (k.quiet hs rfl)
    · exact k.reply _ _ _ _ hs
  · exact k.reply _ _ _ _ hs

theorem Keeps.takeFeedStart (k : Keeps P) (seq : Byte) (args : List Byte) (hs : P s) : P (s.takeFeedStart seq args) := by
  unfold State.takeFeedStart
  split
  · split
    · split
      · exact k.reply _ _ _ _ hs
      · next mode =>
        split
        · exact k.reply _ _ _ _ hs
        · next rests =>
          split
          · exact k.reply _ _ _ _ (k.startChannel _ _ mode (Bool.not_eq_true _ ▸ rests) hs)
          · exact k.reply _ _ _ _ hs
    · exact k.reply _ _ _ _ hs
  · exact k.reply _ _ _ _ hs

theorem Keeps.takeFeedStop (k : Keeps P) (seq : Byte) (args : List Byte) (hs : P s) : P (s.takeFeedStop seq args) := by
  unfold State.takeFeedStop
  split
  · split
    · exact k.reply _ _ _ _ (k.stopChannel _ hs)
    · exact k.reply _ _ _ _ hs
  · exact k.reply _ _ _ _ hs

theorem Keeps.takePlace (k : Keeps P) (seq : Byte) (args : List Byte) (hs : P s) : P (s.takePlace seq args) := by
  unfold State.takePlace
  dsimp only
  split
  · split
    · split
      · exact k.reply _ _ _ _ (k.place _ _ _ _ hs)
      · exact k.reply _ _ _ _ hs
    · exact k.reply _ _ _ _ hs
  · exact k.reply _ _ _ _ hs

theorem Keeps.collectRelay (k : Keeps P) (seq : Byte) (i : RelayIx) (x : RelaySlot) (hs : P s) :
    P (s.collectRelay seq i x) := by
  unfold State.collectRelay
  split
  · exact k.reply _ _ _ _ hs
  · exact k.reply _ _ _ _ hs
  · exact k.reply _ _ _ _ (k.quiet hs rfl)
  · exact k.reply _ _ _ _ (k.quiet hs rfl)

theorem Keeps.newRelay (k : Keeps P) (seq : Byte) (tag : Nat) (target : Slot) (payload : List Byte) (hs : P s) :
    P (s.newRelay seq tag target payload) := by
  unfold State.newRelay
  dsimp only
  split
  · exact k.reply _ _ _ _ hs
  · split
    · exact k.reply _ _ _ _ hs
    · split
      · exact k.reply _ _ _ _ hs
      · split
        · exact k.reply _ _ _ _ hs
        · exact k.reply _ _ _ _ (k.quiet hs rfl)

theorem Keeps.takeRelay (k : Keeps P) (seq : Byte) (args : List Byte) (hs : P s) : P (s.takeRelay seq args) := by
  unfold State.takeRelay
  split
  · split
    · split
      · split
        · split
          · exact k.collectRelay _ _ _ hs
          · exact k.newRelay _ _ _ _ hs
        · exact k.newRelay _ _ _ _ hs
      · exact k.reply _ _ _ _ hs
    · exact k.reply _ _ _ _ hs
  · exact k.reply _ _ _ _ hs

theorem Keeps.takeSetUser (k : Keeps P) (seq : Byte) (args : List Byte) (hs : P s) : P (s.takeSetUser seq args) := by
  unfold State.takeSetUser
  dsimp only
  split
  · exact k.reply _ _ _ _ (k.quiet hs rfl)
  · exact k.reply _ _ _ _ hs

theorem Keeps.takeRestart (k : Keeps P) (seq : Byte) (args : List Byte) (hs : P s) : P (s.takeRestart seq args) := by
  unfold State.takeRestart
  split
  · exact k.reply _ _ _ _ (k.restarted hs)
  · exact k.reply _ _ _ _ hs

theorem Keeps.relayExpiry (k : Keeps P) (i : RelayIx) (hs : P s) : P (s.relayExpiry i) := by
  unfold State.relayExpiry
  dsimp only
  split
  · split
    · split
      · exact k.quiet hs rfl
      · exact hs
    · exact hs
  · exact hs

/-! ## The feed's timers -/

theorem Keeps.dwellExpiry (k : Keeps P) (c : Channel) (hs : P s) : P (s.dwellExpiry c) := by
  unfold State.dwellExpiry
  split
  · exact k.askClose c _ hs
  · exact hs

theorem Keeps.pauseExpiry (k : Keeps P) (c : Channel) (hs : P s) : P (s.pauseExpiry c) := by
  unfold State.pauseExpiry
  split
  · next paused _ =>
    split
    · exact k.endPause c _ paused hs
    · exact hs
  · exact hs

theorem Keeps.blockExpiry (k : Keeps P) (c : Channel) (hs : P s) : P (s.blockExpiry c) := by
  unfold State.blockExpiry
  split
  · exact k.openTest c hs
  · exact hs

/-! ## The ring -/

/-- A grant that is not the step's own leaves the state. -/
theorem Keeps.grant (take : Grant → Option (State → State)) (h : ∀ g {u}, P u → P ((take g).getD id u)) (hs : P s) :
    P (s.grant take) := by
  unfold State.grant
  split
  · next g _ =>
    have taken := h g hs
    split
    · next e => rwa [e] at taken
    · exact hs
  · exact hs

theorem Keeps.beginExchange (k : Keeps P) (x : ExchangeKind) (address : Nat) (kind : Byte) (payload : List Byte)
    (hs : P s) : P (s.beginExchange x address kind payload) := k.sends _ _ rfl hs

theorem Keeps.beginFeed (k : Keeps P) (x : FeedExchange) (hs : P s) : P (s.beginFeed x) := by
  unfold State.beginFeed
  dsimp only
  split <;> exact k.beginExchange _ _ _ _ (k.quiet hs rfl)

theorem Keeps.beginRelay (k : Keeps P) (i : RelayIx) (hs : P s) : P (s.beginRelay i) := by
  unfold State.beginRelay
  split
  · exact k.beginExchange _ _ _ _ (k.quiet hs rfl)
  · exact hs

theorem Keeps.requestSent (k : Keeps P) (hs : P s) : P s.requestSent := by
  unfold State.requestSent
  split
  · split
    · exact k.leaves _ _ rfl hs
    · exact hs
  · exact hs

/-- The expectations are set and the stroke window opens (R26, R30). -/
theorem windowOpens_quiet (s : State) : Quiet s (s.setExpectations.withDispatch { s.setExpectations.dispatch with
    state := .window, windowEndsAt := some (s.setExpectations.now + s.setExpectations.params.strokeMs) }) :=
  (withExpectations_quiet s _).trans (withDispatch_quiet _ _)

theorem Keeps.goSent (k : Keeps P) (hs : P s) : P s.goSent := by
  have freed : P (s.freeRing.withPower { s.power with ringDriver := false }) := k.leaves _ _ rfl hs
  unfold State.goSent
  dsimp only
  split
  · split
    · split
      · split
        · exact k.quiet freed (windowOpens_quiet _)
        · exact k.quiet freed rfl
      · exact freed
    · exact hs
  · exact hs

/-- The reply window of the exchange on the ring is open (R6). -/
def Waits (s : State) : Prop := ∃ r e, s.ring = some r ∧ r.phase = .window e

theorem Keeps.free (k : Keeps P) (w : Waits s) (hs : P s) : P s.freeRing := by
  obtain ⟨r, e, ring, phase⟩ := w
  exact k.freed ring phase hs

theorem waits_of_openWindow {s : State} {a : Byte} {x : Exchange} (h : s.openWindow a = some x) : Waits s := by
  obtain ⟨ring, ⟨e, phase, -⟩, -⟩ := (openWindow_iff s a x).1 h
  exact ⟨x, e, ring, phase⟩

theorem Keeps.endExchange (k : Keeps P) (i : Slot) (w : Waits s) (hs : P s) : P (s.endExchange i) :=
  k.quiet (k.free w hs) rfl

theorem Keeps.updateRecord (k : Keeps P) (i : Slot) (r : NodeRecord) (hs : P s) : P (s.updateRecord i r) := by
  have set : P (s.setRecord i r) := k.quiet hs rfl
  unfold State.updateRecord
  dsimp only
  split
  · exact set
  · exact k.evaluateNodes set

theorem Keeps.updateState (k : Keeps P) (i : Slot) (r : NodeRecord) (openMiss : Bool) (hs : P s) :
    P (s.updateState i r openMiss) := by
  have updated := k.updateRecord i r hs
  unfold State.updateState
  dsimp only
  split
  · exact updated
  · split
    · exact k.sensorStateChanged i _ updated
    · exact k.outletStateChanged i _ updated
    · exact updated

theorem Keeps.takeSensorValue (k : Keeps P) (i : Slot) (value : Int) (old new : NodeState) (hs : P s) :
    P (s.takeSensorValue i value old new) := by
  have changed : P (if old = new then s else s.sensorStateChanged i new) := by
    split
    · exact hs
    · exact k.sensorStateChanged i new hs
  unfold State.takeSensorValue
  dsimp only
  split
  · exact k.judgeValue i value changed
  · exact changed

theorem Keeps.handReport (k : Keeps P) (i : Slot) (report : Report) (old new : NodeState) (previous : Option Nat)
    (hs : P s) : P (s.handReport i report old new previous) := by
  cases report with
  | jack height tag fault => exact k.quiet (k.verifyStroke i height previous hs) (setRecord_quiet _ _ _)
  | sensor value fault => exact k.takeSensorValue i value old new hs
  | outlet ready ended fault delivered tag => exact k.outletReport i _ hs

theorem Keeps.takeReport (k : Keeps P) (i : Slot) (report : Report) (hs : P s) : P (s.takeReport i report) :=
  k.offerReport _ _ _ _ (k.handReport _ _ _ _ _ (k.updateRecord _ _ hs))

theorem Keeps.ringReport (k : Keeps P) (address : Byte) (payload : List Byte) (hs : P s) :
    P (s.ringReport address payload) := by
  unfold State.ringReport
  split
  · next open_ =>
    have waits := waits_of_openWindow open_
    have taken (i : Slot) (report : Report) : P ((s.endExchange i).takeReport i report) :=
      k.takeReport _ _ (k.endExchange i waits hs)
    split
    · split
      · split
        · exact k.free waits hs
        · exact k.advanceSweep _ (k.quiet (taken _ _) (withSweep_quiet _ _))
      · exact hs
    · split
      · split
        · exact k.free waits hs
        · exact taken _ _
      · exact hs
    all_goals exact hs
  · exact hs

theorem Keeps.demandAck (k : Keeps P) (address : Byte) (payload : List Byte) (hs : P s) : P (s.demandAck address payload) := by
  unfold State.demandAck
  split
  · next open_ =>
    have freed := k.free (waits_of_openWindow open_) hs
    split
    · split
      · exact freed
      · exact k.quiet (k.updateState _ _ _ freed) rfl
    · exact hs
  · exact hs

theorem Keeps.openAck (k : Keeps P) (address : Byte) (payload : List Byte) (hs : P s) : P (s.openAck address payload) := by
  unfold State.openAck
  split
  · next open_ =>
    have waits := waits_of_openWindow open_
    split
    · split
      · exact k.free waits hs
      · exact k.openAcked _ _ (k.updateState _ _ _ (k.endExchange _ waits hs))
    · exact hs
  · exact hs

theorem Keeps.closeAck (k : Keeps P) (address : Byte) (payload : List Byte) (hs : P s) : P (s.closeAck address payload) := by
  unfold State.closeAck
  split
  · next open_ =>
    have waits := waits_of_openWindow open_
    split
    · split
      · exact k.free waits hs
      · exact k.updateState _ _ _ (k.endExchange _ waits hs)
    · exact hs
  · exact hs

theorem Keeps.endRelay (k : Keeps P) (i : RelayIx) (result : Option (List Byte)) (hs : P s) : P (s.endRelay i result) := by
  unfold State.endRelay
  split
  · split <;> exact k.quiet hs rfl
  · exact hs

theorem Keeps.relayBack (k : Keeps P) (address : Byte) (payload : List Byte) (hs : P s) : P (s.relayBack address payload) := by
  unfold State.relayBack
  split
  · next open_ =>
    have freed := k.free (waits_of_openWindow open_) hs
    split
    · split
      · split
        · exact freed
        · exact k.endRelay _ _ freed
      · exact hs
    · exact hs
  · exact hs

theorem Keeps.closeMissed (k : Keeps P) (c : Channel) (tag : Nat) (stray : Bool) (hs : P s) :
    P (s.closeMissed c tag stray) := by
  unfold State.closeMissed
  dsimp only
  split
  · split
    · exact k.quiet hs rfl
    · exact hs
  · exact hs

theorem Keeps.exchangeMissed (k : Keeps P) (x : ExchangeKind) (w : Waits s) (hs : P s) : P (s.exchangeMissed x) := by
  have missed (i : Slot) (openMiss : Bool) : P ((s.endExchange i).missNode i openMiss) :=
    k.updateState _ _ _ (k.endExchange i w hs)
  cases x with
  | sweepPoll i => exact k.advanceSweep i (missed i _)
  | outletPoll i => exact missed i _
  | demand i => exact k.quiet (k.updateState i _ _ (k.free w hs)) rfl
  | go => exact k.free w hs
  | openOutlet c i tag => exact k.openMissed c tag (missed i _)
  | closeOutlet c i tag stray => exact k.closeMissed c tag stray (missed i _)
  | relay i target tag => exact k.endRelay i none (k.free w hs)

theorem Keeps.replyWindowExpiry (k : Keeps P) (hs : P s) : P s.replyWindowExpiry := by
  unfold State.replyWindowExpiry
  split
  · next x ring =>
    split
    · next e phase =>
      have waits : Waits s := ⟨x, e, ring, phase⟩
      split
      · split
        · exact k.free waits hs
        · split
          · exact k.exchangeMissed _ waits hs
          · exact k.sends _ _ rfl hs
      · exact hs
    · exact hs
  · exact hs

theorem Keeps.strokeWindowExpiry (k : Keeps P) (hs : P s) : P s.strokeWindowExpiry := by
  unfold State.strokeWindowExpiry
  split
  · split
    · exact k.quiet hs rfl
    · exact hs
  · exact hs

/-! ## Arrivals -/

theorem Keeps.dispatchResultArrival (k : Keeps P) (hs : P s) : P s.dispatchResultArrival := by
  unfold State.dispatchResultArrival State.dispatchResult
  dsimp only
  split
  · exact hs
  · split
    · exact k.quiet hs rfl
    · exact k.quiet hs rfl

theorem Keeps.placementResultArrival (k : Keeps P) (hs : P s) : P s.placementResultArrival := by
  unfold State.placementResultArrival
  dsimp only
  split
  · exact k.retireAll _ (k.quiet hs rfl)
  · exact k.placementResult _ (k.quiet hs rfl)
  · exact hs

theorem Keeps.markerResultArrival (k : Keeps P) (hs : P s) : P s.markerResultArrival := by
  unfold State.markerResultArrival
  dsimp only
  split
  · exact hs
  · exact k.markerResult _ (k.quiet hs rfl)

theorem Keeps.feedResultArrival (k : Keeps P) (hs : P s) : P s.feedResultArrival := by
  unfold State.feedResultArrival
  dsimp only
  split
  · exact hs
  · exact k.feedResult _ (k.quiet hs rfl)

theorem Keeps.spreadSwitchArrival (k : Keeps P) (hs : P s) : P s.spreadSwitchArrival := by
  unfold State.spreadSwitchArrival
  dsimp only
  split
  · exact hs
  · next switches => exact k.takeSwitch switches hs

theorem Keeps.dispatchModeArrival (k : Keeps P) (hs : P s) : P s.dispatchModeArrival := by
  unfold State.dispatchModeArrival State.dispatchMode
  dsimp only
  split
  · exact hs
  · split
    · exact k.quiet hs rfl
    · exact k.quiet hs rfl

theorem Keeps.feedModeArrival (k : Keeps P) (hs : P s) : P s.feedModeArrival := by
  unfold State.feedModeArrival
  dsimp only
  split
  · exact hs
  · exact k.feedMode _ (k.quiet hs rfl)

theorem Keeps.relayModeArrival (k : Keeps P) (hs : P s) : P s.relayModeArrival := by
  unfold State.relayModeArrival State.relayMode
  dsimp only
  split
  · exact hs
  · split
    · exact k.quiet hs rfl
    · exact k.quiet hs rfl

theorem Keeps.sweepModeArrival (k : Keeps P) (hs : P s) : P s.sweepModeArrival := by
  unfold State.sweepModeArrival
  dsimp only
  split
  · exact hs
  · exact k.recomputeDue (k.quiet hs rfl)

theorem Keeps.rateClockModeArrival (k : Keeps P) (hs : P s) : P s.rateClockModeArrival := by
  unfold State.rateClockModeArrival
  dsimp only
  split
  · exact hs
  · exact k.quiet hs rfl

theorem Keeps.silenceModeArrival (k : Keeps P) (hs : P s) : P s.silenceModeArrival := by
  unfold State.silenceModeArrival
  dsimp only
  split
  · exact hs
  · exact k.quiet hs rfl

/-! ## Every command -/

/-- The state after an event in a part that runs. -/
theorem Keeps.event {t : State} {f : State → State} (h : ∀ {u}, P u → P (f u))
    (e : Host.Outcome.next (φ := Fault) (ρ := Refusal) (s.whenRunning f) = .next t) (hs : P s) : P t :=
  Host.Outcome.next.inj e ▸ whenRunning f h hs

/-- The state after a console command. -/
theorem Keeps.commanded (k : Keeps P) {t : State} {f : State → State} (h : ∀ {u}, P u → P (f u))
    (e : Host.Outcome.next (φ := Fault) (ρ := Refusal) (s.onCommand f) = .next t) (hs : P s) : P t :=
  Host.Outcome.next.inj e ▸ k.onCommand f h hs

/-- The state after a grant of the ring. -/
theorem Keeps.granted {t : State} {take : Grant → Option (State → State)} (h : ∀ g {u}, P u → P ((take g).getD id u))
    (e : Host.Outcome.next (φ := Fault) (ρ := Refusal) (s.whenRunning fun u => u.grant take) = .next t) (hs : P s) : P t :=
  event (fun hu => grant take h hu) e hs

theorem Keeps.execSweepStart (k : Keeps P) {t : State} (e : execSweepStart s = .next t) (hs : P s) : P t := by
  refine granted (fun g u hu => ?_) e hs
  cases g with
  | sweepStart => exact k.startSweep hu
  | _ => exact hu

theorem Keeps.execSweepPoll (k : Keeps P) {t : State} (e : execSweepPoll s = .next t) (hs : P s) : P t := by
  refine granted (fun g u hu => ?_) e hs
  cases g with
  | sweepPoll i => exact k.beginExchange _ _ _ _ hu
  | _ => exact hu

theorem Keeps.execOutletPoll (k : Keeps P) {t : State} (e : execOutletPoll s = .next t) (hs : P s) : P t := by
  refine granted (fun g u hu => ?_) e hs
  cases g with
  | outletPoll i => exact k.beginExchange _ _ _ _ hu
  | _ => exact hu

theorem Keeps.execDemand (k : Keeps P) {t : State} (e : execDemand s = .next t) (hs : P s) : P t := by
  refine granted (fun g u hu => ?_) e hs
  cases g with
  | demand x => exact k.beginExchange _ _ _ _ hu
  | _ => exact hu

theorem Keeps.execGoBroadcast (k : Keeps P) {t : State} (e : execGoBroadcast s = .next t) (hs : P s) : P t := by
  refine granted (fun g u hu => ?_) e hs
  cases g with
  | go => exact k.beginExchange _ _ _ _ hu
  | _ => exact hu

theorem Keeps.execRelayExchange (k : Keeps P) {t : State} (e : execRelayExchange s = .next t) (hs : P s) : P t := by
  refine granted (fun g u hu => ?_) e hs
  cases g with
  | relay i => exact k.beginRelay i hu
  | _ => exact hu

theorem Keeps.execOpenExchange (k : Keeps P) {t : State} (e : execOpenExchange s = .next t) (hs : P s) : P t := by
  refine granted (fun g u hu => ?_) e hs
  cases g with
  | feed x =>
    dsimp only
    split
    · exact k.beginFeed x hu
    · exact hu
  | _ => exact hu

theorem Keeps.execCloseExchange (k : Keeps P) {t : State} (e : execCloseExchange s = .next t) (hs : P s) : P t := by
  refine granted (fun g u hu => ?_) e hs
  cases g with
  | feed x =>
    dsimp only
    split
    · exact hu
    · exact k.beginFeed x hu
  | _ => exact hu

/-- Every command keeps what satisfies the walk. -/
theorem Keeps.exec (k : Keeps P) (i : Instr) {t : State} (h : exec i s = .next t) (hs : P s) : P t := by
  cases i with
  | powerOn => exact Host.Outcome.next.inj h ▸ k.powerOn hs
  | powerLoss => exact Host.Outcome.next.inj h ▸ k.driverOff _ rfl (k.powerOn hs)
  | resetPinAssert => exact Host.Outcome.next.inj h ▸ k.driverOff _ rfl hs
  | pourClockTick => exact event (f := State.tickPourClock) (fun hu => k.quiet hu rfl) h hs
  | status seq args => exact k.commanded (k.takeStatus seq args) h hs
  | read seq args => exact k.commanded (k.takeRead seq args) h hs
  | write seq args => exact k.commanded (k.takeWrite seq args) h hs
  | discard seq args => exact k.commanded (k.takeDiscard seq args) h hs
  | commit seq args => exact k.commanded (k.takeCommit seq args) h hs
  | start seq args => exact k.commanded (k.takeStart seq args) h hs
  | stop seq args => exact k.commanded (k.takeStop seq args) h hs
  | hold seq args => exact k.commanded (k.takeHold seq args) h hs
  | release seq args => exact k.commanded (k.takeRelease seq args) h hs
  | setRate seq args => exact k.commanded (k.takeSetRate seq args) h hs
  | ack seq args => exact k.commanded (k.takeAck seq args) h hs
  | pollCondition seq args => exact k.commanded (k.takePoll seq args) h hs
  | mask seq args => exact k.commanded (k.takeMask seq args) h hs
  | feedStart seq args => exact k.commanded (k.takeFeedStart seq args) h hs
  | feedStop seq args => exact k.commanded (k.takeFeedStop seq args) h hs
  | place seq args => exact k.commanded (k.takePlace seq args) h hs
  | relay seq args => exact k.commanded (k.takeRelay seq args) h hs
  | setUser seq args => exact k.commanded (k.takeSetUser seq args) h hs
  | restart seq args => exact k.commanded (k.takeRestart seq args) h hs
  | unknownCommand seq code args => exact k.commanded (k.reply seq code _ _) h hs
  | consoleFrameReject frame => exact event (k.rejectFrame frame) h hs
  | consoleSend => exact event k.consoleSend h hs
  | consoleFrameSent => exact event k.consoleFrameSent h hs
  | silenceExpiry => exact event k.silenceExpiry h hs
  | beaconBuild => exact event k.buildBeacon h hs
  | dispatchResultArrival => exact event k.dispatchResultArrival h hs
  | placementResultArrival => exact event k.placementResultArrival h hs
  | markerResultArrival => exact event k.markerResultArrival h hs
  | feedResultArrival => exact event k.feedResultArrival h hs
  | spreadSwitchArrival => exact event k.spreadSwitchArrival h hs
  | sweepModeArrival => exact event k.sweepModeArrival h hs
  | dispatchModeArrival => exact event k.dispatchModeArrival h hs
  | rateClockModeArrival => exact event k.rateClockModeArrival h hs
  | feedModeArrival => exact event k.feedModeArrival h hs
  | silenceModeArrival => exact event k.silenceModeArrival h hs
  | relayModeArrival => exact event k.relayModeArrival h hs
  | goSent => exact event k.goSent h hs
  | requestFrameSent => exact event k.requestSent h hs
  | replyWindowExpiry => exact event k.replyWindowExpiry h hs
  | strokeWindowExpiry => exact event k.strokeWindowExpiry h hs
  | dwellExpiry ch => exact event (k.dwellExpiry ch) h hs
  | pauseExpiry ch => exact event (k.pauseExpiry ch) h hs
  | blockTimerExpiry ch => exact event (k.blockExpiry ch) h hs
  | relayResultExpiry slot => exact event (k.relayExpiry slot) h hs
  | sweepStart => exact k.execSweepStart h hs
  | sweepPoll => exact k.execSweepPoll h hs
  | outletPoll => exact k.execOutletPoll h hs
  | demand => exact k.execDemand h hs
  | goBroadcast => exact k.execGoBroadcast h hs
  | openExchange => exact k.execOpenExchange h hs
  | closeExchange => exact k.execCloseExchange h hs
  | relayExchange => exact k.execRelayExchange h hs
  | ringReport address payload => exact event (k.ringReport address payload) h hs
  | demandAck address payload => exact event (k.demandAck address payload) h hs
  | openAck address payload => exact event (k.openAck address payload) h hs
  | closeAck address payload => exact event (k.closeAck address payload) h hs
  | ringRelayBack address payload => exact event (k.relayBack address payload) h hs
  | ringFrameDiscard frame => exact Host.Outcome.next.inj h ▸ hs

/-- A step is the passing of a millisecond or the command at the front of the queue. -/
theorem Keeps.step (k : Keeps P) (idles : ∀ {s}, P s → P (s.withNow (s.now + 1)))
    (takes : ∀ {s} q, P s → P (s.withPending q)) {t : State} (h : step s = .next t) (hs : P s) : P t := by
  unfold Sys2Proof.Machine.step at h
  split at h
  · exact Host.Outcome.next.inj h ▸ idles hs
  · exact k.exec _ h (takes _ hs)

end Sys2Proof.Proofs
end


section
/-! PROOFS. Invariants that do not speak of the feed: what its events amount to for them. -/

namespace Sys2Proof.Proofs

open Sys2Proof Sys2Proof.Machine Sys2Proof.Laws

/-- An invariant that says nothing of channels, claims, exchanges and records: steps of the engine, the index of free values,
placements and the raises of NOTE-class conditions keep it. -/
structure FeedBlind (P : State → Prop) : Prop where
  engine : ∀ {s t}, P s → EngineStep s t → P t
  free : ∀ {s} n, P s → P (s.withFree n)
  takePlacement : ∀ {s} k v source d, P s → P (s.takePlacement k v source d)
  note : ∀ {s} c d, c.cls = .note → P s → P (s.raise c d)

variable {P : State → Prop} {s : State}

theorem FeedBlind.channel (k : FeedBlind P) {c : Channel} {t : State} (hs : P s) (h : ChannelStep c s t) : P t :=
  k.engine hs h.engine

theorem FeedBlind.setChannel (k : FeedBlind P) (c : Channel) (x : ChannelContext) (hs : P s) : P (s.setChannel c x) :=
  k.channel hs (setChannel_step s c x)

theorem FeedBlind.queueExchange (k : FeedBlind P) (x : FeedExchange) (hs : P s) : P (s.queueExchange x) :=
  k.channel hs (queueExchange_step s .a x)

theorem FeedBlind.evaluateJam (k : FeedBlind P) (hs : P s) : P s.evaluateJam := k.channel hs (evaluateJam_step s .a)

theorem FeedBlind.openTest (k : FeedBlind P) (c : Channel) (hs : P s) : P (s.openTest c) :=
  k.channel hs (openTest_step s c)

theorem FeedBlind.askClose (k : FeedBlind P) (c : Channel) (cause : CloseCause) (hs : P s) : P (s.askClose c cause) :=
  k.channel hs (askClose_step s c cause)

theorem FeedBlind.fullTest (k : FeedBlind P) (c : Channel) (hs : P s) : P (s.fullTest c) :=
  k.channel hs (fullTest_step s c)

theorem FeedBlind.stopChannel (k : FeedBlind P) (c : Channel) (cause : CloseCause) (hs : P s) :
    P (s.stopChannel c cause) := k.channel hs (stopChannel_step s c cause)

theorem FeedBlind.finishDescriptor (k : FeedBlind P) (c : Channel) (hs : P s) : P (s.finishDescriptor c) :=
  k.channel hs (finishDescriptor_step s c)

theorem FeedBlind.endPause (k : FeedBlind P) (c : Channel) (kind : PauseKind) (hs : P s) : P (s.endPause c kind) :=
  k.channel hs (endPause_step s c kind)

theorem FeedBlind.releaseClaims (k : FeedBlind P) (c : Channel) (w : WorkingCopy) (hs : P s) : P (s.releaseClaims c w) :=
  k.engine hs (releaseClaims_step s c w)

theorem FeedBlind.withdrawExchanges (k : FeedBlind P) (c : Channel) (hs : P s) : P (s.withdrawExchanges c) :=
  k.channel hs (withdrawExchanges_step s c c)

/-- Waiting exchanges may go and come, and the descriptor table and the feed note may change. -/
theorem FeedBlind.withFeed (k : FeedBlind P) (x : Feed) (hs : P s)
    (h : x.channel (otherChannel .a) = s.feed.channel (otherChannel .a)) : P (s.withFeed x) :=
  k.channel hs (withFeed_step s .a x h)

/-- An event of both channels, in either order. -/
theorem FeedBlind.bothChannels (k : FeedBlind P) (f : Channel → State → State) (h : ∀ c {t}, P t → P (f c t)) (hs : P s) :
    P (s.bothChannels f) := h _ (h _ (k.free _ hs))

theorem FeedBlind.haltFeed (k : FeedBlind P) (before : RiseMode) (hs : P s) : P (s.haltFeed before) := by
  unfold State.haltFeed
  split
  · exact k.bothChannels _ (fun c _ ht => k.stopChannel c _ ht) hs
  · exact hs

theorem FeedBlind.place (k : FeedBlind P) (i : SegmentIx) (v : Nat) (source : LayerSource) (d : Option DescriptorIx)
    (maker : Option Channel) (hs : P s) : P (s.place i v source d maker) := by
  have placed := k.takePlacement i v source d hs
  unfold State.place
  dsimp only
  split
  · exact k.bothChannels _ (fun c t ht => k.channel ht (segmentPlacedFor_step i maker c t)) placed
  · exact placed

theorem FeedBlind.placeDelivered (k : FeedBlind P) (c : Channel) (w : WorkingCopy) (hs : P s) :
    P (s.placeDelivered c w) := by
  unfold State.placeDelivered
  dsimp only
  split
  · exact hs
  · exact k.place _ _ _ _ _ hs

theorem FeedBlind.pauseToResume (k : FeedBlind P) (c : Channel) (hs : P s) : P (s.pauseToResume c) := by
  unfold State.pauseToResume
  split
  · exact k.endPause c _ hs
  · exact k.setChannel c _ hs

theorem FeedBlind.feedShort (k : FeedBlind P) (c : Channel) (hs : P s) : P (s.feedShort c) :=
  k.finishDescriptor c (k.note .feedShort _ rfl (k.setChannel c _ hs))

theorem FeedBlind.afterOpening (k : FeedBlind P) (c : Channel) (hs : P s) : P (s.afterOpening c) := by
  unfold State.afterOpening
  dsimp only
  split
  · exact k.setChannel c _ hs
  · exact k.setChannel c _ hs
  · exact k.finishDescriptor c hs
  · exact k.feedShort c hs
  · exact k.finishDescriptor c hs
  · exact k.pauseToResume c hs
  · exact k.pauseToResume c hs
  · exact k.pauseToResume c hs

theorem FeedBlind.completeOpening (k : FeedBlind P) (c : Channel) (w : WorkingCopy) (hs : P s) :
    P (s.completeOpening c w) :=
  k.evaluateJam (k.afterOpening c (k.setChannel c _ (k.releaseClaims c w (k.placeDelivered c w hs))))

theorem FeedBlind.openingFault (k : FeedBlind P) (c : Channel) (w : WorkingCopy) (hs : P s) : P (s.openingFault c w) := by
  have withdrawn := k.withdrawExchanges c (k.setChannel c { ((s.placeDelivered c w).channel c).lowered with
    dwellEndsAt := none } (k.placeDelivered c w hs))
  exact k.evaluateJam (k.setChannel c _ (k.note .feedFault _ rfl (k.releaseClaims c w withdrawn)))

theorem FeedBlind.outletRemoved (k : FeedBlind P) (c : Channel) (w : WorkingCopy) (hs : P s) : P (s.outletRemoved c w) := by
  have released := k.releaseClaims c w (k.withdrawExchanges c hs)
  unfold State.outletRemoved
  dsimp only
  split
  · exact k.setChannel c _ released
  · exact k.setChannel c _ released
  · exact k.finishDescriptor c (k.setChannel c _ released)

theorem FeedBlind.judgeOutletReport (k : FeedBlind P) (c : Channel) (w : WorkingCopy) (ready ended fault : Bool)
    (delivered tag : Nat) (hs : P s) : P (s.judgeOutletReport c w ready ended fault delivered tag) := by
  have counted := k.setChannel c { s.channel c with delivered := delivered } hs
  unfold State.judgeOutletReport
  dsimp only
  split
  · exact k.openingFault c w hs
  · split
    · exact hs
    · split
      · exact k.completeOpening c w counted
      · split
        · split
          · exact k.fullTest c counted
          · exact k.askClose c _ counted
        · exact counted

theorem FeedBlind.outletReport (k : FeedBlind P) (slot : Slot) (report : Report) (hs : P s) :
    P (s.outletReport slot report) := by
  refine k.bothChannels _ (fun c {t} ht => ?_) hs
  unfold State.outletReportFor
  dsimp only
  split
  · split
    · split
      · exact k.judgeOutletReport c _ _ _ _ _ _ ht
      · exact k.judgeOutletReport c _ _ _ _ _ _ ht
      · exact k.openTest c ht
      · exact ht
    · exact ht
  · exact ht

theorem FeedBlind.outletStateChanged (k : FeedBlind P) (slot : Slot) (openMiss : Bool) (hs : P s) :
    P (s.outletStateChanged slot openMiss) := by
  refine k.bothChannels _ (fun c {t} ht => ?_) hs
  have lost (w : WorkingCopy) : P (if (t.record slot).state = .lost ∧ !openMiss then t.openingFault c w else t) := by
    split
    · exact k.openingFault c w ht
    · exact ht
  unfold State.outletStateFor
  dsimp only
  split
  · split
    · split
      · exact k.openTest c ht
      · exact lost _
      · exact lost _
      · exact ht
    · exact ht
  · exact ht

theorem FeedBlind.openAcked (k : FeedBlind P) (c : Channel) (tag : Nat) (hs : P s) : P (s.openAcked c tag) := by
  unfold State.openAcked
  dsimp only
  split
  · exact hs
  · split
    · exact k.setChannel c _ hs
    · exact k.queueExchange _ (k.setChannel c _ hs)
    · exact hs

theorem FeedBlind.openMissed (k : FeedBlind P) (c : Channel) (tag : Nat) (hs : P s) : P (s.openMissed c tag) := by
  have queued (w : WorkingCopy) : P ((s.releaseClaims c w).queueExchange ((s.releaseClaims c w).closeOf c w true)) :=
    k.queueExchange _ (k.releaseClaims c w hs)
  unfold State.openMissed
  dsimp only
  split
  · exact hs
  · split
    · exact k.evaluateJam (k.channel (queued _) (resumeWait_step _ c))
    · split
      · exact k.evaluateJam (k.setChannel c _ (queued _))
      · exact k.evaluateJam (k.setChannel c _ (queued _))
      · exact k.evaluateJam (k.finishDescriptor c (queued _))
    · exact hs

theorem FeedBlind.feedResult (k : FeedBlind P) (r : CycleResult) (hs : P s) : P (s.feedResult r) :=
  k.evaluateJam (k.bothChannels _ (fun c _ ht => k.fullTest c (k.openTest c ht)) (k.withFeed _ hs rfl))

theorem FeedBlind.feedMode (k : FeedBlind P) (m : ModeChange) (hs : P s) : P (s.feedMode m) := by
  refine k.evaluateJam (k.bothChannels _ (fun c {t} ht => ?_) hs)
  unfold State.feedModeFor
  split
  · exact k.stopChannel c _ ht
  · exact k.openTest c ht

theorem FeedBlind.commitChannelFor (k : FeedBlind P) (before : State) (nodes : Table NodeEntry 128)
    (segments : Table SegmentEntry 32) (c : Channel) (hs : P s) : P (State.commitChannelFor before nodes segments c s) := by
  unfold State.commitChannelFor
  dsimp only
  split
  · exact hs
  · split
    · exact k.openTest c hs
    · split
      · exact k.outletRemoved c _ hs
      · split
        · exact k.askClose c _ hs
        · exact hs
    · split
      · exact k.outletRemoved c _ hs
      · exact hs
    · exact hs

theorem FeedBlind.commitFeed (k : FeedBlind P) (nodes : Table NodeEntry 128) (segments : Table SegmentEntry 32) (hs : P s) :
    P (s.commitFeed nodes segments) := by
  have contexts : P (s.withFeed { s.feed with
      channelA := s.commitContext nodes segments s.feed.channelA
      channelB := s.commitContext nodes segments s.feed.channelB }) :=
    k.setChannel (s := s.setChannel .a (s.commitContext nodes segments s.feed.channelA)) .b
      (s.commitContext nodes segments s.feed.channelB) (k.setChannel .a _ hs)
  exact k.evaluateJam (k.withFeed _ (k.bothChannels _ (fun c _ ht => k.commitChannelFor _ nodes segments c ht) contexts) rfl)

theorem FeedBlind.startChannel (k : FeedBlind P) (c : Channel) (d : DescriptorIx) (hs : P s) : P (s.startChannel c d) :=
  k.evaluateJam (k.channel (k.setChannel c _ hs) (loadAndTest_step _ c d))

end Sys2Proof.Proofs
end

section
/-! PROOFS. The queues of the console traffic and the Command Unit (O9), the ring driver (O10), and the model's own queue and
time base (O2): invariants that speak neither of the feed nor of the rise mode. -/

namespace Sys2Proof.Proofs

open Sys2Proof Sys2Proof.Machine Sys2Proof.Laws

/-! ## What these invariants speak of -/

/-- Power, the model's own time base and queue, the ring, the reply and forward queues and the staged list. -/
structure Outside where
  power : Power
  now : Nat
  pending : List Instr
  ring : Option Exchange
  replies : List ReplyRecord
  forward : List ForwardRecord
  staged : List Edit

def outside (s : State) : Outside :=
  { power := s.power, now := s.now, pending := s.pending, ring := s.ring, replies := s.console.replies
    forward := s.console.forward, staged := s.command.staged }

/-! ### Updates of the other blocks leave all of them -/

@[simp] theorem outside_withFree (s : State) (x : Nat) : outside (s.withFree x) = outside s := rfl
@[simp] theorem outside_withRecords (s : State) (x : Table NodeRecord 128) : outside (s.withRecords x) = outside s := rfl
@[simp] theorem outside_withMode (s : State) (x : RiseMode) : outside (s.withMode x) = outside s := rfl
@[simp] theorem outside_withWalls (s : State) (x : Table SegmentLive 32) : outside (s.withWalls x) = outside s := rfl
@[simp] theorem outside_withFeed (s : State) (x : Feed) : outside (s.withFeed x) = outside s := rfl
@[simp] theorem outside_withConditions (s : State) (x : Conditions) : outside (s.withConditions x) = outside s := rfl
@[simp] theorem outside_withTransit (s : State) (x : Transit) : outside (s.withTransit x) = outside s := rfl

theorem engine_outside {s t : State} (h : EngineStep s t) : outside t = outside s := by
  have frame := h.frame
  unfold FeedFrame at frame
  rw [frame]
  simp

theorem wallFrame_outside {s t : State} (h : WallFrame s t) : outside t = outside s := by
  unfold WallFrame at h
  rw [h]
  simp

theorem raise_outside (s : State) (c : Cond) (d : Option Nat) : outside (s.raise c d) = outside s := by
  rw [raise_frame]
  simp

theorem quiet_outside {s t : State} (h : Quiet s t) : outside t = outside s := by
  unfold outside
  rw [show t.power = s.power from congrArg Spoken.power h, show t.now = s.now from congrArg Spoken.now h,
    show t.pending = s.pending from congrArg Spoken.pending h, show t.ring = s.ring from congrArg Spoken.ring h,
    show t.console.replies = s.console.replies from congrArg Spoken.replies h,
    show t.console.forward = s.console.forward from congrArg Spoken.forward h,
    show t.command.staged = s.command.staged from congrArg Spoken.staged h]

theorem clear_outside (s : State) (c : Cond) : outside (s.clear c) = outside s := by
  rw [clear_frame]
  simp

theorem changeMode_outside (s : State) (m : RiseMode) : outside (s.changeMode m) = outside s := by
  rw [changeMode_frame]
  simp

theorem acknowledge_outside (s : State) (c : Cond) : outside (s.acknowledge c) = outside s := by
  rw [acknowledge_frame]
  simp

theorem releaseManual_outside (s : State) : outside s.releaseManual = outside s := by
  rw [releaseManual_frame]
  simp

theorem takeSwitch_outside (s : State) (x : SpreadSwitch) : outside (s.takeSwitch x) = outside s := by
  unfold State.takeSwitch
  split
  · exact changeMode_outside s _
  · rfl

theorem haltFeed_outside (s : State) (before : RiseMode) : outside (s.haltFeed before) = outside s := by
  rw [haltFeed_frame]
  simp

/-- The same with the index of free values: an invariant of these parts is blind to the feed. -/
theorem feedBlind_of_outside {P : State → Prop} (h : ∀ {s t}, P s → outside t = outside s → P t) : FeedBlind P where
  engine hs e := h hs (engine_outside e)
  free _ hs := h hs rfl
  takePlacement k v source d hs := h hs (wallFrame_outside (takePlacement_frame _ k v source d))
  note c d _ hs := h hs (raise_outside _ c d)

/-- What an invariant of these parts has to satisfy at the operations that touch them. -/
theorem keeps_of_outside {P : State → Prop} (h : ∀ {s t}, P s → outside t = outside s → P t)
    (powerOn : ∀ {s}, P s → P (State.powerOn s.now s.free s.pending))
    (driverOff : ∀ {s} x, x.ringDriver = false → P s → P (s.withPower x))
    (leaves : ∀ {s} r x, x.ringDriver = false → P s → P ((s.withRing r).withPower x))
    (sends : ∀ {s} r x, r.phase = .sending → P s → P ((s.withRing (some r)).withPower x))
    (freed : ∀ {s r e}, s.ring = some r → r.phase = .window e → P s → P s.freeRing)
    (addReply : ∀ {s} r, P s → P (s.addReply r))
    (replySent : ∀ {s r rest}, s.console.replies = r :: rest → P s → P (s.withConsole { s.console with replies := rest }))
    (enqueueForward : ∀ {s} r, P s → P (s.enqueueForward r))
    (forwardSent : ∀ {s r rest}, s.console.forward = r :: rest → P s → P (s.withConsole { s.console with forward := rest }))
    (stage : ∀ {s} e, (s.command.staged.any (fun x => x.key == e.key) ∨ s.command.staged.length < Config.stagedPlaces) →
      P s → P (s.withCommand { s.command with staged := stageEdit s.command.staged e }))
    (unstage : ∀ {s} x, x.staged = [] → P s → P (s.withCommand x))
    (restarted : ∀ {s}, P s → P s.restarted) : Keeps P :=
  let blind := feedBlind_of_outside h
  { quiet := fun hs q => h hs (quiet_outside q)
    powerOn, driverOff, leaves, sends, freed, addReply, replySent, enqueueForward, forwardSent, stage, unstage, restarted
    raise := fun c d _ hs => h hs (raise_outside _ c d)
    raiseHalt := fun c d _ q _ hs =>
      h hs ((haltFeed_outside _ _).trans ((quiet_outside q).trans (raise_outside _ c d)))
    clear := fun c hs => h hs (clear_outside _ c)
    acknowledge := fun c hs => h hs (acknowledge_outside _ c)
    release := fun hs => h hs (releaseManual_outside _)
    stop := fun hs => h hs (changeMode_outside _ _)
    start := fun m _ _ hs => h hs (changeMode_outside _ m)
    switches := fun _ _ _ hs => h hs rfl
    takeSwitch := fun {_ x _} _ hs => h hs (takeSwitch_outside _ x)
    place := fun k v source d hs => blind.place k v source d none hs
    openTest := fun c hs => blind.openTest c hs
    askClose := fun c cause hs => blind.askClose c cause hs
    stopChannel := fun c hs => blind.stopChannel c _ hs
    startChannel := fun c d _ _ hs => blind.startChannel c d hs
    endPause := fun c kind _ hs => blind.evaluateJam (blind.endPause c kind hs)
    outletReport := fun slot report hs => blind.outletReport slot report hs
    outletStateChanged := fun slot miss hs => blind.outletStateChanged slot miss hs
    openAcked := fun c tag hs => blind.openAcked c tag hs
    openMissed := fun c tag hs => blind.openMissed c tag hs
    feedResult := fun r hs => blind.feedResult r hs
    feedMode := fun m hs => blind.feedMode m hs
    commitFeed := fun nodes segments hs => blind.commitFeed nodes segments hs }

/-! ## RESTART (R174) -/

/-- The exchange on the ring goes on through RESTART (R18), and with it the ring driver. -/
theorem restartFeed_outside (s : State) : outside s.restartFeed = outside s := by
  obtain ⟨w, q, k, m, r, h, -⟩ := restartFeed_frame s
  rw [h]
  simp

end Sys2Proof.Proofs
end


section
/-! PROOFS. O2, O9 and O10: the model's own queue and time base, the queues of the console traffic and the Command Unit, and
the ring driver. -/

namespace Sys2Proof.Proofs

open Sys2Proof Sys2Proof.Machine Sys2Proof.Laws

/-! ## What equal outsides share -/

theorem outside_power {s t : State} (h : outside t = outside s) : t.power = s.power := congrArg Outside.power h
theorem outside_now {s t : State} (h : outside t = outside s) : t.now = s.now := congrArg Outside.now h
theorem outside_pending {s t : State} (h : outside t = outside s) : t.pending = s.pending := congrArg Outside.pending h
theorem outside_ring {s t : State} (h : outside t = outside s) : t.ring = s.ring := congrArg Outside.ring h
theorem outside_replies {s t : State} (h : outside t = outside s) : t.console.replies = s.console.replies :=
  congrArg Outside.replies h
theorem outside_forward {s t : State} (h : outside t = outside s) : t.console.forward = s.console.forward :=
  congrArg Outside.forward h
theorem outside_staged {s t : State} (h : outside t = outside s) : t.command.staged = s.command.staged :=
  congrArg Outside.staged h

/-! ## The model's own queue and time base (O2) -/

/-- The queue of commands and the time base are as given. -/
def Untouched (pending : List Instr) (now : Nat) (s : State) : Prop := s.pending = pending ∧ s.now = now

theorem untouched_of_outside {pending : List Instr} {now : Nat} {s t : State} (hs : Untouched pending now s)
    (h : outside t = outside s) : Untouched pending now t :=
  ⟨(outside_pending h).trans hs.1, (outside_now h).trans hs.2⟩

theorem enqueueForward_untouched {pending : List Instr} {now : Nat} {s : State} (r : ForwardRecord)
    (hs : Untouched pending now s) : Untouched pending now (s.enqueueForward r) := by
  rw [enqueueForward_frame]
  exact hs

theorem restarted_untouched {pending : List Instr} {now : Nat} {s : State} (hs : Untouched pending now s) :
    Untouched pending now s.restarted := by
  obtain ⟨waiting, time⟩ := untouched_of_outside hs (restartFeed_outside s)
  exact ⟨(restarted_pending s).trans waiting, (restarted_now s).trans time⟩

theorem untouched_keeps (pending : List Instr) (now : Nat) : Keeps (Untouched pending now) :=
  keeps_of_outside untouched_of_outside (powerOn := id) (driverOff := fun _ _ => id) (leaves := fun _ _ _ => id)
    (sends := fun _ _ _ => id) (freed := fun _ _ => id) (addReply := fun _ => id) (replySent := fun _ => id)
    (enqueueForward := enqueueForward_untouched) (forwardSent := fun _ => id) (stage := fun _ _ => id)
    (unstage := fun _ _ => id) (restarted := restarted_untouched)

/-- Settles O2: no command touches the queue of commands or the time base. -/
theorem commandsLeaveQueueAndTime : Obligations.CommandsLeaveQueueAndTime := by
  unfold Obligations.CommandsLeaveQueueAndTime
  exact fun c s t h => (untouched_keeps s.pending s.now).exec c h ⟨rfl, rfl⟩

/-! ## The reply queue (R179) -/

/-- The form of a reply queue. -/
def RepliesForm (q : List ReplyRecord) : Prop :=
  q.length ≤ 16 ∧ (∀ r ∈ q.dropLast, r.isOverflow = false) ∧ (q.any ReplyRecord.isOverflow = false → q.length ≤ 15)

theorem repliesForm_nil : RepliesForm [] := ⟨Nat.zero_le _, nofun, fun _ => Nat.zero_le _⟩

/-- A reply that joins the queue, opens its OVERFLOW or is counted into it keeps the form. -/
theorem enqueueReply_form {q : List ReplyRecord} (r : ReplyRecord) (h : RepliesForm q) : RepliesForm (enqueueReply q r) := by
  obtain ⟨bound, newest, room⟩ := h
  cases full : q.any ReplyRecord.isOverflow with
  | true =>
    rw [enqueueReply_counts q r full]
    refine ⟨by simpa using bound, fun x hx => ?_, fun none => ?_⟩
    · rw [← List.map_dropLast] at hx
      obtain ⟨y, hy, rfl⟩ := List.mem_map.1 hx
      rw [countLoss_isOverflow]
      exact newest y hy
    · obtain ⟨y, hy, counts⟩ := List.any_eq_true.1 full
      rw [List.any_eq_false] at none
      exact absurd ((countLoss_isOverflow y).trans counts) (none _ (List.mem_map_of_mem hy))
  | false =>
    have all : ∀ y ∈ q, y.isOverflow = false := fun y hy => by simpa using List.any_eq_false.1 full y hy
    by_cases k : q.length < Config.replyPlaces
    · rw [enqueueReply_joins q r full k]
      unfold Config.replyPlaces at k
      exact ⟨by simp; omega, by simpa using all, fun _ => by simp; omega⟩
    · rw [enqueueReply_overflows q r full (Nat.le_of_not_lt k)]
      exact ⟨by simp; have := room full; omega, by simpa using all, fun none => by simp [ReplyRecord.isOverflow] at none⟩

/-- A reply that is sent leaves the rest in its form. -/
theorem repliesForm_tail {r : ReplyRecord} {q : List ReplyRecord} (h : RepliesForm (r :: q)) : RepliesForm q := by
  obtain ⟨bound, newest, -⟩ := h
  rw [List.length_cons] at bound
  cases q with
  | nil => exact repliesForm_nil
  | cons x q =>
    refine ⟨by omega, fun y hy => newest y ?_, fun _ => by omega⟩
    rw [List.dropLast_cons_cons]
    exact List.mem_cons_of_mem _ hy

theorem repliesInv_iff (s : State) : s.RepliesInv ↔ RepliesForm s.console.replies := Iff.rfl

theorem enqueueForward_replies (s : State) (r : ForwardRecord) : (s.enqueueForward r).console.replies = s.console.replies := by
  rw [enqueueForward_frame]
  rfl

theorem repliesInv_keeps : Keeps State.RepliesInv :=
  keeps_of_outside (fun hs h => by rw [repliesInv_iff] at hs ⊢; rwa [outside_replies h])
    (powerOn := fun _ => repliesForm_nil) (driverOff := fun _ _ => id) (leaves := fun _ _ _ => id)
    (sends := fun _ _ _ => id) (freed := fun _ _ => id) (addReply := fun r hs => enqueueReply_form r hs)
    (replySent := fun e hs => by rw [repliesInv_iff, e] at hs; exact repliesForm_tail hs)
    (enqueueForward := fun {s} r hs => by rw [repliesInv_iff, enqueueForward_replies s r]; exact hs)
    (forwardSent := fun _ => id) (stage := fun _ _ => id) (unstage := fun _ _ => id)
    (restarted := fun _ => repliesForm_nil)

/-! ## The forward queue (R183) -/

/-- The form of a forward queue. -/
def ForwardForm (q : List ForwardRecord) : Prop := q.length ≤ 32 ∧ q.Pairwise fun x y => x.rank ≤ y.rank

/-- A record that finds room, or the place of the newest of the lowest rank, keeps the form. -/
theorem enqueueForward_form {s : State} (r : ForwardRecord) (h : ForwardForm s.console.forward) :
    ForwardForm (s.enqueueForward r).console.forward := by
  obtain ⟨bound, sorted⟩ := h
  unfold State.enqueueForward
  dsimp only
  split
  · next room =>
    refine ⟨?_, placeByRank_sorted _ r sorted⟩
    have := placeByRank_length s.console.forward r
    exact this ▸ room
  · split
    · next last e =>
      split
      · refine ⟨?_, placeByRank_sorted _ r (sorted.sublist (List.dropLast_sublist _))⟩
        have := placeByRank_length s.console.forward.dropLast r
        refine this ▸ ?_
        rw [List.length_dropLast]
        omega
      · exact ⟨bound, sorted⟩
    · exact ⟨bound, sorted⟩

theorem forwardInv_keeps : Keeps State.ForwardInv :=
  keeps_of_outside (fun hs h => by unfold State.ForwardInv at hs ⊢; rwa [outside_forward h])
    (powerOn := fun _ => ⟨Nat.zero_le _, .nil⟩) (driverOff := fun _ _ => id) (leaves := fun _ _ _ => id)
    (sends := fun _ _ _ => id) (freed := fun _ _ => id) (addReply := fun _ => id) (replySent := fun _ => id)
    (enqueueForward := fun r hs => enqueueForward_form r hs)
    (forwardSent := fun {s r rest} e hs => by
      obtain ⟨bound, sorted⟩ := hs
      rw [e] at bound sorted
      exact ⟨Nat.le_of_succ_le bound, (List.pairwise_cons.1 sorted).2⟩)
    (stage := fun _ _ => id) (unstage := fun _ _ => id) (restarted := fun _ => ⟨Nat.zero_le _, .nil⟩)

/-! ## The staged edits (R164) -/

/-- The form of a staged list. -/
def StagedForm (q : List Edit) : Prop := q.length ≤ 32 ∧ q.Pairwise fun x y => x.key ≠ y.key

/-- An edit takes the place of the one for its table and index, or joins at the end where there is room. -/
theorem stageEdit_form {q : List Edit} (e : Edit)
    (room : q.any (fun x => x.key == e.key) ∨ q.length < Config.stagedPlaces) (h : StagedForm q) :
    StagedForm (stageEdit q e) := by
  obtain ⟨bound, distinct⟩ := h
  unfold stageEdit
  split
  · refine ⟨by simpa using bound, ?_⟩
    have key (x : Edit) : (if x.key == e.key then e else x).key = x.key := by
      split
      · next same => exact (beq_iff_eq.1 same).symm
      · rfl
    rw [List.pairwise_map]
    exact distinct.imp fun {x y} ne => by rwa [key, key]
  · next new =>
    have short : q.length < 32 := room.resolve_left new
    refine ⟨by simpa using short, ?_⟩
    rw [List.pairwise_append]
    refine ⟨distinct, List.pairwise_singleton _ _, fun x hx y hy same => new ?_⟩
    obtain rfl := List.mem_singleton.1 hy
    exact List.any_eq_true.2 ⟨x, hx, beq_iff_eq.2 same⟩

theorem stagedForm_nil : StagedForm [] := ⟨Nat.zero_le _, .nil⟩

theorem stagedInv_iff (s : State) : s.StagedInv ↔ StagedForm s.command.staged := Iff.rfl

theorem enqueueForward_command (s : State) (r : ForwardRecord) : (s.enqueueForward r).command = s.command := by
  rw [enqueueForward_frame]
  rfl

theorem stagedInv_keeps : Keeps State.StagedInv :=
  keeps_of_outside (fun hs h => by rw [stagedInv_iff] at hs ⊢; rwa [outside_staged h])
    (powerOn := fun _ => stagedForm_nil) (driverOff := fun _ _ => id) (leaves := fun _ _ _ => id)
    (sends := fun _ _ _ => id) (freed := fun _ _ => id) (addReply := fun _ => id) (replySent := fun _ => id)
    (enqueueForward := fun {s} r hs => by rw [stagedInv_iff, enqueueForward_command s r]; exact hs)
    (forwardSent := fun _ => id) (stage := fun e room hs => stageEdit_form e room hs)
    (unstage := fun x none _ => by rw [stagedInv_iff, withCommand_command, none]; exact stagedForm_nil)
    (restarted := fun _ => stagedForm_nil)

/-- Settles O9: every step keeps the forms of the reply queue, the forward queue and the staged list. -/
theorem stepsKeepTheQueues : Obligations.StepsKeepTheQueues := by
  unfold Obligations.StepsKeepTheQueues
  exact ⟨fun s t hs h => repliesInv_keeps.step id (fun _ => id) h hs,
    fun s t hs h => forwardInv_keeps.step id (fun _ => id) h hs,
    fun s t hs h => stagedInv_keeps.step id (fun _ => id) h hs⟩

/-! ## The ring driver (R197) -/

theorem driverInv_of {s t : State} (ring : t.ring = s.ring) (power : t.power = s.power) (hs : s.DriverInv) : t.DriverInv := by
  intro on
  rw [power] at on
  rw [ring]
  exact hs on

theorem driverInv_of_off {s : State} (off : s.power.ringDriver = false) : s.DriverInv :=
  fun on => absurd (off.symm.trans on) (by decide)

/-- While a reply window is open the driver is off. -/
theorem driver_off_of_window {s : State} {r : Exchange} {e : Nat} (ring : s.ring = some r) (phase : r.phase = .window e)
    (hs : s.DriverInv) : s.power.ringDriver = false := by
  rw [← Bool.not_eq_true]
  intro on
  obtain ⟨x, hx, sending⟩ := hs on
  obtain rfl := Option.some.inj (ring.symm.trans hx)
  exact absurd (phase.symm.trans sending) nofun

/-- The exchange that RESTART finds on the ring goes on with the driver as it was (R18). -/
theorem restarted_driverInv {s : State} (hs : s.DriverInv) : s.restarted.DriverInv := by
  have same := restartFeed_outside s
  intro on
  obtain ⟨x, hx, sending⟩ := hs (outside_power same ▸ on)
  refine ⟨x.voided, ?_, sending⟩
  rw [restarted_ring, outside_ring same, hx]
  rfl

theorem driverInv_keeps : Keeps State.DriverInv :=
  keeps_of_outside (fun hs h => driverInv_of (outside_ring h) (outside_power h) hs)
    (powerOn := fun _ => driverInv_of_off rfl) (driverOff := fun _ off _ => driverInv_of_off off)
    (leaves := fun _ _ off _ => driverInv_of_off off) (sends := fun r _ sending _ _ => ⟨r, rfl, sending⟩)
    (freed := fun {s _ _} ring phase hs => driverInv_of_off (s := s.freeRing) (driver_off_of_window (s := s) ring phase hs))
    (addReply := fun _ => id) (replySent := fun _ => id)
    (enqueueForward := fun {s} r hs => by rw [enqueueForward_frame]; exact hs) (forwardSent := fun _ => id)
    (stage := fun _ _ => id) (unstage := fun _ _ => id) (restarted := restarted_driverInv)

/-- Settles O10: every step keeps it that the ring driver is enabled only while a request frame is on the line. -/
theorem stepsKeepTheDriverRule : Obligations.StepsKeepTheDriverRule := by
  unfold Obligations.StepsKeepTheDriverRule
  exact fun s t hs h => driverInv_keeps.step id (fun _ => id) h hs

end Sys2Proof.Proofs
end


section
/-! PROOFS. The rise mode (O6, first part): CLIMB and TRIM only while every HOLD-class and HALT-class condition is IDLE. -/

namespace Sys2Proof.Proofs

open Sys2Proof Sys2Proof.Machine Sys2Proof.Laws

variable {s t : State}

/-! ## What keeps the invariant -/

/-- An operation that leaves the mode, the conditions that hold the mode and the spread switches. -/
theorem modeInv_of_same (mode : t.mode = s.mode) (conditions : ∀ c : Cond, c.cls ≠ .note → t.condition c = s.condition c)
    (switches : t.transit.spreadSwitches = s.transit.spreadSwitches) (hs : s.ModeInv) : t.ModeInv := by
  obtain ⟨safe, leaves⟩ := hs
  refine ⟨fun climbs c holds => ?_, fun x hx => leaves x (switches ▸ hx)⟩
  rw [conditions c (by rcases holds with h | h <;> rw [h] <;> decide)]
  exact safe (mode ▸ climbs) c holds

theorem modeInv_of_quiet (hs : s.ModeInv) (h : Quiet s t) : t.ModeInv := by
  refine modeInv_of_same h.mode (fun c _ => ?_) (congrArg Spoken.switches h) hs
  have records : t.conditions.records = s.conditions.records := congrArg Spoken.records h
  unfold State.condition
  rw [records]

theorem modeInv_of_engine (hs : s.ModeInv) (h : EngineStep s t) : t.ModeInv := by
  have frame := h.frame
  unfold FeedFrame at frame
  refine modeInv_of_same (by rw [frame]; rfl) (fun c note => h.conditions c ?_) (by rw [frame]; rfl) hs
  rintro rfl
  exact note rfl

/-! ## Changes of mode -/

theorem modesOnly_switches (h : ModesOnly s t) : t.transit.spreadSwitches = s.transit.spreadSwitches := by
  unfold ModesOnly at h
  rw [h]

/-- A mode that is neither CLIMB nor TRIM asks nothing of the conditions. -/
theorem changeMode_modeInv_of_rest {m : RiseMode} (rest : m ≠ .climb ∧ m ≠ .trim) (hs : s.ModeInv) :
    (s.changeMode m).ModeInv := by
  refine ⟨fun climbs => ?_, fun x hx => hs.2 x (modesOnly_switches (changeMode_modes s m) ▸ hx)⟩
  rw [changeMode_mode] at climbs
  exact absurd climbs (not_or.2 rest)

/-- A mode is entered while every HOLD-class and HALT-class condition is IDLE. -/
theorem changeMode_modeInv_of_quiet (m : RiseMode) (idle : ∀ c : Cond, c.cls = .halt ∨ c.cls = .hold → (s.condition c).state = .idle)
    (hs : s.ModeInv) : (s.changeMode m).ModeInv :=
  ⟨fun _ c holds => changeMode_condition s m c ▸ idle c holds,
    fun x hx => hs.2 x (modesOnly_switches (changeMode_modes s m) ▸ hx)⟩

/-- What the two tests of a class say together. -/
theorem idle_of_quiet (halt : s.haltQuiet = true) (hold : s.holdQuiet = true) (c : Cond) (h : c.cls = .halt ∨ c.cls = .hold) :
    (s.condition c).state = .idle :=
  h.elim ((haltQuiet_iff s).1 halt c) ((holdQuiet_iff s).1 hold c)

/-- The end of a hold enters its mode with every condition of the two classes IDLE (R111). -/
theorem conditionReturned_modeInv (c : Cond) (hs : s.ModeInv) : (s.conditionReturned c).ModeInv := by
  unfold State.conditionReturned
  split
  · next h => exact changeMode_modeInv_of_quiet _ (idle_of_quiet h.2.2.1 h.2.2.2) hs
  · exact hs

/-- A record that stays IDLE where it was keeps the invariant. -/
theorem setCondition_modeInv (c : Cond) (r : CondRecord) (h : (s.condition c).state = .idle → r.state = .idle)
    (hs : s.ModeInv) : (s.setCondition c r).ModeInv := by
  refine ⟨fun climbs e holds => ?_, hs.2⟩
  by_cases k : e = c
  · subst k
    rw [setCondition_same]
    exact h (hs.1 climbs e holds)
  · rw [setCondition_other s r k]
    exact hs.1 climbs e holds

/-! ## Raises and clears (R109 to R111) -/

/-- A raise in CLIMB or TRIM that leaves the mode there is of a NOTE-class condition: a condition of the other classes was
IDLE, and leaving IDLE moves the mode (R109, R110). -/
theorem raise_note_of_climbs (safe : s.ModeSafe) (c : Cond) (d : Option Nat)
    (climbs : (s.raise c d).mode = .climb ∨ (s.raise c d).mode = .trim) :
    c.cls = .note ∧ (s.mode = .climb ∨ s.mode = .trim) := by
  rw [raise_mode] at climbs
  by_cases idle : (s.condition c).state = .idle
  · rw [if_pos idle] at climbs
    cases cls : c.cls <;> cases mode : s.mode <;> simp_all
  · rw [if_neg idle] at climbs
    refine ⟨?_, climbs⟩
    cases cls : c.cls with
    | halt => exact absurd (safe climbs c (.inl cls)) idle
    | hold => exact absurd (safe climbs c (.inr cls)) idle
    | note => rfl

theorem raise_modeInv (c : Cond) (d : Option Nat) (hs : s.ModeInv) : (s.raise c d).ModeInv := by
  refine ⟨fun climbs e holds => ?_, fun x hx => hs.2 x (modesOnly_switches (raise_modes s c d) ▸ hx)⟩
  obtain ⟨note, before⟩ := raise_note_of_climbs hs.1 c d climbs
  rw [raise_other s d (by rintro rfl; simp [note] at holds)]
  exact hs.1 before e holds

theorem clear_modeInv (c : Cond) (hs : s.ModeInv) : (s.clear c).ModeInv := by
  have cleared : (s.setCondition c (s.condition c).cleared).ModeInv :=
    setCondition_modeInv c _ (fun idle => by simp [CondRecord.cleared, idle]) hs
  unfold State.clear
  dsimp only
  split
  · exact conditionReturned_modeInv c cleared
  · exact cleared

theorem acknowledge_modeInv (c : Cond) (hs : s.ModeInv) : (s.acknowledge c).ModeInv := by
  have acknowledged : (s.setCondition c { s.condition c with state := (s.condition c).state.acknowledged }).ModeInv :=
    setCondition_modeInv c _ (fun idle => by simp [CondState.acknowledged, idle]) hs
  unfold State.acknowledge
  dsimp only
  split
  · exact conditionReturned_modeInv c acknowledged
  · exact acknowledged

theorem releaseManual_modeInv (hs : s.ModeInv) : s.releaseManual.ModeInv := by
  have released : (s.setCondition .manualHold { s.condition .manualHold with state := .idle, source := false }).ModeInv :=
    setCondition_modeInv _ _ (fun _ => rfl) hs
  unfold State.releaseManual
  dsimp only
  split
  · exact released
  · exact conditionReturned_modeInv _ released

/-! ## Placements -/

/-- A placement changes segments in everything but the claim, and raises GREEN_EXIT. -/
theorem takePlacement_keeps {P : State → Prop} (quiet : ∀ {u v}, P u → Quiet u v → P v)
    (raise : ∀ {u} d, P u → P (u.raise .greenExit d)) (k : SegmentIx) (v : Nat) (source : LayerSource)
    (d : Option DescriptorIx) (hs : P s) : P (s.takePlacement k v source d) := by
  have placed : P (s.setWall k ((s.wall k).placed (s.segment k).area v s.pourClock source d)) :=
    quiet hs (setWall_quiet rfl)
  unfold State.takePlacement
  dsimp only
  split
  · split
    · exact placed
    · unfold State.checkYoungest
      dsimp only
      split
      · split
        · exact raise _ (quiet placed (setWall_quiet rfl))
        · exact placed
      · exact placed
  · exact hs

theorem modeInv_feedBlind : FeedBlind State.ModeInv where
  engine hs h := modeInv_of_engine hs h
  free _ hs := hs
  takePlacement k v source d hs := takePlacement_keeps modeInv_of_quiet (fun d => raise_modeInv _ d) k v source d hs
  note c d _ hs := raise_modeInv c d hs

/-! ## The walk -/

theorem powerOn_modeInv (now free : Nat) (pending : List Instr) : (State.powerOn now free pending).ModeInv :=
  ⟨fun climbs => absurd climbs (by decide : ¬ (RiseMode.idle = .climb ∨ RiseMode.idle = .trim)), fun _ h => absurd h nofun⟩

theorem restarted_modeInv : s.restarted.ModeInv := by
  refine ⟨fun climbs => ?_, fun x hx => ?_⟩
  · rw [restarted_mode] at climbs
    exact absurd climbs (by decide)
  · rw [restarted_handoffs] at hx
    exact absurd hx nofun

/-- START enters CLIMB with every condition of the two classes IDLE, or HOLD (R113). -/
theorem start_modeInv {m : RiseMode} (halt : s.haltQuiet = true) (h : m = .climb ∧ s.holdQuiet = true ∨ m = .hold)
    (hs : s.ModeInv) : (s.changeMode m).ModeInv := by
  rcases h with ⟨rfl, hold⟩ | rfl
  · exact changeMode_modeInv_of_quiet _ (idle_of_quiet halt hold) hs
  · exact changeMode_modeInv_of_rest (by decide) hs

/-- A spread switch is taken in CLIMB or TRIM, where every condition of the two classes is IDLE (R112). -/
theorem takeSwitch_modeInv {x : SpreadSwitch} {rest : List SpreadSwitch} (h : s.transit.spreadSwitches = x :: rest)
    (hs : s.ModeInv) : ((s.withTransit { s.transit with spreadSwitches := rest }).takeSwitch x).ModeInv := by
  have left : (s.withTransit { s.transit with spreadSwitches := rest }).ModeInv :=
    ⟨hs.1, fun y hy => hs.2 y (h ▸ List.mem_cons_of_mem x hy)⟩
  unfold State.takeSwitch
  split
  · next leaves =>
    have climbs : s.mode = .climb ∨ s.mode = .trim := leaves ▸ hs.2 x (h ▸ List.mem_cons_self)
    exact changeMode_modeInv_of_quiet _ (hs.1 climbs) left
  · exact left

theorem switches_modeInv {x : SpreadSwitch} (leaves : x.leaves = .climb ∨ x.leaves = .trim) (hs : s.ModeInv) :
    (s.withTransit { s.transit with spreadSwitches := s.transit.spreadSwitches ++ [x] }).ModeInv := by
  refine ⟨hs.1, fun y hy => ?_⟩
  rcases List.mem_append.1 hy with old | new
  · exact hs.2 y old
  · exact List.mem_singleton.1 new ▸ leaves

theorem modeInv_keeps : Keeps State.ModeInv where
  quiet := modeInv_of_quiet
  powerOn _ := powerOn_modeInv _ _ _
  driverOff _ _ hs := hs
  leaves _ _ _ hs := hs
  sends _ _ _ hs := hs
  freed _ _ hs := hs
  raise c d _ hs := raise_modeInv c d hs
  raiseHalt c d _ quiet _ hs := modeInv_feedBlind.haltFeed _ (modeInv_of_quiet (raise_modeInv c d hs) quiet)
  clear c hs := clear_modeInv c hs
  acknowledge c hs := acknowledge_modeInv c hs
  release hs := releaseManual_modeInv hs
  stop hs := changeMode_modeInv_of_rest (by decide) hs
  start _ halt h hs := start_modeInv halt h hs
  switches _ leaves _ hs := switches_modeInv leaves hs
  takeSwitch h hs := takeSwitch_modeInv h hs
  addReply _ hs := hs
  replySent _ hs := hs
  enqueueForward {s} r hs := by
    rw [enqueueForward_frame]
    exact hs
  forwardSent _ hs := hs
  stage _ _ hs := hs
  unstage _ _ hs := hs
  restarted _ := restarted_modeInv
  place k v source d hs := modeInv_feedBlind.place k v source d none hs
  openTest c hs := modeInv_feedBlind.openTest c hs
  askClose c cause hs := modeInv_feedBlind.askClose c cause hs
  stopChannel c hs := modeInv_feedBlind.stopChannel c _ hs
  startChannel c d _ _ hs := modeInv_feedBlind.startChannel c d hs
  endPause c kind _ hs := modeInv_feedBlind.evaluateJam (modeInv_feedBlind.endPause c kind hs)
  outletReport slot report hs := modeInv_feedBlind.outletReport slot report hs
  outletStateChanged slot miss hs := modeInv_feedBlind.outletStateChanged slot miss hs
  openAcked c tag hs := modeInv_feedBlind.openAcked c tag hs
  openMissed c tag hs := modeInv_feedBlind.openMissed c tag hs
  feedResult r hs := modeInv_feedBlind.feedResult r hs
  feedMode m hs := modeInv_feedBlind.feedMode m hs
  commitFeed nodes segments hs := modeInv_feedBlind.commitFeed nodes segments hs

theorem step_modeInv (hs : s.ModeInv) (h : step s = .next t) : t.ModeInv :=
  modeInv_keeps.step id (fun _ => id) h hs

end Sys2Proof.Proofs
end


section
/-! PROOFS. The events of the feed for an invariant of the two channels (O6, O8), part 1: what a step for one channel spares of
the other. -/

namespace Sys2Proof.Proofs

open Sys2Proof Sys2Proof.Machine Sys2Proof.Laws

variable {s t : State}

/-! ## Sparing a channel -/

theorem otherChannel_of_ne {c d : Channel} (h : c ≠ d) : otherChannel c = d := by
  cases c with
  | a =>
    cases d with
    | a => exact absurd rfl h
    | b => rfl
  | b =>
    cases d with
    | a => rfl
    | b => exact absurd rfl h

/-- A channel keeps its context and gains no claim, HALT is not entered, and the spread switches stay. -/
structure Spares (d : Channel) (s t : State) : Prop where
  halt : t.mode = .halt → s.mode = .halt
  switches : t.transit.spreadSwitches = s.transit.spreadSwitches
  channel : t.channel d = s.channel d
  outlets : ∀ i, t.outletClaim i = some d → s.outletClaim i = some d
  segments : ∀ k, (t.wall k).claim = some d → (s.wall k).claim = some d

theorem Spares.refl (d : Channel) (s : State) : Spares d s s := ⟨id, rfl, rfl, fun _ => id, fun _ => id⟩

theorem Spares.trans {d : Channel} {s t u : State} (h : Spares d s t) (k : Spares d t u) : Spares d s u :=
  ⟨fun m => h.halt (k.halt m), k.switches.trans h.switches, k.channel.trans h.channel,
    fun i m => h.outlets i (k.outlets i m), fun i m => h.segments i (k.segments i m)⟩

theorem spares_of_quiet (d : Channel) (h : Quiet s t) : Spares d s t where
  halt m := h.mode ▸ m
  switches := congrArg Spoken.switches h
  channel := congrFun (congrArg Spoken.channel h) d
  outlets i m := (congrFun (congrArg Spoken.outletClaim h) i).symm.trans m
  segments k m := (congrFun (congrArg Spoken.segmentClaim h) k).symm.trans m

/-- A change of the conditions, and of the mode and its hand-offs unless it enters HALT, spares both channels. -/
theorem spares_of_modes (d : Channel) {conditions : Conditions} {mode : RiseMode} {transit : Transit}
    (e : t = ((s.withConditions conditions).withMode mode).withTransit transit) (m : ModesOnly s t)
    (h : t.mode = .halt → s.mode = .halt) : Spares d s t := by
  refine ⟨h, modesOnly_switches m, ?_, fun i => ?_, fun k => ?_⟩
  · rw [e]; cases d <;> rfl
  · rw [e]; exact id
  · rw [e]; exact id

/-- The same for either channel. -/
theorem forall_channel (c : Channel) {p : Channel → Prop} (h : p c) (k : p (otherChannel c)) (d : Channel) : p d := by
  cases c <;> cases d <;> assumption

theorem setChannel_spares (s : State) (c : Channel) (x : ChannelContext) : Spares (otherChannel c) s (s.setChannel c x) :=
  ⟨id, rfl, channel_setChannel_other s c x, by cases c <;> exact fun _ => id, fun _ => id⟩

theorem queueExchange_quiet (s : State) (x : FeedExchange) : Quiet s (s.queueExchange x) := rfl

theorem withdrawExchanges_quiet (s : State) (c : Channel) : Quiet s (s.withdrawExchanges c) := rfl

theorem withFree_quiet (s : State) (x : Nat) : Quiet s (s.withFree x) := rfl

theorem tagCounter_quiet (s : State) (x : Nat) : Quiet s (s.withFeed { s.feed with tagCounter := x }) := rfl

theorem seen_quiet (s : State) (x : Option CycleResult) : Quiet s (s.withFeed { s.feed with seen := x }) := rfl

/-- The evaluation of a NOTE-class condition moves no mode. -/
theorem evaluateJam_spares (s : State) (d : Channel) : Spares d s s.evaluateJam := by
  refine ⟨fun m => evaluateJam_mode s ▸ m, ?_, ?_, fun i => ?_, fun k => ?_⟩
  · rw [evaluateJam_frame]; rfl
  · unfold State.channel; rw [evaluateJam_feed]
  · unfold State.outletClaim; rw [evaluateJam_feed]; exact id
  · rw [wall_congr (evaluateJam_walls s) k]; exact id

theorem evaluateJam_channel (s : State) (c : Channel) : s.evaluateJam.channel c = s.channel c :=
  (evaluateJam_spares s c).channel

/-! ## Claims (R84) -/

theorem takeClaims_outletClaim (s : State) (c : Channel) (w : WorkingCopy) (i : Slot) :
    (s.takeClaims c w).outletClaim i = if i = w.outlet then some c else s.outletClaim i :=
  table_read_write _ _ _ _

theorem takeClaims_segmentClaim (s : State) (c : Channel) (w : WorkingCopy) (k : SegmentIx) :
    ((s.takeClaims c w).wall k).claim = if k = w.segment then some c else (s.wall k).claim := by
  have read : (s.takeClaims c w).wall k = if k = w.segment then { s.wall w.segment with claim := some c } else s.wall k :=
    table_read_write _ _ _ _
  rw [read]
  split <;> rfl

theorem takeClaims_channel (s : State) (c d : Channel) (w : WorkingCopy) : (s.takeClaims c w).channel d = s.channel d := by
  cases d <;> rfl

/-- A channel that takes claims takes none for the other. -/
theorem takeClaims_spares (s : State) (c : Channel) (w : WorkingCopy) : Spares (otherChannel c) s (s.takeClaims c w) := by
  have ne : some c ≠ some (otherChannel c) := by cases c <;> decide
  refine ⟨id, rfl, takeClaims_channel s c _ w, fun i m => ?_, fun k m => ?_⟩
  · rw [takeClaims_outletClaim] at m
    split at m
    · exact absurd m ne
    · exact m
  · rw [takeClaims_segmentClaim] at m
    split at m
    · exact absurd m ne
    · exact m

theorem dropClaims_outletClaim (s : State) (c : Channel) (w : WorkingCopy) (i : Slot) :
    (s.dropClaims c w).outletClaim i = if i = w.outlet ∧ s.outletClaim i = some c then none else s.outletClaim i := by
  have claimed (u : State) (h : u.feed = s.feed) :
      (if u.outletClaim w.outlet = some c then
        (u.setOutletClaim w.outlet none).setRecord w.outlet { u.record w.outlet with pollDue := none } else u).outletClaim i =
      if i = w.outlet ∧ s.outletClaim i = some c then none else s.outletClaim i := by
    have same (j : Slot) : u.outletClaim j = s.outletClaim j := by unfold State.outletClaim; rw [h]
    split
    · next held =>
      have read : ((u.setOutletClaim w.outlet none).setRecord w.outlet { u.record w.outlet with pollDue := none }).outletClaim
          i = if i = w.outlet then none else u.outletClaim i := table_read_write _ _ _ _
      rw [read, same]
      by_cases e : i = w.outlet
      · subst e
        rw [if_pos rfl, if_pos ⟨rfl, same _ ▸ held⟩]
      · rw [if_neg e, if_neg fun k => e k.1]
    · next free =>
      rw [same, if_neg]
      rintro ⟨rfl, held⟩
      exact free ((same _).trans held)
  unfold State.dropClaims
  dsimp only
  split
  · exact claimed _ rfl
  · exact claimed _ rfl

theorem dropClaims_segmentClaim (s : State) (c : Channel) (w : WorkingCopy) (k : SegmentIx) :
    ((s.dropClaims c w).wall k).claim =
      if k = w.segment ∧ (s.wall k).claim = some c then none else (s.wall k).claim := by
  have released : ((if (s.wall w.segment).claim = some c then s.setSegmentClaim w.segment none else s).wall k).claim =
      if k = w.segment ∧ (s.wall k).claim = some c then none else (s.wall k).claim := by
    split
    · next held =>
      have read : (s.setSegmentClaim w.segment none).wall k =
          if k = w.segment then { s.wall w.segment with claim := none } else s.wall k := table_read_write _ _ _ _
      rw [read]
      by_cases e : k = w.segment
      · subst e
        rw [if_pos rfl, if_pos ⟨rfl, held⟩]
      · rw [if_neg e, if_neg fun h => e h.1]
    · next free =>
      rw [if_neg]
      rintro ⟨rfl, held⟩
      exact free held
  refine Eq.trans ?_ released
  unfold State.dropClaims
  dsimp only
  split <;> split <;> rfl

theorem dropClaims_channel (s : State) (c d : Channel) (w : WorkingCopy) : (s.dropClaims c w).channel d = s.channel d := by
  unfold State.dropClaims
  dsimp only
  split <;> split <;> cases d <;> rfl

/-- An end of claims gives no channel a claim. -/
theorem dropClaims_spares (s : State) (c d : Channel) (w : WorkingCopy) : Spares d s (s.dropClaims c w) := by
  have frame := (dropClaims_step s c d w).frame
  unfold FeedFrame at frame
  refine ⟨fun m => by rw [frame] at m; exact m, by rw [frame]; rfl, dropClaims_channel s c d w, fun i m => ?_, fun k m => ?_⟩
  · rw [dropClaims_outletClaim] at m
    split at m
    · exact absurd m nofun
    · exact m
  · rw [dropClaims_segmentClaim] at m
    split at m
    · exact absurd m nofun
    · exact m

/-! ## Opening, blocking, loading -/

theorem openChannel_spares (s : State) (c : Channel) (w : WorkingCopy) : Spares (otherChannel c) s (s.openChannel c w) := by
  unfold State.openChannel
  exact (((takeClaims_spares s c w).trans (spares_of_quiet _ (tagCounter_quiet _ _))).trans (setChannel_spares _ c _)).trans
    (spares_of_quiet _ (queueExchange_quiet _ _))

theorem recordBlock_spares (s : State) (c : Channel) (r : BlockReason) : Spares (otherChannel c) s (s.recordBlock c r) := by
  unfold State.recordBlock
  dsimp only
  split
  · exact .refl _ s
  · exact setChannel_spares s c _

theorem firstTest_spares (s : State) (c : Channel) : Spares (otherChannel c) s (s.firstTest c) := by
  unfold State.firstTest
  split
  · split
    · exact openChannel_spares s c _
    · exact recordBlock_spares s c _
  · exact .refl _ s

theorem loadAndTest_spares (s : State) (c : Channel) (d : DescriptorIx) : Spares (otherChannel c) s (s.loadAndTest c d) :=
  (setChannel_spares s c _).trans (firstTest_spares _ c)

theorem chooseNext_spares (s : State) (c : Channel) : Spares (otherChannel c) s (s.chooseNext c) := by
  have loads (x : ChannelContext) (d : DescriptorIx) : Spares (otherChannel c) s ((s.setChannel c x).loadAndTest c d) :=
    (setChannel_spares s c x).trans (loadAndTest_spares _ c d)
  unfold State.chooseNext
  dsimp only
  split
  · exact loads _ _
  · split
    · exact loads _ _
    · split
      · exact loads _ _
      · exact setChannel_spares s c _

/-- The feed note of a finished descriptor (R97). -/
theorem noted_quiet (s : State) (b : Bool) (x : Option DescriptorIx) :
    Quiet s (if b = true then s.withFeed { s.feed with note := x } else s) := by
  split <;> rfl

theorem finishDescriptor_spares (s : State) (c : Channel) : Spares (otherChannel c) s (s.finishDescriptor c) := by
  unfold State.finishDescriptor
  split
  · exact chooseNext_spares s c
  · next d _ =>
    have ends (p : Prop) [Decidable p] (u : State) :
        Spares (otherChannel c) u (if p then u.enterPause c .after else u.chooseNext c) := by
      split
      · exact setChannel_spares u c _
      · exact chooseNext_spares u c
    exact (spares_of_quiet _ (noted_quiet s (s.descriptor d).mark (some d))).trans (ends _ _)

theorem resumeWait_spares (s : State) (c : Channel) : Spares (otherChannel c) s (s.resumeWait c) :=
  (setChannel_spares s c _).trans (firstTest_spares _ c)

theorem endPause_spares (s : State) (c : Channel) (k : PauseKind) : Spares (otherChannel c) s (s.endPause c k) := by
  unfold State.endPause
  split
  · exact chooseNext_spares s c
  · split
    · exact finishDescriptor_spares s c
    · exact resumeWait_spares s c

theorem pauseToResume_spares (s : State) (c : Channel) : Spares (otherChannel c) s (s.pauseToResume c) := by
  unfold State.pauseToResume
  split
  · exact endPause_spares s c _
  · exact setChannel_spares s c _

theorem deferralTest_spares (s : State) (c : Channel) : Spares (otherChannel c) s (s.deferralTest c) := by
  unfold State.deferralTest
  dsimp only
  split
  · split
    · exact (setChannel_spares s c _).trans (chooseNext_spares _ c)
    · exact .refl _ s
  · exact .refl _ s

/-! ## Tests and closing -/

theorem openTest_spares (s : State) (c : Channel) : Spares (otherChannel c) s (s.openTest c) := by
  unfold State.openTest
  dsimp only
  split
  · split
    · exact (finishDescriptor_spares s c).trans (evaluateJam_spares _ _)
    · split
      · exact (openChannel_spares s c _).trans (evaluateJam_spares _ _)
      · exact ((recordBlock_spares s c _).trans (deferralTest_spares _ c)).trans (evaluateJam_spares _ _)
  · exact .refl _ s

theorem askClose_spares (s : State) (c : Channel) (k : CloseCause) : Spares (otherChannel c) s (s.askClose c k) := by
  unfold State.askClose
  dsimp only
  split
  · split
    · exact ((setChannel_spares s c _).trans (spares_of_quiet _ (queueExchange_quiet _ _))).trans (evaluateJam_spares _ _)
    · exact (setChannel_spares s c _).trans (evaluateJam_spares _ _)
  · exact .refl _ s

theorem fullTest_spares (s : State) (c : Channel) : Spares (otherChannel c) s (s.fullTest c) := by
  unfold State.fullTest
  dsimp only
  split
  · split
    · exact askClose_spares s c _
    · exact .refl _ s
  · exact .refl _ s

/-! ## Placements and raises -/

/-- A raise that is not HALT-class spares both channels. -/
theorem raise_spares (s : State) {c : Cond} (x : Option Nat) (h : c.cls ≠ .halt) (d : Channel) : Spares d s (s.raise c x) :=
  spares_of_modes d (raise_frame s c x) (raise_modes s c x) (raise_mode_halt h)

theorem takePlacement_spares (s : State) (k : SegmentIx) (v : Nat) (source : LayerSource) (x : Option DescriptorIx)
    (d : Channel) : Spares d s (s.takePlacement k v source x) :=
  takePlacement_keeps (P := Spares d s) (fun h q => h.trans (spares_of_quiet d q))
    (fun _ h => h.trans (raise_spares _ _ (by decide) d)) k v source x (.refl d s)

end Sys2Proof.Proofs
end


section
/-! PROOFS. The events of the feed for an invariant of the two channels (O6, O8), part 2: what such an invariant has to
satisfy, and that every event then keeps it. -/

namespace Sys2Proof.Proofs

open Sys2Proof Sys2Proof.Machine Sys2Proof.Laws

variable {s t : State}

/-! ## Contexts -/

/-- The segment and the outlet that a context works on. -/
def ChannelContext.place (x : ChannelContext) : Option (SegmentIx × Slot) :=
  x.working.map fun w => (w.segment, w.outlet)

/-- A channel is in OPEN or CLOSING on a working copy's segment and outlet. -/
def OnCopy (c : Channel) (w : WorkingCopy) (s : State) : Prop :=
  ((s.channel c).state = .opened ∨ (s.channel c).state = .closing) ∧ ChannelContext.place (s.channel c) = some (w.segment, w.outlet)

/-- A closing channel that stops when its opening has ended (R101, R102). -/
def Stopping (x : ChannelContext) : Prop := x.state = .closing ∧ (x.closeCause = some .stop ∨ x.closeCause = some .halt)

/-- A change of a context that ends no opening: the place stays, and so do state and cause, but that a cause may become STOP
or HALT and OPEN may become CLOSING. -/
def Stays (x y : ChannelContext) : Prop :=
  ChannelContext.place y = ChannelContext.place x ∧
    (y.state = x.state ∧ (y.closeCause = x.closeCause ∨ y.closeCause = some .stop ∨ y.closeCause = some .halt) ∨
      x.state = .opened ∧ y.state = .closing)

/-! ## The rule -/

/-- An invariant `Q` of each channel, with what it becomes once the opening's claims have ended (`D`) and where the channel
may take up any work (`F`). -/
structure Rule (Q D F : Channel → State → Prop) : Prop where
  spared : ∀ {d s t}, Spares d s t → Q d s → Q d t
  sparedD : ∀ {d s t}, Spares d s t → D d s → D d t
  sparedF : ∀ {d s t}, Spares d s t → F d s → F d t
  setD : ∀ {c s} x, D c s → D c (s.setChannel c x)
  setF : ∀ {c s} x, F c s → F c (s.setChannel c x)
  waits : ∀ {c s}, (s.channel c).state = .wait ∨ (s.channel c).state = .paused → Q c s → F c s
  rests : ∀ {c s}, (s.channel c).state.busy = false → s.mode ≠ .halt → Q c s → F c s
  free : ∀ {c s}, ((s.channel c).state = .opened → (s.channel c).working ≠ none) → F c s → Q c s
  dropped : ∀ {c s}, (s.channel c).state = .stopped → D c s → Q c s
  opens : ∀ {c s w}, (s.channel c).working = some w → F c s → Q c (s.openChannel c w)
  stays : ∀ {c s} y, Stays (s.channel c) y → Q c s → Q c (s.setChannel c y)
  drops : ∀ {c s w}, OnCopy c w s → Q c s →
    D c (s.dropClaims c w) ∧ (F c (s.dropClaims c w) ∨ Stopping (s.channel c))

variable {Q D F : Channel → State → Prop}

/-- A step for one channel that keeps its part of the invariant keeps the whole. -/
theorem Rule.both (r : Rule Q D F) (c : Channel) (h : Spares (otherChannel c) s t) (q : Q c t) (hs : ∀ d, Q d s) (d : Channel) :
    Q d t := forall_channel c (p := fun d => Q d t) q (r.spared h (hs _)) d

theorem Rule.quiet (r : Rule Q D F) (h : Quiet s t) (hs : ∀ d, Q d s) (d : Channel) : Q d t :=
  r.spared (spares_of_quiet d h) (hs d)

theorem Rule.evaluateJam (r : Rule Q D F) (hs : ∀ d, Q d s) (d : Channel) : Q d s.evaluateJam :=
  r.spared (evaluateJam_spares s d) (hs d)

/-- A channel not in OPEN that may take up any work. -/
theorem Rule.idle (r : Rule Q D F) {c : Channel} (x : ChannelContext) (h : x.state ≠ .opened) (f : F c s) :
    Q c (s.setChannel c x) :=
  r.free (fun e => absurd ((congrArg ChannelContext.state (channel_setChannel_same s c x)).symm.trans e) h) (r.setF x f)

/-! ## Loading and choosing -/

theorem Rule.firstTest (r : Rule Q D F) {c : Channel} (h : (s.channel c).state = .wait) (f : F c s) : Q c (s.firstTest c) := by
  have waits : (s.channel c).state ≠ .opened := by rw [h]; decide
  unfold State.firstTest
  split
  · next working =>
    split
    · exact r.opens working f
    · unfold State.recordBlock
      dsimp only
      split
      · exact r.free (fun e => absurd e waits) f
      · exact r.idle { s.channel c with
          blockReason := _, blockedSince := some s.now, blockTimer := some (s.now + s.params.blockS * 1000) } waits f
  · exact r.free (fun e => absurd e waits) f

theorem Rule.loadAndTest (r : Rule Q D F) {c : Channel} (d : DescriptorIx) (f : F c s) : Q c (s.loadAndTest c d) := by
  refine r.firstTest ?_ (r.setF _ f)
  unfold State.loadDescriptor
  rw [channel_setChannel_same]

theorem Rule.chooseNext (r : Rule Q D F) {c : Channel} (f : F c s) : Q c (s.chooseNext c) := by
  unfold State.chooseNext
  dsimp only
  split
  · exact r.loadAndTest _ (r.setF _ f)
  · split
    · exact r.loadAndTest _ (r.setF _ f)
    · split
      · exact r.loadAndTest _ (r.setF _ f)
      · exact r.idle _ nofun f

theorem Rule.finishDescriptor (r : Rule Q D F) {c : Channel} (f : F c s) : Q c (s.finishDescriptor c) := by
  unfold State.finishDescriptor
  split
  · exact r.chooseNext f
  · next d _ =>
    have ends (p : Prop) [Decidable p] {u : State} (fu : F c u) : Q c (if p then u.enterPause c .after else u.chooseNext c) := by
      split
      · exact r.idle _ nofun fu
      · exact r.chooseNext fu
    exact ends _ (r.sparedF (spares_of_quiet _ (noted_quiet s (s.descriptor d).mark (some d))) f)

theorem Rule.resumeWait (r : Rule Q D F) {c : Channel} (f : F c s) : Q c (s.resumeWait c) := by
  refine r.firstTest ?_ (r.setF _ f)
  rw [channel_setChannel_same]

theorem Rule.endPause (r : Rule Q D F) {c : Channel} (k : PauseKind) (f : F c s) : Q c (s.endPause c k) := by
  unfold State.endPause
  split
  · exact r.chooseNext f
  · split
    · exact r.finishDescriptor f
    · exact r.resumeWait f

theorem Rule.pauseToResume (r : Rule Q D F) {c : Channel} (f : F c s) : Q c (s.pauseToResume c) := by
  unfold State.pauseToResume
  split
  · exact r.endPause _ f
  · exact r.idle _ nofun f

theorem Rule.deferralTest (r : Rule Q D F) {c : Channel} (h : (s.channel c).state ≠ .opened) (f : F c s) :
    Q c (s.deferralTest c) := by
  have kept : Q c s := r.free (fun e => absurd e h) f
  unfold State.deferralTest
  dsimp only
  split
  · split
    · exact r.chooseNext (r.setF _ f)
    · exact kept
  · exact kept

/-! ## Tests and closing -/

theorem recordBlock_state (s : State) (c : Channel) (b : BlockReason) :
    ((s.recordBlock c b).channel c).state = (s.channel c).state := by
  unfold State.recordBlock
  dsimp only
  split
  · rfl
  · rw [channel_setChannel_same]

theorem Rule.recordBlock (r : Rule Q D F) {c : Channel} (b : BlockReason) (f : F c s) : F c (s.recordBlock c b) := by
  unfold State.recordBlock
  dsimp only
  split
  · exact f
  · exact r.setF _ f

theorem Rule.openTest (r : Rule Q D F) (c : Channel) (hs : ∀ d, Q d s) (d : Channel) : Q d (s.openTest c) := by
  refine r.both c (openTest_spares s c) ?_ hs d
  have jam {u : State} (q : Q c u) : Q c u.evaluateJam := r.spared (evaluateJam_spares u c) q
  unfold State.openTest
  dsimp only
  split
  · next waits working =>
    have f := r.waits (.inl waits) (hs c)
    split
    · exact jam (r.finishDescriptor f)
    · split
      · exact jam (r.opens working f)
      · exact jam (r.deferralTest (by rw [recordBlock_state, waits]; decide) (r.recordBlock _ f))
  · exact hs c

theorem stays_refl (x : ChannelContext) : Stays x x := ⟨rfl, .inl ⟨rfl, .inl rfl⟩⟩

theorem Rule.askClose (r : Rule Q D F) (c : Channel) (k : CloseCause) (hs : ∀ d, Q d s) (d : Channel) :
    Q d (s.askClose c k) := by
  refine r.both c (askClose_spares s c k) ?_ hs d
  have jam {u : State} (q : Q c u) : Q c u.evaluateJam := r.spared (evaluateJam_spares u c) q
  unfold State.askClose
  dsimp only
  split
  · next opened _ =>
    have closing := r.stays { s.channel c with
      state := .closing, closeCause := some k, closeSent := (s.channel c).openConfirmed } ⟨rfl, .inr ⟨opened, rfl⟩⟩ (hs c)
    split
    · exact jam (r.spared (spares_of_quiet _ (queueExchange_quiet _ _)) closing)
    · exact jam closing
  · exact hs c

theorem Rule.fullTest (r : Rule Q D F) (c : Channel) (hs : ∀ d, Q d s) (d : Channel) : Q d (s.fullTest c) := by
  unfold State.fullTest
  dsimp only
  split
  · split
    · exact r.askClose c _ hs d
    · exact hs d
  · exact hs d

/-- FEED STOP's effect, with cause STOP or HALT. -/
theorem Rule.stopChannel (r : Rule Q D F) (c : Channel) {k : CloseCause} (h : k = .stop ∨ k = .halt) (hs : ∀ d, Q d s)
    (d : Channel) : Q d (s.stopChannel c k) := by
  have cause : some k = some CloseCause.stop ∨ some k = some .halt := h.imp (congrArg some) (congrArg some)
  have set {x : ChannelContext} (q : Q c (s.setChannel c x)) : ∀ d, Q d (s.setChannel c x) :=
    r.both c (setChannel_spares s c x) q hs
  unfold State.stopChannel
  dsimp only
  refine r.evaluateJam (fun d => ?_) d
  split
  · exact r.askClose c k hs d
  · exact set (r.stays { s.channel c with closeCause := some k } ⟨rfl, .inl ⟨rfl, .inr cause⟩⟩ (hs c)) d
  · next waits =>
    exact set (r.idle { (s.channel c).unblocked with state := .stopped } nofun (r.waits (.inl waits) (hs c))) d
  · next paused =>
    exact set (r.idle { s.channel c with state := .stopped, pause := none } nofun (r.waits (.inr paused) (hs c))) d
  · exact hs d
  · exact hs d
  · exact hs d

/-- An event of both channels, in either order. -/
theorem Rule.bothChannels (r : Rule Q D F) (f : Channel → State → State)
    (h : ∀ c {u}, (∀ d, Q d u) → ∀ d, Q d (f c u)) (hs : ∀ d, Q d s) (d : Channel) : Q d (s.bothChannels f) :=
  h _ (h _ (r.quiet (withFree_quiet s _) hs)) d

/-! ## Placements and releases -/

theorem Rule.segmentPlacedFor (r : Rule Q D F) (k : SegmentIx) (maker : Option Channel) (c : Channel) (hs : ∀ d, Q d s)
    (d : Channel) : Q d (State.segmentPlacedFor k maker c s) := by
  unfold State.segmentPlacedFor
  split
  · split
    · split
      · exact r.openTest c hs d
      · exact r.fullTest c (r.openTest c hs) d
    · exact hs d
  · exact hs d

theorem Rule.place (r : Rule Q D F) (k : SegmentIx) (v : Nat) (source : LayerSource) (x : Option DescriptorIx)
    (maker : Option Channel) (hs : ∀ d, Q d s) (d : Channel) : Q d (s.place k v source x maker) := by
  have placed (e : Channel) : Q e (s.takePlacement k v source x) := r.spared (takePlacement_spares s k v source x e) (hs e)
  unfold State.place
  dsimp only
  split
  · exact r.bothChannels _ (fun c _ hu => r.segmentPlacedFor k maker c hu) placed d
  · exact placed d

theorem Rule.placeDelivered (r : Rule Q D F) (c : Channel) (w : WorkingCopy) (hs : ∀ d, Q d s) (d : Channel) :
    Q d (s.placeDelivered c w) := by
  unfold State.placeDelivered
  dsimp only
  split
  · exact hs d
  · exact r.place _ _ _ _ _ hs d

/-! ### A channel in OPEN or CLOSING stays on its copy while the other acts -/

theorem onCopy_of_channel {c : Channel} {w : WorkingCopy} (h : t.channel c = s.channel c) (on : OnCopy c w s) :
    OnCopy c w t := by
  unfold OnCopy
  rw [h]
  exact on

theorem onCopy_not_waiting {c : Channel} {w : WorkingCopy} (on : OnCopy c w s) : (s.channel c).state ≠ .wait := by
  rcases on.1 with h | h <;> rw [h] <;> decide

/-- A FULL test ends no opening: the channel stays in OPEN or enters CLOSING. -/
theorem askClose_onCopy {c : Channel} {w : WorkingCopy} (k : CloseCause) (on : OnCopy c w s) : OnCopy c w (s.askClose c k) := by
  have closing (x : ChannelContext) (h : x.state = .closing) (p : ChannelContext.place x = some (w.segment, w.outlet)) :
      OnCopy c w (s.setChannel c x) := by
    unfold OnCopy
    rw [channel_setChannel_same]
    exact ⟨.inr h, p⟩
  unfold State.askClose
  dsimp only
  split
  · refine onCopy_of_channel (evaluateJam_channel _ c) ?_
    split
    · refine onCopy_of_channel (s := s.setChannel c _) ?_ (closing { s.channel c with
        state := .closing, closeCause := some k, closeSent := (s.channel c).openConfirmed } rfl on.2)
      cases c <;> rfl
    · exact closing { s.channel c with
        state := .closing, closeCause := some k, closeSent := (s.channel c).openConfirmed } rfl on.2
  · exact on

theorem fullTest_onCopy {c : Channel} {w : WorkingCopy} (on : OnCopy c w s) : OnCopy c w (s.fullTest c) := by
  unfold State.fullTest
  dsimp only
  split
  · split
    · exact askClose_onCopy _ on
    · exact on
  · exact on

theorem openTest_onCopy {c : Channel} {w : WorkingCopy} (on : OnCopy c w s) : OnCopy c w (s.openTest c) := by
  rw [openTest_other s c (onCopy_not_waiting on)]
  exact on

/-- A step for one channel leaves the other on its copy. -/
theorem onCopy_of_spares {c d : Channel} {w : WorkingCopy} (h : Spares (otherChannel c) s t) (keep : c = d → OnCopy d w t)
    (on : OnCopy d w s) : OnCopy d w t := by
  by_cases e : c = d
  · exact keep e
  · have other : otherChannel c = d := otherChannel_of_ne e
    exact onCopy_of_channel (other ▸ h.channel) on

theorem segmentPlacedFor_onCopy {c d : Channel} {w : WorkingCopy} (k : SegmentIx) (maker : Option Channel)
    (on : OnCopy d w s) : OnCopy d w (State.segmentPlacedFor k maker c s) := by
  have tested : OnCopy d w (s.openTest c) := onCopy_of_spares (openTest_spares s c) (fun e => e ▸ openTest_onCopy (e ▸ on)) on
  unfold State.segmentPlacedFor
  split
  · split
    · split
      · exact tested
      · exact onCopy_of_spares (fullTest_spares _ c) (fun e => e ▸ fullTest_onCopy (e ▸ tested)) tested
    · exact on
  · exact on

theorem bothChannels_onCopy {d : Channel} {w : WorkingCopy} (f : Channel → State → State)
    (h : ∀ c {u}, OnCopy d w u → OnCopy d w (f c u)) (on : OnCopy d w s) : OnCopy d w (s.bothChannels f) :=
  h _ (h _ (onCopy_of_channel (by cases d <;> rfl) on))

theorem placeDelivered_onCopy {c d : Channel} {w v : WorkingCopy} (on : OnCopy d w s) : OnCopy d w (s.placeDelivered c v) := by
  unfold State.placeDelivered State.place
  dsimp only
  split
  · exact on
  · have placed := onCopy_of_channel (takePlacement_spares s v.segment (s.channel c).delivered (sourceOf c)
      (s.channel c).current d).channel on
    split
    · exact bothChannels_onCopy _ (fun e _ ou => segmentPlacedFor_onCopy v.segment (some c) ou) placed
    · exact placed

/-- A release of a channel's claims lets the other one test, which leaves a channel in OPEN or CLOSING. -/
theorem releaseClaims_onCopy {c d : Channel} {w v : WorkingCopy} (on : OnCopy d w s) : OnCopy d w (s.releaseClaims c v) := by
  have dropped : OnCopy d w (s.dropClaims c v) := onCopy_of_channel (dropClaims_channel s c d v) on
  exact onCopy_of_spares (openTest_spares _ _) (fun e => e ▸ openTest_onCopy (e ▸ dropped)) dropped

/-- A placement of the channel's own opening leaves its context: it makes no FULL test of it (R90). -/
theorem placeDelivered_channel {c : Channel} {w v : WorkingCopy} (on : OnCopy c w s) :
    (s.placeDelivered c v).channel c = s.channel c := by
  have own {u : State} (h : u.channel c = s.channel c) (e : Channel) :
      (State.segmentPlacedFor v.segment (some c) e u).channel c = s.channel c := by
    by_cases ne : e = c
    · subst ne
      unfold State.segmentPlacedFor
      split
      · split
        · rw [if_pos rfl, openTest_other u e (h ▸ onCopy_not_waiting on)]
          exact h
        · exact h
      · exact h
    · have other : otherChannel e = c := otherChannel_of_ne ne
      exact (other ▸ (segmentPlacedFor_step v.segment (some c) e u).other).trans h
  unfold State.placeDelivered State.place
  dsimp only
  split
  · rfl
  · have placed := (takePlacement_spares s v.segment (s.channel c).delivered (sourceOf c) (s.channel c).current c).channel
    split
    · exact own (own ((by cases c <;> rfl : _ = _).trans placed) _) _
    · exact placed

/-- A channel keeps its context while the other one tests after a release. -/
theorem releaseClaims_channel (s : State) (c : Channel) (w : WorkingCopy) : (s.releaseClaims c w).channel c = s.channel c := by
  have tested := (openTest_spares (s.dropClaims c w) (otherChannel c)).channel
  rw [otherChannel_otherChannel] at tested
  exact tested.trans (dropClaims_channel s c c w)

/-! ## The end of an opening -/

/-- What is left of an opening whose claims have been released: the whole invariant, and the channel may take up any work or
stops. -/
structure Released (Q D F : Channel → State → Prop) (c : Channel) (s : State) : Prop where
  all : ∀ d, Q d s
  dropped : D c s
  next : F c s ∨ Stopping (s.channel c)

theorem Rule.releaseClaims (r : Rule Q D F) {c : Channel} {w : WorkingCopy} (on : OnCopy c w s) (hs : ∀ d, Q d s) :
    Released Q D F c (s.releaseClaims c w) := by
  obtain ⟨dropped, next⟩ := r.drops on (hs c)
  have spares := openTest_spares (s.dropClaims c w) (otherChannel c)
  rw [otherChannel_otherChannel] at spares
  refine ⟨r.openTest _ fun d => r.spared (dropClaims_spares s c d w) (hs d), r.sparedD spares dropped, ?_⟩
  rw [releaseClaims_channel]
  exact next.imp (r.sparedF spares) id

theorem Rule.feedShort (r : Rule Q D F) {c : Channel} (f : F c s) : Q c (s.feedShort c) :=
  r.finishDescriptor (r.sparedF (raise_spares _ _ (by decide) c) (r.setF _ f))

theorem afterOpening_spares (s : State) (c : Channel) : Spares (otherChannel c) s (s.afterOpening c) := by
  unfold State.afterOpening
  dsimp only
  split
  · exact setChannel_spares s c _
  · exact setChannel_spares s c _
  · exact finishDescriptor_spares s c
  · exact ((setChannel_spares s c _).trans (raise_spares _ _ (by decide) _)).trans (finishDescriptor_spares _ c)
  · exact finishDescriptor_spares s c
  · exact pauseToResume_spares s c
  · exact pauseToResume_spares s c
  · exact pauseToResume_spares s c

theorem Rule.stopped (r : Rule Q D F) {c : Channel} (x : ChannelContext) (h : x.state = .stopped) (d : D c s) :
    Q c (s.setChannel c x) :=
  r.dropped ((congrArg ChannelContext.state (channel_setChannel_same s c x)).trans h) (r.setD x d)

/-- The next state after an END: STOP and HALT stop the channel, and any other cause comes with a channel that may take up
any work. -/
theorem Rule.afterOpening (r : Rule Q D F) {c : Channel} (dropped : D c s)
    (next : F c s ∨ (s.channel c).closeCause = some .stop ∨ (s.channel c).closeCause = some .halt) :
    Q c (s.afterOpening c) := by
  have works (h : (s.channel c).closeCause ≠ some .stop) (k : (s.channel c).closeCause ≠ some .halt) : F c s :=
    next.resolve_right (not_or.2 ⟨h, k⟩)
  unfold State.afterOpening
  dsimp only
  split
  · exact r.stopped _ rfl dropped
  · exact r.stopped _ rfl dropped
  · next stop halt => exact r.finishDescriptor (works stop halt)
  · next e _ => exact r.feedShort (works (by rw [e]; decide) (by rw [e]; decide))
  · next e _ => exact r.finishDescriptor (works (by rw [e]; decide) (by rw [e]; decide))
  · next e _ => exact r.pauseToResume (works (by rw [e]; decide) (by rw [e]; decide))
  · next e _ => exact r.pauseToResume (works (by rw [e]; decide) (by rw [e]; decide))
  · next e _ => exact r.pauseToResume (works (by rw [e]; decide) (by rw [e]; decide))

theorem Rule.completeOpening (r : Rule Q D F) {c : Channel} {w : WorkingCopy} (on : OnCopy c w s) (hs : ∀ d, Q d s)
    (d : Channel) : Q d (s.completeOpening c w) := by
  obtain ⟨all, dropped, next⟩ := r.releaseClaims (placeDelivered_onCopy (c := c) (v := w) on) (r.placeDelivered c w hs)
  unfold State.completeOpening
  dsimp only
  refine r.evaluateJam (r.both c ((setChannel_spares _ c _).trans (afterOpening_spares _ c)) ?_ all) d
  refine r.afterOpening (r.setD _ dropped) (next.imp (r.setF _) fun stops => ?_)
  rw [channel_setChannel_same]
  exact stops.2

theorem lowered_stays (x : ChannelContext) : Stays x { x.lowered with dwellEndsAt := none } := by
  refine ⟨?_, .inl ⟨rfl, .inl rfl⟩⟩
  unfold ChannelContext.place ChannelContext.lowered
  cases x.working <;> rfl

theorem onCopy_of_stays {c : Channel} {w : WorkingCopy} {y : ChannelContext} (h : Stays (s.channel c) y) (on : OnCopy c w s) :
    OnCopy c w (s.setChannel c y) := by
  unfold OnCopy
  rw [channel_setChannel_same]
  refine ⟨?_, h.1.trans on.2⟩
  rcases h.2 with ⟨e, -⟩ | ⟨-, e⟩
  · exact e ▸ on.1
  · exact .inr e

theorem withdrawExchanges_onCopy {c d : Channel} {w : WorkingCopy} (on : OnCopy d w s) :
    OnCopy d w (s.withdrawExchanges c) := onCopy_of_channel (by cases d <;> rfl) on

theorem Rule.openingFault (r : Rule Q D F) {c : Channel} {w : WorkingCopy} (on : OnCopy c w s) (hs : ∀ d, Q d s)
    (d : Channel) : Q d (s.openingFault c w) := by
  have placed := r.placeDelivered c w hs
  have stays := lowered_stays ((s.placeDelivered c w).channel c)
  have lowered := r.both c (setChannel_spares _ c _) (r.stays _ stays (placed c)) placed
  obtain ⟨all, dropped, -⟩ := r.releaseClaims
    (withdrawExchanges_onCopy (c := c) (onCopy_of_stays stays (placeDelivered_onCopy (c := c) (v := w) on)))
    (r.quiet (withdrawExchanges_quiet _ c) lowered)
  unfold State.openingFault
  dsimp only
  have fault := fun (u : State) (e : Channel) => raise_spares u (c := .feedFault) (some w.outlet.val) (by decide) e
  refine r.evaluateJam (r.both c (setChannel_spares _ c _) (r.stopped _ rfl (r.sparedD (fault _ c) dropped)) ?_) d
  exact fun e => r.spared (fault _ e) (all e)

theorem Rule.outletRemoved (r : Rule Q D F) {c : Channel} {w : WorkingCopy} (on : OnCopy c w s) (hs : ∀ d, Q d s)
    (d : Channel) : Q d (s.outletRemoved c w) := by
  obtain ⟨all, dropped, next⟩ := r.releaseClaims (withdrawExchanges_onCopy (c := c) on) (r.quiet (withdrawExchanges_quiet _ c) hs)
  unfold State.outletRemoved
  dsimp only
  split
  · exact r.both c (setChannel_spares _ c _) (r.stopped _ rfl dropped) all d
  · exact r.both c (setChannel_spares _ c _) (r.stopped _ rfl dropped) all d
  · next stop halt =>
    have works := next.resolve_right fun stops => stops.2.elim stop halt
    exact r.both c ((setChannel_spares _ c _).trans (finishDescriptor_spares _ c)) (r.finishDescriptor (r.setF _ works)) all d

/-! ## Outlet reports and node states -/

theorem Rule.judgeOutletReport (r : Rule Q D F) {c : Channel} {w : WorkingCopy} (ready ended fault : Bool)
    (delivered tag : Nat) (on : OnCopy c w s) (hs : ∀ d, Q d s) (d : Channel) :
    Q d (s.judgeOutletReport c w ready ended fault delivered tag) := by
  have stays : Stays (s.channel c) { s.channel c with delivered := delivered } := stays_refl _
  have counted := r.both c (setChannel_spares _ c _) (r.stays _ stays (hs c)) hs
  unfold State.judgeOutletReport
  dsimp only
  split
  · exact r.openingFault on hs d
  · split
    · exact hs d
    · split
      · exact r.completeOpening (onCopy_of_stays stays on) counted d
      · split
        · split
          · exact r.fullTest c counted d
          · exact r.askClose c _ counted d
        · exact counted d

/-- The channels of an event that judges them by the state they were in: one that was in OPEN or CLOSING still is, on its
copy. -/
def StillOn (before s : State) (d : Channel) : Prop := ∀ w, OnCopy d w before → OnCopy d w s

/-- An event of both channels that judges them by the state they were in. -/
theorem Rule.bothChannels_before (r : Rule Q D F) (f : Channel → State → State)
    (h : ∀ c {u}, StillOn s u c → (∀ d, Q d u) → ∀ d, Q d (f c u))
    (k : ∀ c w {u}, StillOn s u c → OnCopy (otherChannel c) w u → OnCopy (otherChannel c) w (f c u))
    (hs : ∀ d, Q d s) (d : Channel) : Q d (s.bothChannels f) := by
  have start (e : Channel) : StillOn s (s.withFree (s.free + 1)) e := fun w on => onCopy_of_channel (by cases e <;> rfl) on
  have first := r.quiet (withFree_quiet s (s.free + 1)) hs
  exact h _ (fun w on => k _ w (start _) (start _ w on)) (h _ (start _) first) d

theorem completeOpening_onCopy {c : Channel} {w v : WorkingCopy} (on : OnCopy (otherChannel c) w s) :
    OnCopy (otherChannel c) w (s.completeOpening c v) :=
  onCopy_of_channel (((setChannel_spares _ c _).trans (afterOpening_spares _ c)).trans (evaluateJam_spares _ _)).channel
    (releaseClaims_onCopy (placeDelivered_onCopy on))

theorem openingFault_onCopy {c : Channel} {w v : WorkingCopy} (on : OnCopy (otherChannel c) w s) :
    OnCopy (otherChannel c) w (s.openingFault c v) := by
  have lowered : OnCopy (otherChannel c) w ((s.placeDelivered c v).setChannel c
      { ((s.placeDelivered c v).channel c).lowered with dwellEndsAt := none }) :=
    onCopy_of_channel (setChannel_spares _ c _).channel (placeDelivered_onCopy on)
  exact onCopy_of_channel (((raise_spares _ _ (by decide) _).trans (setChannel_spares _ c _)).trans
    (evaluateJam_spares _ _)).channel (releaseClaims_onCopy (withdrawExchanges_onCopy lowered))

theorem outletRemoved_onCopy {c : Channel} {w v : WorkingCopy} (on : OnCopy (otherChannel c) w s) :
    OnCopy (otherChannel c) w (s.outletRemoved c v) := by
  have released := releaseClaims_onCopy (c := c) (v := v) (withdrawExchanges_onCopy (c := c) on)
  unfold State.outletRemoved
  dsimp only
  split
  · exact onCopy_of_channel (setChannel_spares _ c _).channel released
  · exact onCopy_of_channel (setChannel_spares _ c _).channel released
  · exact onCopy_of_channel ((setChannel_spares _ c _).trans (finishDescriptor_spares _ c)).channel released

theorem judgeOutletReport_onCopy {c : Channel} {w v : WorkingCopy} (ready ended fault : Bool) (delivered tag : Nat)
    (on : OnCopy (otherChannel c) w s) : OnCopy (otherChannel c) w (s.judgeOutletReport c v ready ended fault delivered tag) := by
  have counted : OnCopy (otherChannel c) w (s.setChannel c { s.channel c with delivered := delivered }) :=
    onCopy_of_channel (setChannel_spares _ c _).channel on
  unfold State.judgeOutletReport
  dsimp only
  split
  · exact openingFault_onCopy on
  · split
    · exact on
    · split
      · exact completeOpening_onCopy counted
      · split
        · split
          · exact onCopy_of_channel (fullTest_spares _ c).channel counted
          · exact onCopy_of_channel (askClose_spares _ c _).channel counted
        · exact counted

/-- A channel in OPEN or CLOSING with a working copy is on it. -/
theorem onCopy_of_working {c : Channel} {w : WorkingCopy} (h : (s.channel c).state = .opened ∨ (s.channel c).state = .closing)
    (k : (s.channel c).working = some w) : OnCopy c w s := ⟨h, by unfold ChannelContext.place; rw [k]; rfl⟩

theorem Rule.outletReport (r : Rule Q D F) (slot : Slot) (report : Report) (hs : ∀ d, Q d s) (d : Channel) :
    Q d (s.outletReport slot report) := by
  refine r.bothChannels_before _ (fun c u still hu d => ?_) (fun c w u _ on => ?_) hs d
  · unfold State.outletReportFor
    dsimp only
    split
    · next working =>
      split
      · split
        · next is => exact r.judgeOutletReport _ _ _ _ _ (still _ (onCopy_of_working (.inl is) working)) hu d
        · next is => exact r.judgeOutletReport _ _ _ _ _ (still _ (onCopy_of_working (.inr is) working)) hu d
        · exact r.openTest c hu d
        · exact hu d
      · exact hu d
    · exact hu d
  · unfold State.outletReportFor
    dsimp only
    split
    · split
      · split
        · exact judgeOutletReport_onCopy _ _ _ _ _ on
        · exact judgeOutletReport_onCopy _ _ _ _ _ on
        · exact onCopy_of_channel (openTest_spares _ c).channel on
        · exact on
      · exact on
    · exact on

end Sys2Proof.Proofs
end


section
/-! PROOFS. The events of the feed for an invariant of the two channels (O6, O8), part 3: the remaining events, and the walk
over every command. -/

namespace Sys2Proof.Proofs

open Sys2Proof Sys2Proof.Machine Sys2Proof.Laws

variable {s t : State} {Q D F : Channel → State → Prop}

/-! ## Node states and results of OPEN exchanges -/

theorem Rule.outletStateChanged (r : Rule Q D F) (slot : Slot) (miss : Bool) (hs : ∀ d, Q d s) (d : Channel) :
    Q d (s.outletStateChanged slot miss) := by
  refine r.bothChannels_before _ (fun c u still hu d => ?_) (fun c w u _ on => ?_) hs d
  · unfold State.outletStateFor
    dsimp only
    split
    · next w working =>
      split
      · split
        · exact r.openTest c hu d
        · next opened =>
          split
          · exact r.openingFault (still w (onCopy_of_working (.inl opened) working)) hu d
          · exact hu d
        · next closing =>
          split
          · exact r.openingFault (still w (onCopy_of_working (.inr closing) working)) hu d
          · exact hu d
        · exact hu d
      · exact hu d
    · exact hu d
  · unfold State.outletStateFor
    dsimp only
    split
    · split
      · split
        · exact onCopy_of_channel (openTest_spares _ c).channel on
        · split
          · exact openingFault_onCopy on
          · exact on
        · split
          · exact openingFault_onCopy on
          · exact on
        · exact on
      · exact on
    · exact on

theorem Rule.openAcked (r : Rule Q D F) (c : Channel) (tag : Nat) (hs : ∀ d, Q d s) (d : Channel) : Q d (s.openAcked c tag) := by
  have set (y : ChannelContext) (h : Stays (s.channel c) y) : ∀ d, Q d (s.setChannel c y) :=
    r.both c (setChannel_spares s c y) (r.stays y h (hs c)) hs
  unfold State.openAcked
  dsimp only
  split
  · exact hs d
  · split
    · exact set { s.channel c with
        openConfirmed := true, dwellEndsAt := some (s.now + s.params.dwellS * 1000) } (stays_refl _) d
    · exact r.quiet (queueExchange_quiet _ _) (set { s.channel c with openConfirmed := true, closeSent := true } (stays_refl _)) d
    · exact hs d

theorem Released.quiet (r : Rule Q D F) {c : Channel} (h : Quiet s t) (k : Released Q D F c s) : Released Q D F c t where
  all := r.quiet h k.all
  dropped := r.sparedD (spares_of_quiet c h) k.dropped
  next := (spares_of_quiet c h).channel ▸ k.next.imp (r.sparedF (spares_of_quiet c h)) id

theorem Rule.openMissed (r : Rule Q D F) (c : Channel) (tag : Nat) (hs : ∀ d, Q d s) (d : Channel) : Q d (s.openMissed c tag) := by
  unfold State.openMissed
  dsimp only
  split
  · exact hs d
  · split
    · next w opened working =>
      have released := (r.releaseClaims (onCopy_of_working (.inl opened) working) hs).quiet r
        (queueExchange_quiet _ ((s.releaseClaims c w).closeOf c w true))
      have same := (spares_of_quiet c (queueExchange_quiet (s.releaseClaims c w)
        ((s.releaseClaims c w).closeOf c w true))).channel.trans (releaseClaims_channel s c w)
      have free := released.next.resolve_right fun stops => by
        rw [same, Stopping, opened] at stops
        exact nomatch stops.1
      exact r.evaluateJam (r.both c (resumeWait_spares _ c) (r.resumeWait free) released.all) d
    · next w closing working =>
      obtain ⟨all, dropped, next⟩ := (r.releaseClaims (onCopy_of_working (.inr closing) working) hs).quiet r
        (queueExchange_quiet _ ((s.releaseClaims c w).closeOf c w true))
      split
      · exact r.evaluateJam (r.both c (setChannel_spares _ c _) (r.stopped _ rfl dropped) all) d
      · exact r.evaluateJam (r.both c (setChannel_spares _ c _) (r.stopped _ rfl dropped) all) d
      · next stop halt =>
        have free := next.resolve_right fun stops => stops.2.elim stop halt
        exact r.evaluateJam (r.both c (finishDescriptor_spares _ c) (r.finishDescriptor free) all) d
    · exact hs d

/-! ## Arrivals and commits -/

theorem Rule.feedResult (r : Rule Q D F) (x : CycleResult) (hs : ∀ d, Q d s) (d : Channel) : Q d (s.feedResult x) :=
  r.evaluateJam (r.bothChannels _ (fun c _ hu => r.fullTest c (r.openTest c hu)) (r.quiet (seen_quiet s (some x)) hs)) d

theorem Rule.feedMode (r : Rule Q D F) (m : ModeChange) (hs : ∀ d, Q d s) (d : Channel) : Q d (s.feedMode m) := by
  refine r.evaluateJam (r.bothChannels _ (fun c u hu => ?_) hs) d
  unfold State.feedModeFor
  split
  · exact r.stopChannel c (.inr rfl) hu
  · exact r.openTest c hu

theorem commitContext_stays (s : State) (nodes : Table NodeEntry 128) (segments : Table SegmentEntry 32) (x : ChannelContext) :
    Stays x (s.commitContext nodes segments x) := stays_refl x

/-- What a commit does to the two contexts, one after the other. -/
theorem commitContexts_eq (s : State) (nodes : Table NodeEntry 128) (segments : Table SegmentEntry 32) :
    s.withFeed { s.feed with channelA := s.commitContext nodes segments s.feed.channelA,
                             channelB := s.commitContext nodes segments s.feed.channelB } =
      (s.setChannel .a (s.commitContext nodes segments (s.channel .a))).setChannel .b
        (s.commitContext nodes segments (s.channel .b)) := rfl

theorem Rule.commitContexts (r : Rule Q D F) (nodes : Table NodeEntry 128) (segments : Table SegmentEntry 32)
    (hs : ∀ d, Q d s) (d : Channel) :
    Q d (s.withFeed { s.feed with channelA := s.commitContext nodes segments s.feed.channelA,
                                  channelB := s.commitContext nodes segments s.feed.channelB }) := by
  rw [commitContexts_eq]
  have first := r.both .a (setChannel_spares s .a _) (r.stays _ (commitContext_stays s nodes segments _) (hs .a)) hs
  exact r.both .b (setChannel_spares _ .b _) (r.stays _ (commitContext_stays s nodes segments _) (first .b)) first d

theorem waiting_quiet (s : State) (x : List FeedExchange) : Quiet s (s.withFeed { s.feed with waiting := x }) := rfl

theorem Rule.commitFeed (r : Rule Q D F) (nodes : Table NodeEntry 128) (segments : Table SegmentEntry 32) (hs : ∀ d, Q d s)
    (d : Channel) : Q d (s.commitFeed nodes segments) := by
  unfold State.commitFeed
  dsimp only
  refine r.evaluateJam (r.quiet (waiting_quiet _ _) (r.bothChannels_before _ (fun c u still hu d => ?_) (fun c v u _ on => ?_)
    (r.commitContexts nodes segments hs))) d
  · unfold State.commitChannelFor
    dsimp only
    split
    · exact hu d
    · next w working =>
      split
      · exact r.openTest c hu d
      · next opened =>
        split
        · exact r.outletRemoved (still w (onCopy_of_working (.inl opened) working)) hu d
        · split
          · exact r.askClose c _ hu d
          · exact hu d
      · next closing =>
        split
        · exact r.outletRemoved (still w (onCopy_of_working (.inr closing) working)) hu d
        · exact hu d
      · exact hu d
  · unfold State.commitChannelFor
    dsimp only
    split
    · exact on
    · split
      · exact onCopy_of_channel (openTest_spares _ c).channel on
      · split
        · exact outletRemoved_onCopy on
        · split
          · exact onCopy_of_channel (askClose_spares _ c _).channel on
          · exact on
      · split
        · exact outletRemoved_onCopy on
        · exact on
      · exact on

theorem Rule.startChannel (r : Rule Q D F) (c : Channel) (x : DescriptorIx) (mode : s.mode ≠ .halt)
    (rests : (s.channel c).state.busy = false) (hs : ∀ d, Q d s) (d : Channel) : Q d (s.startChannel c x) :=
  r.evaluateJam (r.both c ((setChannel_spares s c _).trans (loadAndTest_spares _ c x))
    (r.loadAndTest x (r.setF _ (r.rests rests mode (hs c)))) hs) d

/-! ## The rise mode -/

theorem changeMode_spares (s : State) {m : RiseMode} (h : m ≠ .halt) (d : Channel) : Spares d s (s.changeMode m) :=
  spares_of_modes d (conditions := s.conditions) (changeMode_frame s m) (changeMode_modes s m)
    fun e => absurd (changeMode_mode s m ▸ e) h

theorem setCondition_quiet_spares (s : State) (c : Cond) (x : CondRecord) (d : Channel) : Spares d s (s.setCondition c x) :=
  ⟨id, rfl, by cases d <;> rfl, fun _ => id, fun _ => id⟩

theorem resumeMode_ne_halt (s : State) : s.resumeMode ≠ .halt := by
  unfold State.resumeMode
  split
  · split <;> decide
  · decide

theorem conditionReturned_spares (s : State) (c : Cond) (d : Channel) : Spares d s (s.conditionReturned c) := by
  unfold State.conditionReturned
  split
  · exact changeMode_spares s (resumeMode_ne_halt s) d
  · exact .refl d s

theorem clear_spares (s : State) (c : Cond) (d : Channel) : Spares d s (s.clear c) := by
  unfold State.clear
  dsimp only
  split
  · exact (setCondition_quiet_spares s c _ d).trans (conditionReturned_spares _ c d)
  · exact setCondition_quiet_spares s c _ d

theorem acknowledge_spares (s : State) (c : Cond) (d : Channel) : Spares d s (s.acknowledge c) := by
  unfold State.acknowledge
  dsimp only
  split
  · exact (setCondition_quiet_spares s c _ d).trans (conditionReturned_spares _ c d)
  · exact setCondition_quiet_spares s c _ d

theorem releaseManual_spares (s : State) (d : Channel) : Spares d s s.releaseManual := by
  unfold State.releaseManual
  dsimp only
  split
  · exact setCondition_quiet_spares s _ _ d
  · exact (setCondition_quiet_spares s _ _ d).trans (conditionReturned_spares _ _ d)

theorem enqueueForward_spares (s : State) (x : ForwardRecord) (d : Channel) : Spares d s (s.enqueueForward x) := by
  rw [enqueueForward_frame]
  exact ⟨id, rfl, by cases d <;> rfl, fun _ => id, fun _ => id⟩

/-- A change of none of the parts that the two channels' invariants speak of. -/
theorem spares_of_parts (feed : t.feed = s.feed) (walls : t.walls = s.walls) (mode : t.mode = s.mode)
    (transit : t.transit = s.transit) (d : Channel) : Spares d s t where
  halt m := mode ▸ m
  switches := congrArg Transit.spreadSwitches transit
  channel := by unfold State.channel; rw [feed]
  outlets i := by unfold State.outletClaim; rw [feed]; exact id
  segments k := by unfold State.wall; rw [walls]; exact id

theorem Rule.beside (r : Rule Q D F) (hs : ∀ d, Q d s) (d : Channel)
    (h : t.feed = s.feed ∧ t.walls = s.walls ∧ t.mode = s.mode ∧ t.transit = s.transit) : Q d t :=
  r.spared (spares_of_parts h.1 h.2.1 h.2.2.1 h.2.2.2 d) (hs d)

/-! ## The walk -/

/-- An invariant of each channel that also bears the entries into HALT, the spread switches and the two resets is kept by
every event. -/
theorem Rule.keeps (r : Rule Q D F)
    (powerOn : ∀ {s : State} d, Q d (State.powerOn s.now s.free s.pending))
    (raiseHalt : ∀ {s t : State} {before} c d, c.cls = .halt → Quiet (s.raise c d) t → (before = .halt ↔ s.mode = .halt) →
      (∀ d, Q d s) → ∀ d, Q d (t.haltFeed before))
    (switches : ∀ {s : State} (x : SpreadSwitch) d, (x.enters = .climb ∨ x.enters = .trim) → Q d s →
      Q d (s.withTransit { s.transit with spreadSwitches := s.transit.spreadSwitches ++ [x] }))
    (takeSwitch : ∀ {s : State} {x rest} d, s.transit.spreadSwitches = x :: rest → Q d s →
      Q d ((s.withTransit { s.transit with spreadSwitches := rest }).takeSwitch x))
    (restarted : ∀ {s : State} d, Q d s → Q d s.restarted) : Keeps (fun s => ∀ d, Q d s) where
  quiet hs h := r.quiet h hs
  powerOn _ d := powerOn d
  driverOff _ _ hs d := r.beside hs d ⟨rfl, rfl, rfl, rfl⟩
  leaves _ _ _ hs d := r.beside hs d ⟨rfl, rfl, rfl, rfl⟩
  sends _ _ _ hs d := r.beside hs d ⟨rfl, rfl, rfl, rfl⟩
  freed _ _ hs d := r.beside hs d ⟨rfl, rfl, rfl, rfl⟩
  raise _ x h hs d := r.spared (raise_spares _ x h d) (hs d)
  raiseHalt c x h quiet m hs := raiseHalt c x h quiet m hs
  clear c hs d := r.spared (clear_spares _ c d) (hs d)
  acknowledge c hs d := r.spared (acknowledge_spares _ c d) (hs d)
  release hs d := r.spared (releaseManual_spares _ d) (hs d)
  stop hs d := r.spared (changeMode_spares _ (by decide) d) (hs d)
  start _ _ h hs d := r.spared (changeMode_spares _ (by rcases h with ⟨rfl, -⟩ | rfl <;> decide) d) (hs d)
  switches x _ enters hs d := switches x d enters (hs d)
  takeSwitch h hs d := takeSwitch d h (hs d)
  addReply _ hs d := r.beside hs d ⟨rfl, rfl, rfl, rfl⟩
  replySent _ hs d := r.beside hs d ⟨rfl, rfl, rfl, rfl⟩
  enqueueForward x hs d := r.spared (enqueueForward_spares _ x d) (hs d)
  forwardSent _ hs d := r.beside hs d ⟨rfl, rfl, rfl, rfl⟩
  stage _ _ hs d := r.beside hs d ⟨rfl, rfl, rfl, rfl⟩
  unstage _ _ hs d := r.beside hs d ⟨rfl, rfl, rfl, rfl⟩
  restarted hs d := restarted d (hs d)
  place k v source x hs := r.place k v source x none hs
  openTest c hs := r.openTest c hs
  askClose c cause hs := r.askClose c cause hs
  stopChannel c hs := r.stopChannel c (.inl rfl) hs
  startChannel c x mode rests hs := r.startChannel c x mode rests hs
  endPause c kind paused hs :=
    r.evaluateJam (r.both c (endPause_spares _ c kind) (r.endPause kind (r.waits (.inr paused) (hs c))) hs)
  outletReport slot report hs := r.outletReport slot report hs
  outletStateChanged slot miss hs := r.outletStateChanged slot miss hs
  openAcked c tag hs := r.openAcked c tag hs
  openMissed c tag hs := r.openMissed c tag hs
  feedResult x hs := r.feedResult x hs
  feedMode m hs := r.feedMode m hs
  commitFeed nodes segments hs := r.commitFeed nodes segments hs

end Sys2Proof.Proofs
end


section
/-! PROOFS. Claims (O8) and the channels in HALT (O6), as invariants of the two channels. -/

namespace Sys2Proof.Proofs

open Sys2Proof Sys2Proof.Machine Sys2Proof.Laws

variable {s t : State}

/-! ## What the operations on claims and contexts read -/

theorem setChannel_claims (s : State) (c : Channel) (x : ChannelContext) (i : Slot) (k : SegmentIx) :
    (s.setChannel c x).outletClaim i = s.outletClaim i ∧ (s.setChannel c x).wall k = s.wall k := by
  cases c <;> exact ⟨rfl, rfl⟩

theorem openChannel_claims (s : State) (c : Channel) (w : WorkingCopy) (i : Slot) (k : SegmentIx) :
    (s.openChannel c w).outletClaim i = (s.takeClaims c w).outletClaim i ∧
      (s.openChannel c w).wall k = (s.takeClaims c w).wall k := by
  unfold State.openChannel
  dsimp only
  generalize s.takeClaims c w = u
  exact setChannel_claims _ c _ i k

theorem openChannel_state (s : State) (c : Channel) (w : WorkingCopy) : ((s.openChannel c w).channel c).state = .opened := by
  cases c <;> rfl

theorem openChannel_working (s : State) (c : Channel) (w : WorkingCopy) :
    ((s.openChannel c w).channel c).working = (s.channel c).working := by
  cases c <;> rfl

/-- A channel that is on a copy has one. -/
theorem place_eq_some {x : ChannelContext} {p : SegmentIx × Slot} (h : ChannelContext.place x = some p) :
    ∃ w, x.working = some w ∧ w.segment = p.1 ∧ w.outlet = p.2 := by
  unfold ChannelContext.place at h
  obtain ⟨w, working, rfl⟩ := Option.map_eq_some_iff.1 h
  exact ⟨w, working, rfl, rfl⟩

/-- Two contexts on one copy's place work on the same segment and outlet. -/
theorem stays_holds {x y : ChannelContext} {w : WorkingCopy} (h : Stays x y) (held : x.holds w) :
    ∃ v, y.holds v ∧ v.segment = w.segment ∧ v.outlet = w.outlet := by
  obtain ⟨place, state⟩ := h
  obtain ⟨busy, working⟩ := held
  obtain ⟨v, hv, same⟩ := place_eq_some (p := (w.segment, w.outlet)) (by rw [place, ChannelContext.place, working]; rfl)
  refine ⟨v, ⟨?_, hv⟩, same⟩
  rcases state with ⟨e, -⟩ | ⟨-, e⟩
  · exact e ▸ busy
  · exact .inr e

/-! ## Claims (O8) -/

/-- The claims of a channel are those that its working copy names, in OPEN and CLOSING (R84). -/
def Claimed (c : Channel) (s : State) : Prop :=
  (∀ i, s.outletClaim i = some c → ∃ w, (s.channel c).holds w ∧ w.outlet = i) ∧
  (∀ k, (s.wall k).claim = some c → ∃ w, (s.channel c).holds w ∧ w.segment = k)

/-- A channel without claims. -/
def Unclaimed (c : Channel) (s : State) : Prop := (∀ i, s.outletClaim i ≠ some c) ∧ ∀ k, (s.wall k).claim ≠ some c

theorem claimInv_iff (s : State) : s.ClaimInv ↔ ∀ c, Claimed c s :=
  ⟨fun h c => ⟨fun i => h.1 i c, fun k => h.2 k c⟩, fun h => ⟨fun i c => (h c).1 i, fun k c => (h c).2 k⟩⟩

theorem claimed_of_unclaimed {c : Channel} (h : Unclaimed c s) : Claimed c s :=
  ⟨fun i held => absurd held (h.1 i), fun k held => absurd held (h.2 k)⟩

theorem unclaimed_of_spares {d : Channel} (h : Spares d s t) (hs : Unclaimed d s) : Unclaimed d t :=
  ⟨fun i held => hs.1 i (h.outlets i held), fun k held => hs.2 k (h.segments k held)⟩

theorem unclaimed_setChannel {c : Channel} (x : ChannelContext) (h : Unclaimed c s) : Unclaimed c (s.setChannel c x) :=
  ⟨fun i => (setChannel_claims s c x i 0).1 ▸ h.1 i, fun k => (setChannel_claims s c x 0 k).2 ▸ h.2 k⟩

/-- Outside OPEN and CLOSING a channel has no claims. -/
theorem unclaimed_of_claimed {c : Channel} (h : (s.channel c).state ≠ .opened ∧ (s.channel c).state ≠ .closing)
    (hs : Claimed c s) : Unclaimed c s := by
  refine ⟨fun i held => ?_, fun k held => ?_⟩
  · obtain ⟨-, ⟨busy, -⟩, -⟩ := hs.1 i held
    exact busy.elim h.1 h.2
  · obtain ⟨-, ⟨busy, -⟩, -⟩ := hs.2 k held
    exact busy.elim h.1 h.2

theorem claimed_openChannel {c : Channel} {w : WorkingCopy} (h : (s.channel c).working = some w) (hs : Unclaimed c s) :
    Claimed c (s.openChannel c w) := by
  have held : ((s.openChannel c w).channel c).holds w :=
    ⟨.inl (openChannel_state s c w), (openChannel_working s c w).trans h⟩
  refine ⟨fun i m => ⟨w, held, ?_⟩, fun k m => ⟨w, held, ?_⟩⟩
  · rw [(openChannel_claims s c w i 0).1, takeClaims_outletClaim] at m
    split at m
    · next e => exact e.symm
    · exact absurd m (hs.1 i)
  · rw [(openChannel_claims s c w 0 k).2, takeClaims_segmentClaim] at m
    split at m
    · next e => exact e.symm
    · exact absurd m (hs.2 k)

theorem claimed_stays {c : Channel} (y : ChannelContext) (h : Stays (s.channel c) y) (hs : Claimed c s) :
    Claimed c (s.setChannel c y) := by
  refine ⟨fun i m => ?_, fun k m => ?_⟩
  · obtain ⟨w, held, rfl⟩ := hs.1 i ((setChannel_claims s c y i 0).1 ▸ m)
    obtain ⟨v, hv, -, outlet⟩ := stays_holds h held
    exact ⟨v, (channel_setChannel_same s c y).symm ▸ hv, outlet⟩
  · obtain ⟨w, held, rfl⟩ := hs.2 k ((setChannel_claims s c y 0 k).2 ▸ m)
    obtain ⟨v, hv, segment, -⟩ := stays_holds h held
    exact ⟨v, (channel_setChannel_same s c y).symm ▸ hv, segment⟩

/-- The claims of an opening are dropped together, and there are no others. -/
theorem unclaimed_dropClaims {c : Channel} {w : WorkingCopy} (on : OnCopy c w s) (hs : Claimed c s) :
    Unclaimed c (s.dropClaims c w) := by
  obtain ⟨x, working, segment, outlet⟩ := place_eq_some on.2
  have only {v : WorkingCopy} (held : (s.channel c).holds v) : v = x := Option.some.inj (held.2.symm.trans working)
  refine ⟨fun i m => ?_, fun k m => ?_⟩
  · rw [dropClaims_outletClaim] at m
    split at m
    · exact nomatch m
    · next kept =>
      obtain ⟨v, held, rfl⟩ := hs.1 i m
      exact kept ⟨only held ▸ outlet, m⟩
  · rw [dropClaims_segmentClaim] at m
    split at m
    · exact nomatch m
    · next kept =>
      obtain ⟨v, held, rfl⟩ := hs.2 k m
      exact kept ⟨only held ▸ segment, m⟩

theorem claimRule : Rule Claimed Unclaimed Unclaimed where
  spared h hs := ⟨fun i m => h.channel ▸ hs.1 i (h.outlets i m), fun k m => h.channel ▸ hs.2 k (h.segments k m)⟩
  sparedD := unclaimed_of_spares
  sparedF := unclaimed_of_spares
  setD := unclaimed_setChannel
  setF := unclaimed_setChannel
  waits h hs := unclaimed_of_claimed (by rcases h with h | h <;> rw [h] <;> decide) hs
  rests {c s} h _ hs := by
    refine unclaimed_of_claimed ⟨fun e => ?_, fun e => ?_⟩ hs <;> · rw [e] at h; exact nomatch h
  free _ hs := claimed_of_unclaimed hs
  dropped _ hs := claimed_of_unclaimed hs
  opens h hs := claimed_openChannel h hs
  stays y h hs := claimed_stays y h hs
  drops on hs := ⟨unclaimed_dropClaims on hs, .inl (unclaimed_dropClaims on hs)⟩

/-- A change of neither the feed nor the segments leaves the claims. -/
theorem claimed_of_parts {d : Channel} (feed : t.feed = s.feed) (walls : t.walls = s.walls) (hs : Claimed d s) :
    Claimed d t := by
  unfold Claimed State.outletClaim State.channel State.wall
  rw [feed, walls]
  exact hs

theorem claimed_powerOn (s : State) (d : Channel) : Claimed d (State.powerOn s.now s.free s.pending) := by
  refine claimed_of_unclaimed ⟨fun i m => ?_, fun k m => ?_⟩
  · have none : (State.powerOn s.now s.free s.pending).outletClaim i = none := table_read_const _ _ _
    exact nomatch none.symm.trans m
  · have read : (State.powerOn s.now s.free s.pending).wall k = _ := table_read_const _ _ _
    rw [read] at m
    exact nomatch m

theorem claimed_restarted (s : State) (d : Channel) : Claimed d s.restarted := by
  refine claimed_of_unclaimed ⟨fun i m => ?_, fun k m => ?_⟩
  · have none : s.restarted.outletClaim i = none := table_read_const _ _ _
    exact nomatch none.symm.trans m
  · have read : s.restarted.wall k = _ := table_read_tabulate _ _
    rw [read] at m
    exact nomatch m

theorem claims_keeps : Keeps (fun s => ∀ d, Claimed d s) := by
  refine claimRule.keeps (fun {s} => claimed_powerOn s) (fun {s t before} c x _ quiet _ hs => ?_) (fun x d _ hs => ?_)
    (fun {s x rest} d _ hs => ?_) (fun {s} d _ => claimed_restarted s d)
  · have raised : ∀ d, Claimed d (s.raise c x) := fun d => by
      rw [raise_frame]
      exact claimed_of_parts rfl rfl (hs d)
    unfold State.haltFeed
    split
    · exact claimRule.bothChannels _ (fun c _ hu => claimRule.stopChannel c (.inr rfl) hu) (claimRule.quiet quiet raised)
    · exact claimRule.quiet quiet raised
  · exact claimed_of_parts rfl rfl hs
  · unfold State.takeSwitch
    split
    · rw [changeMode_frame]
      exact claimed_of_parts rfl rfl hs
    · exact claimed_of_parts rfl rfl hs

/-- Settles O8: every event keeps it, by the rule for an invariant of the two channels. -/
theorem stepsKeepTheClaims : Obligations.StepsKeepTheClaims := fun _ _ hs h =>
  (claimInv_iff _).2 (claims_keeps.step (fun h d => claimed_of_parts rfl rfl (h d)) (fun _ h d => claimed_of_parts rfl rfl (h d)) h
    ((claimInv_iff _).1 hs))

/-! ## The channels in HALT (O6) -/

/-- The states a channel has in HALT (R102). -/
def Resting (x : ChannelContext) : Prop := x.state = .idle ∨ x.state = .done ∨ x.state = .stopped ∨ Stopping x

/-- No spread switch enters HALT (R112). -/
def SwitchesRun (s : State) : Prop := ∀ x ∈ s.transit.spreadSwitches, x.enters ≠ .halt

/-- A channel rests in HALT, and in OPEN has a working copy. -/
def Halted (c : Channel) (s : State) : Prop :=
  SwitchesRun s ∧ (s.mode = .halt → Resting (s.channel c)) ∧ ((s.channel c).state = .opened → (s.channel c).working ≠ none)

/-- Any work may be taken up. -/
def Running (s : State) : Prop := s.mode ≠ .halt ∧ SwitchesRun s

theorem haltInv_iff (s : State) : s.HaltInv ↔ ∀ c, Halted c s :=
  ⟨fun h c => ⟨h.2.2, fun m => h.1 m c, h.2.1 c⟩, fun h => ⟨fun m c => (h c).2.1 m, fun c => (h c).2.2, (h .a).1⟩⟩

theorem switchesRun_of_spares {d : Channel} (h : Spares d s t) (hs : SwitchesRun s) : SwitchesRun t :=
  fun x hx => hs x (h.switches ▸ hx)

/-- A channel that has work to do, or an opening that goes on, is not in HALT. -/
theorem running_of_halted {c : Channel} (h : ¬ Resting (s.channel c)) (hs : Halted c s) : Running s :=
  ⟨fun m => h (hs.2.1 m), hs.1⟩

theorem halted_stays {c : Channel} (y : ChannelContext) (h : Stays (s.channel c) y) (hs : Halted c s) :
    Halted c (s.setChannel c y) := by
  obtain ⟨place, state⟩ := h
  have switches : SwitchesRun (s.setChannel c y) := hs.1
  refine ⟨switches, fun m => ?_, fun opened => ?_⟩ <;> rw [channel_setChannel_same] at *
  · have rests := hs.2.1 m
    rcases state with ⟨e, cause⟩ | ⟨e, -⟩
    · unfold Resting Stopping at rests ⊢
      rw [e]
      rcases cause with k | k
      · rw [k]
        exact rests
      · exact rests.imp_right (.imp_right (.imp_right fun x => ⟨x.1, k⟩))
    · unfold Resting Stopping at rests
      rw [e] at rests
      simp at rests
  · rcases state with ⟨e, -⟩ | ⟨-, e⟩
    · intro none
      refine hs.2.2 (e ▸ opened) (Option.map_eq_none_iff.1 (place.symm.trans ?_))
      rw [ChannelContext.place, none]
      rfl
    · rw [e] at opened
      exact nomatch opened

theorem haltRule : Rule Halted (fun _ => SwitchesRun) (fun _ => Running) where
  spared h hs := ⟨switchesRun_of_spares h hs.1, fun m => h.channel ▸ hs.2.1 (h.halt m), h.channel ▸ hs.2.2⟩
  sparedD := switchesRun_of_spares
  sparedF h hs := ⟨fun m => hs.1 (h.halt m), switchesRun_of_spares h hs.2⟩
  setD _ hs := hs
  setF _ hs := hs
  waits h hs := running_of_halted (by rcases h with h | h <;> simp [Resting, Stopping, h]) hs
  rests _ mode hs := ⟨mode, hs.1⟩
  free working hs := ⟨hs.2, fun m => absurd m hs.1, working⟩
  dropped h hs := ⟨hs, fun _ => .inr (.inr (.inl h)), fun e => nomatch h.symm.trans e⟩
  opens {c s w} working hs := by
    have spares := openChannel_spares s c w
    refine ⟨switchesRun_of_spares spares hs.2, fun m => absurd (spares.halt m) hs.1, fun _ => ?_⟩
    rw [openChannel_working, working]
    exact nofun
  stays y h hs := halted_stays y h hs
  drops {c s w} on hs := by
    refine ⟨switchesRun_of_spares (dropClaims_spares s c c w) hs.1, ?_⟩
    by_cases m : s.mode = .halt
    · have rests := hs.2.1 m
      unfold Resting at rests
      rcases on.1 with e | e <;> simp [e] at rests
      · exact .inr rests
      · exact .inr rests
    · exact .inl ⟨fun e => m ((dropClaims_spares s c c w).halt e), switchesRun_of_spares (dropClaims_spares s c c w) hs.1⟩

theorem halted_powerOn (s : State) (d : Channel) : Halted d (State.powerOn s.now s.free s.pending) := by
  refine ⟨fun x hx => ?_, fun m => ?_, fun opened => ?_⟩
  · exact nomatch (hx : x ∈ [])
  · exact nomatch (m : RiseMode.idle = .halt)
  · cases d <;> exact nomatch (opened : ChannelState.idle = .opened)

theorem restarted_state (s : State) (d : Channel) : (s.restarted.channel d).state = .idle := by
  cases d <;> rfl

theorem halted_restarted (s : State) (d : Channel) : Halted d s.restarted := by
  refine ⟨fun x hx => ?_, fun m => ?_, fun opened => ?_⟩
  · rw [restarted_handoffs] at hx
    exact absurd hx nofun
  · rw [restarted_mode] at m
    exact nomatch m
  · rw [restarted_state] at opened
    exact nomatch opened

/-- A raise that takes the mode to HALT stops both channels; any other raise spares them (R102). -/
theorem halted_raiseHalt {before : RiseMode} (c : Cond) (x : Option Nat) (quiet : Quiet (s.raise c x) t)
    (h : before = .halt ↔ s.mode = .halt) (hs : ∀ d, Halted d s) (d : Channel) : Halted d (t.haltFeed before) := by
  have switches : SwitchesRun t := by
    unfold SwitchesRun
    rw [(spares_of_quiet d quiet).switches, modesOnly_switches (raise_modes s c x)]
    exact (hs d).1
  have channel (e : Channel) : t.channel e = s.channel e := by
    refine (spares_of_quiet e quiet).channel.trans ?_
    rw [raise_frame]
    cases e <;> rfl
  by_cases entered : t.mode = .halt ∧ before ≠ .halt
  · have rests := halts_rests (haltFeed_halts t before entered.1 entered.2) (fun e => channel e ▸ (hs e).2.2) d
    dsimp only at rests
    refine ⟨by rw [SwitchesRun, haltFeed_transit]; exact switches, fun _ => ?_, fun opened => ?_⟩
    · exact rests.imp_right (.imp_right (.imp_right fun x => ⟨x.1, .inr x.2⟩))
    · rw [opened] at rests
      simp at rests
  · have kept : t.mode = .halt → before = .halt := fun m => by_contra fun ne => entered ⟨m, ne⟩
    rw [haltFeed_of_mode kept]
    exact ⟨switches, fun m => channel d ▸ (hs d).2.1 (h.1 (kept m)), channel d ▸ (hs d).2.2⟩

theorem halts_keeps : Keeps (fun s => ∀ d, Halted d s) := by
  refine haltRule.keeps (fun {s} => halted_powerOn s) (fun c x _ quiet m hs => halted_raiseHalt c x quiet m hs)
    (fun {s} x d enters hs => ?_) (fun {s x rest} d h hs => ?_) (fun {s} d _ => halted_restarted s d)
  · refine ⟨fun y hy => ?_, hs.2⟩
    rcases List.mem_append.1 hy with old | new
    · exact hs.1 y old
    · rw [List.mem_singleton.1 new]
      rcases enters with e | e <;> rw [e] <;> decide
  · have left : Halted d (s.withTransit { s.transit with spreadSwitches := rest }) :=
      ⟨fun y hy => hs.1 y (h ▸ List.mem_cons_of_mem x hy), hs.2⟩
    unfold State.takeSwitch
    split
    · exact haltRule.spared (changeMode_spares _ (hs.1 x (h ▸ List.mem_cons_self)) d) left
    · exact left

/-- Settles O6: the first part is an invariant of the mode and the conditions, the second one of the two channels, and every
event keeps both. -/
theorem stepsKeepTheModeInvariant : Obligations.StepsKeepTheModeInvariant :=
  ⟨fun _ _ => step_modeInv, fun _ _ hs h => (haltInv_iff _).2 (halts_keeps.step
    (fun h d => ⟨(h d).1, (h d).2⟩) (fun _ h d => ⟨(h d).1, (h d).2⟩) h ((haltInv_iff _).1 hs))⟩

end Sys2Proof.Proofs
end


section
/-! PROOFS. The power events, a held part, the queue of commands and the reset state (O1, O3, O4, O5, O11), and what a console
command or an event of a part that runs is (used by the families below). -/

namespace Sys2Proof.Proofs

open Sys2Proof Sys2Proof.Machine Sys2Proof.Laws

variable {s : State}

/-! ## Running and held parts (R176, R197) -/

theorem whenRunning_of_running (h : s.running = true) (f : State → State) : s.whenRunning f = f s := if_pos h

theorem whenRunning_of_held (h : s.running = false) (f : State → State) : s.whenRunning f = s :=
  if_neg (by rw [h]; decide)

/-- What an event does in a part that runs. -/
theorem exec_event {i : Instr} (running : s.running = true) (f : State → State) (h : exec i s = .next (s.whenRunning f)) :
    exec i s = .next (f s) := by
  rw [h, whenRunning_of_running running]

/-- What a console command does in a part that runs: the silence timer restarts, then the command is taken. -/
theorem exec_command {i : Instr} (running : s.running = true) (f : State → State) (h : exec i s = .next (s.onCommand f)) :
    exec i s = .next (f s.silenceReset) := by
  rw [h, onCommand_of_running running]

/-- What a command that only answers leaves behind. -/
theorem answers_reply {i : Instr} {f : State → State} {seq code : Byte} {o : OutcomeCode} {fields : List Field}
    (running : s.running = true) (h : exec i s = .next (s.onCommand f))
    (k : f s.silenceReset = s.silenceReset.reply seq code o fields) :
    ∃ t, exec i s = .next t ∧ t = s.silenceReset.withConsole t.console ∧
      t.console = s.silenceReset.answered (.reply seq code o fields) := by
  refine ⟨f s.silenceReset, exec_command running f h, ?_⟩
  rw [k]
  exact ⟨rfl, rfl⟩

/-- Settles O1: the two cases of the queue. -/
theorem stepTakesTheFrontCommand : Obligations.StepTakesTheFrontCommand := by
  refine ⟨fun c rest s h => ?_, fun s h => ?_⟩ <;> simp [step, h]

/-- Settles O3: every step that the supply and the reset pin gate is an event or a command of a running part, or the discard of a
frame of the ring, which does nothing. -/
theorem aHeldPartStandsStill : Obligations.AHeldPartStandsStill := by
  intro c s gated held
  cases c with
  | powerOn => exact nomatch gated
  | resetPinAssert => exact nomatch gated
  | powerLoss => exact nomatch gated
  | ringFrameDiscard frame => rfl
  | _ => exact congrArg Host.Outcome.next (whenRunning_of_held held _)

/-! ## Reset and power -/

theorem powerOn_channel (now free : Nat) (pending : List Instr) (c : Channel) :
    (State.powerOn now free pending).channel c = ChannelContext.initial := by
  cases c <;> rfl

theorem power_on_params (i : ParamIx) (h : 27 ≤ i.val) : Params.initial.value i = 1 := by
  revert i
  decide

/-- Settles O4: POWER_ON reads nothing of the state but the time base, the index of free values and the queue, and its value is
given field by field. -/
theorem powerOnKeepsNothing : Obligations.PowerOnKeepsNothing := by
  refine ⟨fun s s' now free pending => ⟨?_, _, rfl, rfl⟩, fun s => ⟨_, rfl, rfl, rfl, rfl, rfl, rfl, rfl, ?_⟩⟩
  · show Host.Outcome.next _ = Host.Outcome.next _
    rw [now, free, pending]
  refine ⟨fun i => ⟨?_, ?_, ?_⟩, rfl, rfl, rfl, rfl, rfl, fun k => ⟨?_, ?_⟩, fun d => ?_, powerOn_channel _ _ _, fun i => ?_,
    ⟨rfl, rfl, rfl, rfl⟩, fun c => ⟨?_, ?_⟩, fun m => ⟨?_, ?_⟩, fun m => ⟨?_, ?_⟩, rfl, rfl, ?_, fun a => ⟨?_, ?_, ?_⟩, rfl,
    fun i => ?_, rfl, rfl, rfl⟩
  case refine_14 => exact ⟨rfl, rfl, rfl, rfl, rfl, rfl, rfl, rfl, rfl, rfl, rfl, rfl, rfl, rfl, rfl, rfl, rfl, rfl, rfl, rfl,
    rfl, rfl, rfl, rfl, rfl, rfl, rfl, power_on_params⟩
  all_goals exact table_read_const _ _ _

/-- Settles O5: the three steps, written out. -/
theorem powerPinAndPourClock : Obligations.PowerPinAndPourClock := by
  refine ⟨⟨fun s => ⟨_, rfl, rfl, ?_, rfl, rfl, rfl⟩, fun s => ⟨_, rfl, rfl, rfl, rfl, rfl, rfl⟩⟩, fun s running => ?_⟩
  · exact Bool.and_false _
  · refine ⟨_, exec_event running State.tickPourClock rfl, rfl, fun h => ?_, fun h => ?_⟩
    · exact min_eq_right (Nat.succ_le_of_lt h)
    · show min 4294967295 (s.pourClock + 1) = 4294967295
      rw [h]
      rfl

/-- Settles O11: POWER_ON's state meets each invariant, whatever came before it. -/
theorem resetMeetsTheInvariants : Obligations.ResetMeetsTheInvariants :=
  ⟨powerOn_modeInv 0 0 [], (haltInv_iff _).2 (halted_powerOn .reset), powerOn_wallInv 0 0 [],
    (claimInv_iff _).2 (claimed_powerOn .reset), repliesForm_nil, ⟨Nat.zero_le _, by exact .nil⟩, stagedForm_nil,
    driverInv_of_off rfl⟩

end Sys2Proof.Proofs
end


section
/-! PROOFS. Conditions and the rise mode (O15, O25, O26, O28, O59): what a raise, a clear, an acknowledgement and RELEASE do to
the record, the mode and its hand-offs. -/

namespace Sys2Proof.Proofs

open Sys2Proof Sys2Proof.Machine Sys2Proof.Laws

variable {s : State} {c : Cond}

/-! ## The mode -/

/-- A change of mode is handed to the six blocks (R108). -/
theorem changeMode_handed {m : RiseMode} (h : s.mode ≠ m) :
    (s.changeMode m).transit = s.transit.handed { old := s.mode, new := m, moment := s.now } := changeMode_transit s m h

/-- Every other condition that holds a rise or halts it is IDLE. -/
def OthersIdle (s : State) (c : Cond) : Prop :=
  ∀ d : Cond, d ≠ c → d.cls = .hold ∨ d.cls = .halt → (s.condition d).state = .idle

/-- A hold ends when this condition returns to IDLE (R111). -/
def HoldEnds (s : State) (c : Cond) : Prop := c.cls = .hold ∧ s.mode = .hold ∧ OthersIdle s c

/-- With the condition's own record IDLE, the two tests of the hold's end are the test of the others. -/
theorem quiet_setCondition_iff {r : CondRecord} (idle : r.state = .idle) :
    ((s.setCondition c r).haltQuiet = true ∧ (s.setCondition c r).holdQuiet = true) ↔ OthersIdle s c := by
  rw [haltQuiet_iff, holdQuiet_iff]
  constructor
  · rintro ⟨halt, hold⟩ d ne cls
    rw [← setCondition_other s r ne]
    exact cls.elim (hold d) (halt d)
  · intro others
    have all (d : Cond) (cls : d.cls = .hold ∨ d.cls = .halt) : ((s.setCondition c r).condition d).state = .idle := by
      by_cases e : d = c
      · rw [e, setCondition_same, idle]
      · rw [setCondition_other s r e, others d e cls]
    exact ⟨fun d h => all d (.inr h), fun d h => all d (.inl h)⟩

/-- What a return to IDLE does to the mode and its hand-offs. -/
theorem conditionReturned_cases {r : CondRecord} (idle : r.state = .idle) :
    let t := (s.setCondition c r).conditionReturned c
    (HoldEnds s c → t.mode = s.resumeMode ∧
      t.transit = s.transit.handed { old := .hold, new := s.resumeMode, moment := s.now }) ∧
    (¬ HoldEnds s c → t.mode = s.mode ∧ t.transit = s.transit) := by
  have test : (c.cls = .hold ∧ (s.setCondition c r).mode = .hold ∧ (s.setCondition c r).haltQuiet = true ∧
      (s.setCondition c r).holdQuiet = true) ↔ HoldEnds s c := by
    refine ⟨fun ⟨k, m, q⟩ => ⟨k, m, (quiet_setCondition_iff idle).1 q⟩, fun ⟨k, m, q⟩ => ⟨k, m, ?_⟩⟩
    exact (quiet_setCondition_iff idle).2 q
  unfold State.conditionReturned
  refine ⟨fun ends => ?_, fun stays => ?_⟩
  · rw [if_pos (test.2 ends)]
    obtain ⟨-, mode, -⟩ := ends
    have resume : (s.setCondition c r).resumeMode = s.resumeMode := rfl
    have left : (s.setCondition c r).mode ≠ s.resumeMode := by
      rw [setCondition_mode, mode]
      unfold State.resumeMode
      split
      · split <;> decide
      · decide
    rw [resume, changeMode_mode, changeMode_handed left, setCondition_mode, mode]
    exact ⟨rfl, rfl⟩
  · rw [if_neg (mt test.1 stays)]
    exact ⟨rfl, rfl⟩

/-! ## Raises -/

/-- What leaving IDLE does to the mode and its hand-offs (R109, R110). -/
theorem conditionLeft_cases (s : State) (c : Cond) :
    let t := s.conditionLeft c
    let halts := c.cls = .halt ∧ (s.mode = .climb ∨ s.mode = .trim ∨ s.mode = .hold)
    let holds := c.cls = .hold ∧ (s.mode = .climb ∨ s.mode = .trim)
    (halts → t.mode = .halt ∧ t.transit = s.transit.handed { old := s.mode, new := .halt, moment := s.now }) ∧
    (holds → t.mode = .hold ∧ t.transit = s.transit.handed { old := s.mode, new := .hold, moment := s.now }) ∧
    (¬ halts → ¬ holds → t.mode = s.mode ∧ t.transit = s.transit) := by
  have changed (m : RiseMode) (h : s.mode ≠ m) : (s.changeMode m).mode = m ∧
      (s.changeMode m).transit = s.transit.handed { old := s.mode, new := m, moment := s.now } :=
    ⟨changeMode_mode s m, changeMode_handed h⟩
  dsimp only
  unfold State.conditionLeft
  split
  case h_1 k m => exact ⟨fun _ => changed .halt (by simp [m]), by simp [k], by simp [k, m]⟩
  case h_2 k m => exact ⟨fun _ => changed .halt (by simp [m]), by simp [k], by simp [k, m]⟩
  case h_3 k m => exact ⟨fun _ => changed .halt (by simp [m]), by simp [k], by simp [k, m]⟩
  case h_4 k m => exact ⟨by simp [k], fun _ => changed .hold (by simp [m]), by simp [k, m]⟩
  case h_5 k m => exact ⟨by simp [k], fun _ => changed .hold (by simp [m]), by simp [k, m]⟩
  case h_6 h1 h2 h3 h4 h5 =>
    refine ⟨fun ⟨k, m⟩ => ?_, fun ⟨k, m⟩ => ?_, fun _ _ => ⟨rfl, rfl⟩⟩
    · rcases m with m | m | m
      · exact (h1 k m).elim
      · exact (h2 k m).elim
      · exact (h3 k m).elim
    · exact (m.elim (h4 k) (h5 k)).elim

/-- What a raise does to the mode and its hand-offs. -/
theorem raise_cases (s : State) (c : Cond) (detail : Option Nat) :
    let t := s.raise c detail
    let idle := (s.condition c).state = .idle
    let halts := idle ∧ c.cls = .halt ∧ (s.mode = .climb ∨ s.mode = .trim ∨ s.mode = .hold)
    let holds := idle ∧ c.cls = .hold ∧ (s.mode = .climb ∨ s.mode = .trim)
    (halts → t.mode = .halt ∧ t.transit = s.transit.handed { old := s.mode, new := .halt, moment := s.now }) ∧
    (holds → t.mode = .hold ∧ t.transit = s.transit.handed { old := s.mode, new := .hold, moment := s.now }) ∧
    (¬ halts → ¬ holds → t.mode = s.mode ∧ t.transit = s.transit) := by
  obtain ⟨halts, holds, stays⟩ := conditionLeft_cases (s.setCondition c ((s.condition c).raised c detail)) c
  dsimp only
  unfold State.raise
  dsimp only
  split
  · next idle =>
    exact ⟨fun h => halts h.2, fun h => holds h.2, fun h k => stays (fun x => h ⟨idle, x⟩) fun x => k ⟨idle, x⟩⟩
  · next left => exact ⟨fun h => absurd h.1 left, fun h => absurd h.1 left, fun _ _ => ⟨rfl, rfl⟩⟩

theorem raised_eq (r : CondRecord) (c : Cond) (detail : Option Nat) :
    r.raised c detail = { state := (if c.kind = .level then .raised else .uncleared)
                          source := decide (c.kind = .level)
                          detail := if c.hasDetail then detail else r.detail
                          count := min 255 (r.count + 1) } := by
  unfold CondRecord.raised
  cases c.kind <;> rfl

/-! ## Clears -/

/-- What a clear does to the mode and its hand-offs. -/
theorem clear_cases (s : State) (c : Cond) :
    let t := s.clear c
    let ends := (s.condition c).state = .standing ∧ HoldEnds s c
    (ends → t.mode = s.resumeMode ∧
      t.transit = s.transit.handed { old := .hold, new := s.resumeMode, moment := s.now }) ∧
    (¬ ends → t.mode = s.mode ∧ t.transit = s.transit) := by
  dsimp only
  unfold State.clear
  dsimp only
  split
  · next standing =>
    have idle : (s.condition c).cleared.state = .idle := by simp [CondRecord.cleared, standing]
    obtain ⟨ends, stays⟩ := conditionReturned_cases (s := s) (c := c) idle
    exact ⟨fun h => ends h.2, fun h => stays fun x => h ⟨standing, x⟩⟩
  · next other => exact ⟨fun h => absurd h.1 other, fun _ => ⟨rfl, rfl⟩⟩

theorem cleared_eq (r : CondRecord) : r.cleared = { r with source := false, state := (match r.state with
    | .idle => .idle
    | .raised => .uncleared
    | .standing => .idle
    | .uncleared => .uncleared) } := by
  unfold CondRecord.cleared
  cases r.state <;> rfl

/-- Settles O59: the record, the mode and the frame of a raise and of a clear, and the four cases of an evaluation. -/
theorem conditionsRaiseAndClear : Obligations.ConditionsRaiseAndClear := by
  intro s c detail r t u halts holds ends
  obtain ⟨raiseHalts, raiseHolds, raiseStays⟩ := raise_cases s c detail
  obtain ⟨clearEnds, clearStays⟩ := clear_cases s c
  refine ⟨raise_frame s c detail, clear_frame s c, (raise_same s c detail).trans (raised_eq r c detail),
    (clear_same s c).trans (cleared_eq r), fun d ne => ⟨raise_other s detail ne, clear_other s ne⟩, raise_masked s c detail,
    clear_masked s c, raiseHalts, raiseHolds, raiseStays, fun ⟨standing, cls, mode, others⟩ => ?_, fun stays => clearStays ?_,
    fun off => ⟨evaluate_raises s c detail off, evaluate_same s c false detail off⟩,
    fun on => ⟨evaluate_same s c true detail on, evaluate_clears s c detail on⟩⟩
  · obtain ⟨resumed, handed⟩ := clearEnds ⟨standing, cls, mode, others⟩
    exact ⟨resumed, by rw [handed, resumed]⟩
  · rintro ⟨standing, cls, mode, others⟩
    exact stays ⟨standing, cls, mode, others⟩

/-! ## The silence timer (O15) -/

/-- A part whose latest valid frame is this moment. -/
def State.heard (s : State) : State :=
  s.withConsole { s.console with silence := { s.console.silence with latestValid := s.now } }

theorem silenceReset_inactive (h : (s.condition .consoleSilent).source = false) : s.silenceReset = State.heard s :=
  evaluate_same _ _ _ _ h

theorem silenceReset_active (h : (s.condition .consoleSilent).source = true) :
    s.silenceReset = (State.heard s).clear .consoleSilent := evaluate_clears _ _ _ h

theorem silenceReset_latestValid (s : State) : s.silenceReset.console.silence.latestValid = s.now := by
  rw [silenceReset_frame]
  rfl

/-- A console command acts as on a part that has just heard a valid frame. -/
theorem exec_command_silenceReset {i : Instr} {f : State → State} (running : s.running = true)
    (h : ∀ u, exec i u = .next (u.onCommand f)) : exec i s = exec i s.silenceReset := by
  rw [exec_command running f (h s), exec_command ((silenceReset_running s).trans running) f (h _), silenceReset_twice]

/-- Settles O15: the silence timer's two cases, and every console command as one on the part that has heard its frame. -/
theorem commandsRestartTheSilenceTimer : Obligations.CommandsRestartTheSilenceTimer := by
  refine ⟨?_, fun i s console running => ?_⟩
  · intro s u v r ends
    refine ⟨silenceReset_latestValid s, silenceReset_source s, silenceReset_inactive, fun active => ?_⟩
    have cleared : u = (State.heard s).clear .consoleSilent := silenceReset_active active
    obtain ⟨clearEnds, clearStays⟩ := clear_cases (State.heard s) .consoleSilent
    refine ⟨silenceReset_frame s, ?_, fun d ne => ?_, ?_, fun ⟨standing, mode, others⟩ => ?_, fun stays => ?_⟩ <;> rw [cleared]
    · exact (clear_same _ _).trans (cleared_eq r)
    · exact clear_other _ ne
    · exact clear_masked _ _
    · obtain ⟨resumed, handed⟩ := clearEnds ⟨standing, by decide, mode, others⟩
      exact ⟨resumed, by rw [handed, resumed]; rfl⟩
    · exact clearStays fun ⟨standing, _, mode, others⟩ => stays ⟨standing, mode, others⟩
  · cases i with
    | status | read | write | discard | commit | start | stop | hold | release | setRate | ack | pollCondition | mask
    | feedStart | feedStop | place | relay | setUser | restart | unknownCommand =>
      exact exec_command_silenceReset running fun _ => rfl
    | _ => exact nomatch console

end Sys2Proof.Proofs
end


section
/-! PROOFS. Console commands that are only answered, and the simple ones (O14, O16, O17, O18, O27, O29). -/

namespace Sys2Proof.Proofs

open Sys2Proof Sys2Proof.Machine Sys2Proof.Laws

/-! ## Frames written out (O14) -/

/-- Settles O14: the check value and the three frames, evaluated. -/
theorem writtenFramesAreTheirCommands : Obligations.WrittenFramesAreTheirCommands := by
  refine ⟨?_, ?_, ?_, ?_⟩ <;> decide +kernel

/-! ## Malformed arguments (O16, R158) -/

section Malformed

variable (u : State) (seq : Byte) {args : List Byte}

/-- A command without arguments is malformed with any. -/
theorem malformed_of_some (h : (!args.isEmpty) = true) : ∃ a rest, args = a :: rest := by
  cases args with
  | nil => exact nomatch h
  | cons a rest => exact ⟨a, rest, rfl⟩

theorem takeRead_malformed (h : malformedArgs 2 args = true) : u.takeRead seq args = u.replyMalformed seq 2 := by
  unfold State.takeRead
  split
  · next t i j =>
    have none : readTarget? t i j = none := Option.isNone_iff_eq_none.1 h
    rw [none]
  · rfl

theorem takeWrite_malformed (h : malformedArgs 3 args = true) : u.takeWrite seq args = u.replyMalformed seq 3 := by
  have none : parseEdit args = none := Option.isNone_iff_eq_none.1 h
  unfold State.takeWrite
  rw [none]

theorem takeSetRate_malformed (h : malformedArgs 10 args = true) : u.takeSetRate seq args = u.replyMalformed seq 10 := by
  unfold State.takeSetRate
  split
  · exact nomatch h
  · rfl

theorem takeSetUser_malformed (h : malformedArgs 18 args = true) : u.takeSetUser seq args = u.replyMalformed seq 18 := by
  unfold State.takeSetUser
  split
  · exact nomatch h
  · rfl

theorem takeAck_malformed (h : malformedArgs 11 args = true) : u.takeAck seq args = u.replyMalformed seq 11 := by
  unfold State.takeAck
  split
  · next n =>
    have large : 17 < n.toNat := of_decide_eq_true h
    have none : Cond.ofNum n.toNat = none := List.getElem?_eq_none large
    rw [none]
  · rfl

theorem takeMask_malformed (h : malformedArgs 13 args = true) : u.takeMask seq args = u.replyMalformed seq 13 := by
  unfold State.takeMask
  split
  · next b2 b1 b0 =>
    have large : 3 < b2.toNat := of_decide_eq_true h
    have set : ¬ natOfBytes [b2, b1, b0] < 262144 := by
      simp only [natOfBytes, List.foldl_cons, List.foldl_nil]
      omega
    exact if_neg set
  · rfl

/-- A channel byte from 2 on names no channel. -/
theorem channel?_eq_none {b : Byte} (h : 1 < b.toNat) : channel? b = none := by
  unfold channel?
  rw [if_neg (by rintro rfl; simp at h), if_neg (by rintro rfl; simp at h)]

theorem index?_eq_none {n : Nat} {b : Byte} (h : ¬ b.toNat < n) : index? n b = none := dif_neg h

theorem takeFeedStart_malformed (h : malformedArgs 14 args = true) : u.takeFeedStart seq args = u.replyMalformed seq 14 := by
  unfold State.takeFeedStart
  split
  · next ch ix =>
    have large : 1 < ch.toNat ∨ 63 < ix.toNat := by
      simpa only [Bool.or_eq_true, decide_eq_true_eq] using (show (decide (1 < ch.toNat) || decide (63 < ix.toNat)) = true from h)
    rcases large with large | large
    · rw [channel?_eq_none large]
    · rw [index?_eq_none (by omega)]
      cases channel? ch <;> rfl
  · rfl

theorem takeFeedStop_malformed (h : malformedArgs 15 args = true) : u.takeFeedStop seq args = u.replyMalformed seq 15 := by
  unfold State.takeFeedStop
  split
  · next ch => rw [channel?_eq_none (of_decide_eq_true h)]
  · rfl

theorem ranged?_eq_none {low high v : Nat} (h : v < low ∨ high < v) : ranged? low high v = none := if_neg (by omega)

theorem takePlace_malformed (h : malformedArgs 16 args = true) : u.takePlace seq args = u.replyMalformed seq 16 := by
  unfold State.takePlace
  split
  · next k l1 l0 =>
    have outside : 31 < k.toNat ∨ natOfBytes [l1, l0] < 1 ∨ 4000 < natOfBytes [l1, l0] := by
      simpa [malformedArgs, natOfBytes, or_assoc] using h
    rcases outside with large | outside
    · rw [index?_eq_none (by omega)]
    · rw [ranged?_eq_none outside]
      cases index? 32 k <;> rfl
  · rfl

theorem takeRelay_malformed (h : malformedArgs 17 args = true) : u.takeRelay seq args = u.replyMalformed seq 17 := by
  unfold State.takeRelay
  split
  · next t i payload =>
    have outside : t.toNat = 0 ∨ 127 < i.toNat ∨ 64 < payload.length := by
      simpa only [Bool.or_eq_true, decide_eq_true_eq, or_assoc] using
        (show (decide (t.toNat = 0) || decide (127 < i.toNat) || decide (64 < payload.length)) = true from h)
    rcases outside with zero | large | long
    · rw [ranged?_eq_none (.inl (by omega))]
    · rw [index?_eq_none (by omega)]
      cases ranged? 1 255 t.toNat <;> rfl
    · cases ranged? 1 255 t.toNat with
      | none => rfl
      | some tag =>
        cases index? 128 i with
        | none => rfl
        | some target => exact if_neg (by omega)
  · rfl

end Malformed

/-- A code of the command set is one of its nineteen. -/
theorem knownCode_cases {code : Byte} (h : knownCode code = true) :
    code = 1 ∨ code = 2 ∨ code = 3 ∨ code = 4 ∨ code = 5 ∨ code = 6 ∨ code = 7 ∨ code = 8 ∨ code = 9 ∨ code = 10 ∨ code = 11 ∨
      code = 12 ∨ code = 13 ∨ code = 14 ∨ code = 15 ∨ code = 16 ∨ code = 17 ∨ code = 18 ∨ code = 19 := by
  revert code
  decide +kernel

/-- A malformed command of the set is answered so, whichever it is. -/
theorem commandStep_malformed {seq code : Byte} {args : List Byte} (known : knownCode code = true)
    (h : malformedArgs code args = true) :
    ∃ f : State → State, (∀ s, exec (commandStep seq code args) s = .next (s.onCommand f)) ∧
      ∀ u, f u = u.replyMalformed seq code := by
  rcases knownCode_cases known with
    rfl | rfl | rfl | rfl | rfl | rfl | rfl | rfl | rfl | rfl | rfl | rfl | rfl | rfl | rfl | rfl | rfl | rfl | rfl
  · obtain ⟨a, rest, rfl⟩ := malformed_of_some h
    exact ⟨_, fun _ => rfl, fun _ => rfl⟩
  · exact ⟨_, fun _ => rfl, fun u => takeRead_malformed u seq h⟩
  · exact ⟨_, fun _ => rfl, fun u => takeWrite_malformed u seq h⟩
  · obtain ⟨a, rest, rfl⟩ := malformed_of_some h
    exact ⟨_, fun _ => rfl, fun _ => rfl⟩
  · obtain ⟨a, rest, rfl⟩ := malformed_of_some h
    exact ⟨_, fun _ => rfl, fun _ => rfl⟩
  · obtain ⟨a, rest, rfl⟩ := malformed_of_some h
    exact ⟨_, fun _ => rfl, fun _ => rfl⟩
  · obtain ⟨a, rest, rfl⟩ := malformed_of_some h
    exact ⟨_, fun _ => rfl, fun _ => rfl⟩
  · obtain ⟨a, rest, rfl⟩ := malformed_of_some h
    exact ⟨_, fun _ => rfl, fun _ => rfl⟩
  · obtain ⟨a, rest, rfl⟩ := malformed_of_some h
    exact ⟨_, fun _ => rfl, fun _ => rfl⟩
  · exact ⟨_, fun _ => rfl, fun u => takeSetRate_malformed u seq h⟩
  · exact ⟨_, fun _ => rfl, fun u => takeAck_malformed u seq h⟩
  · obtain ⟨a, rest, rfl⟩ := malformed_of_some h
    exact ⟨_, fun _ => rfl, fun _ => rfl⟩
  · exact ⟨_, fun _ => rfl, fun u => takeMask_malformed u seq h⟩
  · exact ⟨_, fun _ => rfl, fun u => takeFeedStart_malformed u seq h⟩
  · exact ⟨_, fun _ => rfl, fun u => takeFeedStop_malformed u seq h⟩
  · exact ⟨_, fun _ => rfl, fun u => takePlace_malformed u seq h⟩
  · exact ⟨_, fun _ => rfl, fun u => takeRelay_malformed u seq h⟩
  · exact ⟨_, fun _ => rfl, fun u => takeSetUser_malformed u seq h⟩
  · obtain ⟨a, rest, rfl⟩ := malformed_of_some h
    exact ⟨_, fun _ => rfl, fun _ => rfl⟩

/-- Settles O16: a malformed command is answered so whatever its code, and UNKNOWN_COMMAND is answered UNKNOWN. -/
theorem rejectedCommandsChangeNothing : Obligations.RejectedCommandsChangeNothing := by
  refine ⟨fun s seq code args running known malformed => ?_, fun s seq code args running => ?_⟩
  · obtain ⟨f, taken, rejected⟩ := commandStep_malformed (seq := seq) known malformed
    exact answers_reply running (taken s) (rejected _)
  · exact answers_reply (f := fun u => u.takeUnknown seq code) running rfl rfl

/-! ## The reply queue (O17, R179) -/

theorem countLoss_of_no_overflow {q : List ReplyRecord} (h : q.any ReplyRecord.isOverflow = false) :
    q.map ReplyRecord.countLoss = q := by
  induction q with
  | nil => rfl
  | cons r q ih =>
    obtain ⟨head, tail⟩ := Bool.or_eq_false_iff.1 h
    rw [List.map_cons, ih tail]
    cases r with
    | overflow lost => exact nomatch head
    | _ => rfl

/-- Settles O17: the three branches of a record's arrival. -/
theorem repliesJoinTheQueue : Obligations.RepliesJoinTheQueue := by
  refine ⟨fun q r clear short => enqueueReply_joins q r clear short,
    fun q r clear full => enqueueReply_overflows q r clear full.ge, fun q r lost clear => ?_⟩
  have overflow : (q ++ [ReplyRecord.overflow lost]).any ReplyRecord.isOverflow = true :=
    List.any_eq_true.2 ⟨.overflow lost, by simp, rfl⟩
  rw [enqueueReply_counts _ r overflow, List.map_append, countLoss_of_no_overflow clear]
  rfl

/-! ## STATUS, SET RATE, SET USER (O18, O27) -/

/-- Every code is the place of its value among its values. -/
theorem codesInOrder : CodesInOrder := by
  refine ⟨?_, ?_, ?_, ?_, ?_, ?_, ?_, ?_, ?_, ?_, ?_, ?_, ?_, ?_, ?_, ?_, ?_, ?_, by decide, rfl, rfl, ?_, ?_⟩ <;>
    intro x <;> cases x <;> rfl

/-- Settles O18: STATUS is answered with its items and changes nothing else. -/
theorem statusReply : Obligations.StatusReply := by
  intro s seq running u
  have fields : u.statusBytes = [u.mode.code, u.command.startCause.code] ++
      u32 (match u.level.latest with
        | some r => r.cycleNumber
        | none => 0) ++ u32 u.pourClock ++
      [if u.command.commitPending then 1 else 0, u8 u.command.staged.length, (u.channel .a).state.code,
        (u.channel .b).state.code] := by
    unfold State.statusBytes
    cases u.level.latest <;> rfl
  obtain ⟨t, taken, frame, console⟩ := answers_reply (i := .status seq []) (f := fun u => u.takeStatus seq []) running rfl rfl
  exact ⟨t, taken, frame, console.trans (congrArg (fun bs => u.answered (.reply seq 0x01 .ok [.bytes bs])) fields),
    codesInOrder⟩

/-- Settles O27: SET RATE clamps the rate (R49), SET USER takes its eight bytes as four words. -/
theorem setRateAndSetUser : Obligations.SetRateAndSetUser := by
  refine ⟨?_, ?_⟩
  · intro s seq rate running small u v
    have spelled : natOfBytes (u16 rate) = rate := natOfBytes_u16 rate (by omega)
    have written : (u.writeRate rate).params.rateReq = v := table_read_write_same _ _ _
    have taken : u.takeSetRate seq (u16 rate) = (u.writeRate rate).replyOk seq 0x0A (u16 v) := by
      show (u.writeRate (natOfBytes (u16 rate))).replyOk seq 0x0A (u16 (u.writeRate (natOfBytes (u16 rate))).params.rateReq) = _
      rw [spelled, written]
    refine ⟨_, (exec_command running (fun u => u.takeSetRate seq (u16 rate)) rfl).trans (congrArg _ taken), rfl, written,
      fun i ne => ?_, rfl⟩
    exact table_read_write_other _ _ _ _ ne
  · intro s seq a b c d e f g h running u
    refine ⟨_, exec_command running (fun u => u.takeSetUser seq [a, b, c, d, e, f, g, h]) rfl, rfl, ?_, rfl⟩
    simp [State.takeSetUser, natOfBytes, State.reply, State.addReply, u]

/-! ## POLL CONDITION and MASK (O29) -/

/-- The top condition is the only one that is lowest among those shown. -/
theorem topCondition_eq {s : State} {top : Option Cond} (h : s.TopIs top) : s.topCondition = top := by
  cases top with
  | some c => exact (topCondition_is s c).2 ((h c).1 rfl)
  | none =>
    refine Option.eq_none_iff_forall_not_mem.2 fun c top => ?_
    exact nomatch (h c).2 ((topCondition_is s c).1 top)

theorem not_shows_iff {s : State} {c : Cond} : ¬ s.Shows c ↔ (s.condition c).state = .idle ∨ s.isMasked c = true := by
  unfold State.Shows
  rw [not_and_or, not_not, Bool.not_eq_false]

theorem optIndex_eq (top : Option Cond) : optIndex (top.map Cond.num) = (match top with
    | some c => u8 c.num.val
    | none => 255) := by
  cases top <;> rfl

theorem topIs_withConsole {s : State} {top : Option Cond} (x : Console) (h : s.TopIs top) : (s.withConsole x).TopIs top := h

/-- MASK replaces the whole mask and answers with the top condition that it leaves. -/
theorem takeMask_spec (u : State) (seq : Byte) {b2 b1 b0 : Byte} (small : b2.toNat ≤ 3) :
    let t := u.takeMask seq [b2, b1, b0]
    t = (u.withConditions t.conditions).withConsole t.console ∧ t.conditions.records = u.conditions.records ∧
      (∀ c : Cond, t.isMasked c = (b2.toNat * 65536 + b1.toNat * 256 + b0.toNat).testBit c.num.val) ∧
      ∃ top, t.TopIs top ∧ t.console = u.answered (.reply seq 0x0D .ok [.bytes [match top with
           | some c => u8 c.num.val
           | none => 255]]) := by
  have spelled : natOfBytes [b2, b1, b0] = b2.toNat * 65536 + b1.toNat * 256 + b0.toNat := by
    simp only [natOfBytes, List.foldl_cons, List.foldl_nil]
    omega
  have within : natOfBytes [b2, b1, b0] < 262144 := by
    rw [spelled]
    omega
  have taken : u.takeMask seq [b2, b1, b0] =
      let t := u.withConditions { u.conditions with masked := maskOf (natOfBytes [b2, b1, b0]) }
      t.replyOk seq 0x0D [optIndex (t.topCondition.map Cond.num)] := if_pos within
  rw [taken, spelled]
  generalize b2.toNat * 65536 + b1.toNat * 256 + b0.toNat = set
  have bits (c : Cond) : (maskOf set).read c.num = set.testBit c.num.val := table_read_tabulate _ _
  generalize maskOf set = masked at bits
  have top := topCondition_is (u.withConditions { u.conditions with masked := masked })
  refine ⟨rfl, rfl, bits, _, topIs_withConsole _ top, ?_⟩
  exact congrArg (fun b => u.answered (.reply seq 0x0D .ok [.bytes [b]])) (optIndex_eq _)

/-- Settles O29: POLL CONDITION answers with the top condition's record, MASK replaces the mask bit by bit. -/
theorem pollAndMask : Obligations.PollAndMask := by
  refine ⟨?_, ?_⟩
  · intro s seq running u
    have taken (bytes : List Byte) (h : u.pollBytes = bytes) : exec (.pollCondition seq []) s =
        .next (u.withConsole (u.answered (.reply seq 0x0C .ok [.bytes bytes]))) := by
      rw [← h]
      exact exec_command running (fun u => u.takePoll seq []) rfl
    refine ⟨fun c left unmasked lower => taken _ ?_, fun none => taken _ ?_⟩
    · have top : u.topCondition = some c :=
        (topCondition_is u c).2 ⟨⟨left, unmasked⟩, fun d below => not_shows_iff.2 (lower d below)⟩
      unfold State.pollBytes
      rw [top]
    · have top : u.topCondition = Option.none :=
        topCondition_eq fun c => ⟨nofun, fun shown => absurd shown.1 (not_shows_iff.2 (none c))⟩
      unfold State.pollBytes
      rw [top]
  · intro s seq b2 b1 b0 running small u
    exact ⟨_, exec_command running (fun u => u.takeMask seq [b2, b1, b0]) rfl, takeMask_spec u seq small⟩

end Sys2Proof.Proofs
end


section
/-! PROOFS. The mode commands and ACK (O23, O24, O25, O26, O28). -/

namespace Sys2Proof.Proofs

open Sys2Proof Sys2Proof.Machine Sys2Proof.Laws

variable {u : State}

/-! ## STOP (O25, R114) -/

theorem changeMode_transit_kept {m : RiseMode} (h : u.mode = m) : (u.changeMode m).transit = u.transit := by
  rw [← h, changeMode_same]

/-- Settles O25: STOP is a change to IDLE. -/
theorem stopEntersIdle : Obligations.StopEntersIdle := by
  intro s seq running u
  have taken : exec (.stop seq []) s = .next (u.takeStop seq []) := exec_command running (fun u => u.takeStop seq []) rfl
  clear_value u
  refine ⟨(u.changeMode .idle).reply seq 0x07 .ok [], taken, ?_, ?_, ?_, ?_⟩
  · rw [changeMode_frame]
    rfl
  · exact changeMode_transit_kept
  · exact changeMode_handed
  · rw [changeMode_frame]
    rfl

/-! ## HOLD and RELEASE (O26, R115, R116) -/

theorem takeHold_spec (u : State) (seq : Byte) :
    let t := u.takeHold seq []
    t = (((u.withConditions t.conditions).withMode t.mode).withTransit t.transit).withConsole t.console ∧
      t.console = u.answered (.reply seq 0x08 .ok []) := by
  have taken : u.takeHold seq [] = (u.evaluate .manualHold true none).reply seq 0x08 .ok [] := rfl
  rw [taken, evaluate_frame]
  exact ⟨rfl, rfl⟩

theorem releaseManual_condition (u : State) : u.releaseManual.condition .manualHold =
    { u.condition .manualHold with state := .idle, source := false } := by
  unfold State.condition
  rw [releaseManual_conditions]
  exact setCondition_same _ _ _

theorem releaseManual_other (u : State) {c : Cond} (h : c ≠ .manualHold) : u.releaseManual.condition c = u.condition c := by
  unfold State.condition
  rw [releaseManual_conditions]
  exact setCondition_other _ _ h

theorem releaseManual_masked (u : State) : u.releaseManual.conditions.masked = u.conditions.masked := by
  rw [releaseManual_conditions]
  rfl

/-- RELEASE ends a hold where MANUAL_HOLD was the last to hold it. -/
theorem releaseManual_cases (u : State) :
    let t := u.releaseManual
    let ends := (u.condition .manualHold).state ≠ .idle ∧ HoldEnds u .manualHold
    (ends → t.mode = u.resumeMode ∧
      t.transit = u.transit.handed { old := .hold, new := u.resumeMode, moment := u.now }) ∧
    (¬ ends → t.mode = u.mode ∧ t.transit = u.transit) := by
  dsimp only
  unfold State.releaseManual
  dsimp only
  split
  · next idle => exact ⟨fun h => absurd idle h.1, fun _ => ⟨rfl, rfl⟩⟩
  · next left =>
    obtain ⟨ends, stays⟩ := conditionReturned_cases (s := u) (c := .manualHold)
      (r := { u.condition .manualHold with state := .idle, source := false }) rfl
    exact ⟨fun h => ends h.2, fun h => stays fun x => h ⟨left, x⟩⟩

/-- Settles O26: HOLD is an evaluation of MANUAL_HOLD's source, RELEASE sets its record to IDLE. -/
theorem holdAndRelease : Obligations.HoldAndRelease := by
  refine ⟨?_, ?_⟩
  · intro s seq running u
    have taken : exec (.hold seq []) s = .next (u.takeHold seq []) := exec_command running (fun u => u.takeHold seq []) rfl
    clear_value u
    obtain ⟨frame, console⟩ := takeHold_spec u seq
    refine ⟨_, taken, frame, console, fun active => ?_, fun inactive => ?_⟩
    · have same : u.takeHold seq [] = u.reply seq 0x08 .ok [] :=
        congrArg (fun t : State => t.reply seq 0x08 .ok []) (evaluate_same u .manualHold true none active)
      rw [same]
      exact ⟨rfl, rfl, rfl⟩
    · have raised : u.takeHold seq [] = (u.raise .manualHold none).reply seq 0x08 .ok [] :=
        congrArg (fun t : State => t.reply seq 0x08 .ok []) (evaluate_raises u .manualHold none inactive)
      rw [raised]
      obtain ⟨-, holds, stays⟩ := raise_cases u .manualHold none
      refine ⟨?_, fun c ne => raise_other u none ne, raise_masked u .manualHold none, fun h => ?_, fun h => ?_⟩
      · exact (raise_same u .manualHold none).trans (raised_eq _ _ _)
      · exact holds ⟨h.1, rfl, h.2⟩
      · exact stays (fun x => nomatch x.2.1) fun x => h ⟨x.1, x.2.2⟩
  · intro s seq running u
    have taken : exec (.release seq []) s = .next (u.takeRelease seq []) :=
      exec_command running (fun u => u.takeRelease seq []) rfl
    clear_value u
    obtain ⟨ends, stays⟩ := releaseManual_cases u
    refine ⟨u.releaseManual.reply seq 0x09 .ok [], taken, ?_, ?_,
      releaseManual_condition u, fun c ne => releaseManual_other u ne, releaseManual_masked u, fun left hold others => ?_,
      fun h => stays ?_⟩
    · rw [releaseManual_frame]
      rfl
    · rw [releaseManual_frame]
      rfl
    · obtain ⟨mode, handed⟩ := ends ⟨left, rfl, hold, fun d ne cls => others d cls ne⟩
      exact ⟨mode, handed.trans (by rw [← mode]; rfl)⟩
    · rintro ⟨left, -, hold, others⟩
      rcases h with idle | mode | ⟨c, cls, ne, notIdle⟩
      · exact left idle
      · exact mode hold
      · exact notIdle (others c ne cls)

/-! ## ACK (O28, R132) -/

theorem acknowledge_condition (u : State) (c : Cond) : (u.acknowledge c).condition c =
    { u.condition c with state := (u.condition c).state.acknowledged } := by
  unfold State.condition
  rw [acknowledge_conditions]
  exact setCondition_same _ _ _

theorem acknowledge_other (u : State) {c d : Cond} (h : d ≠ c) : (u.acknowledge c).condition d = u.condition d := by
  unfold State.condition
  rw [acknowledge_conditions]
  exact setCondition_other _ _ h

theorem acknowledge_masked (u : State) (c : Cond) : (u.acknowledge c).conditions.masked = u.conditions.masked := by
  rw [acknowledge_conditions]
  rfl

/-- ACK ends a hold where the condition was UNCLEARED and the last to hold it. -/
theorem acknowledge_cases (u : State) (c : Cond) :
    let t := u.acknowledge c
    let ends := (u.condition c).state = .uncleared ∧ HoldEnds u c
    (ends → t.mode = u.resumeMode ∧
      t.transit = u.transit.handed { old := .hold, new := u.resumeMode, moment := u.now }) ∧
    (¬ ends → t.mode = u.mode ∧ t.transit = u.transit) := by
  dsimp only
  unfold State.acknowledge
  dsimp only
  split
  · next uncleared =>
    obtain ⟨ends, stays⟩ := conditionReturned_cases (s := u) (c := c)
      (r := { u.condition c with state := (u.condition c).state.acknowledged }) (by rw [uncleared]; rfl)
    exact ⟨fun h => ends h.2, fun h => stays fun x => h ⟨uncleared, x⟩⟩
  · next other => exact ⟨fun h => absurd h.1 other, fun _ => ⟨rfl, rfl⟩⟩

theorem ofNum_u8 (c : Cond) : Cond.ofNum (u8 c.num.val).toNat = some c := by
  rw [toNat_u8 _ (by have := c.num.isLt; omega), ofNum_num]

theorem takeAck_of_idle (u : State) (seq : Byte) {c : Cond} (h : (u.condition c).state = .idle) :
    u.takeAck seq [u8 c.num.val] = u.reply seq 0x0B .noSuch [.bytes [u8 c.num.val, u8 (u.condition c).count]] := by
  unfold State.takeAck
  dsimp only
  rw [ofNum_u8]
  exact if_pos ((quiet_iff u c).2 h)

theorem takeAck_of_left (u : State) (seq : Byte) {c : Cond} (h : (u.condition c).state ≠ .idle) :
    u.takeAck seq [u8 c.num.val] = (u.acknowledge c).reply seq 0x0B .ok
      [.bytes [u8 c.num.val, ((u.acknowledge c).condition c).state.code, u8 (u.condition c).count]] := by
  have count : ((u.acknowledge c).condition c).count = (u.condition c).count := by rw [acknowledge_condition]
  unfold State.takeAck
  dsimp only
  rw [ofNum_u8, ← count]
  exact if_neg fun q => h ((quiet_iff u c).1 q)

/-- Settles O28: ACK by the state of the condition, and the hold it may end. -/
theorem ackAcknowledges : Obligations.AckAcknowledges := by
  intro s seq c running u
  have taken : exec (.ack seq [u8 c.num.val]) s = .next (u.takeAck seq [u8 c.num.val]) :=
    exec_command running (fun u => u.takeAck seq [u8 c.num.val]) rfl
  clear_value u
  intro r others
  by_cases idle : r.state = .idle
  · rw [takeAck_of_idle _ seq idle] at taken
    exact ⟨_, taken, rfl, fun _ => ⟨rfl, rfl, rfl, rfl⟩, fun left => absurd idle left⟩
  · rw [takeAck_of_left _ seq idle] at taken
    obtain ⟨ends, stays⟩ := acknowledge_cases u c
    refine ⟨(u.acknowledge c).reply seq 0x0B .ok
      [.bytes [u8 c.num.val, ((u.acknowledge c).condition c).state.code, u8 (u.condition c).count]], taken, ?_,
      fun h => absurd h idle, fun _ => ⟨acknowledge_condition u c, fun d ne => acknowledge_other u ne, acknowledge_masked u c,
      fun h => stays ?_, fun hold cls uncleared h => ?_, fun hold cls uncleared h => ?_, ?_⟩⟩
    · rw [acknowledge_frame]
      rfl
    · rintro ⟨uncleared, cls, mode, -⟩
      rcases h with h | h | h
      · exact h mode
      · exact h cls
      · exact h uncleared
    · obtain ⟨mode, handed⟩ := stays fun x => h x.2.2.2
      exact ⟨mode.trans hold, handed⟩
    · obtain ⟨mode, handed⟩ := ends ⟨uncleared, cls, hold, h⟩
      exact ⟨mode, handed.trans (by rw [← mode]; rfl)⟩
    · rw [acknowledge_frame]
      rfl

/-! ## START (O23, O24, R113) -/

/-- A sweep is due at once where none runs, with the change of mode on its way to the due time of no further effect (R17). -/
theorem dueAtOnce_eq (t : State) : t.dueAtOnce =
    (t.withSweep { t.sweep with dueAt := if t.sweep.running then t.sweep.dueAt else t.now }).withTransit
      { t.transit with sweepModes := if t.sweep.running then t.transit.sweepModes else [] } := by
  unfold State.dueAtOnce
  split <;> rfl

/-- The deck and the staged edits let START change the mode (R113). -/
theorem startBlocked_iff (u : State) : u.startBlocked = true ↔ u.command.commitPending = true ∧
    ∃ (i : Slot) (e : NodeEntry), .node i e ∈ u.command.staged ∧ (u.node i).enabled = true ∧ (u.node i).kind = .jack ∧
      ¬ (e.kind = .jack ∧ e.address = (u.node i).address) := by
  have changes (i : Slot) (x : Edit) : u.changesJack i x = true ↔ ∃ e, x = .node i e ∧ (u.node i).enabled = true ∧
      (u.node i).kind = .jack ∧ ¬ (e.kind = .jack ∧ e.address = (u.node i).address) := by
    cases x with
    | node j e =>
      simp only [State.changesJack, State.isJack, Bool.and_eq_true, Bool.or_eq_true, decide_eq_true_eq, Edit.node.injEq]
      constructor
      · rintro ⟨⟨rfl, enabled, jack⟩, other⟩
        refine ⟨e, ⟨rfl, rfl⟩, enabled, jack, fun same => ?_⟩
        rw [jack] at other
        exact other.elim (absurd same.1) (absurd same.2)
      · rintro ⟨_, ⟨rfl, rfl⟩, enabled, jack, other⟩
        refine ⟨⟨rfl, enabled, jack⟩, ?_⟩
        rw [jack]
        exact not_and_or.1 other
    | _ => exact ⟨nofun, fun ⟨e, same, _⟩ => nomatch same⟩
  unfold State.startBlocked
  simp only [Bool.and_eq_true, List.any_eq_true, changes]
  refine and_congr_right fun _ => ⟨?_, ?_⟩
  · rintro ⟨i, -, _, staged, e, rfl, rest⟩
    exact ⟨i, e, staged, rest⟩
  · rintro ⟨i, e, staged, rest⟩
    exact ⟨i, List.mem_finRange i, _, staged, e, rfl, rest⟩

theorem deckReady_iff (u : State) : u.deckReady = true ↔ u.params.minJacks ≤ allSlots.countP u.isJack ∧
    ∃ k, (u.segment k).enabled = true := by
  simp [State.deckReady, allSegments]

/-- START in IDLE with its tests passed. -/
theorem startOutcome_of_ready (idle : u.mode = .idle) (halt : u.haltQuiet = true) (deck : u.deckReady = true)
    (free : u.startBlocked = false) : u.startOutcome = (.ok, some (if u.holdQuiet then .climb else .hold)) := by
  unfold State.startOutcome
  rw [idle]
  simp only [halt, deck, free, Bool.not_true, Bool.or_self, Bool.false_eq_true, if_false]
  split <;> rfl

/-- START in IDLE with a test failed. -/
theorem startOutcome_of_not_ready (idle : u.mode = .idle)
    (h : u.haltQuiet = false ∨ u.deckReady = false ∨ u.startBlocked = true) : u.startOutcome = (.notReady, none) := by
  have failed : (!u.haltQuiet || !u.deckReady || u.startBlocked) = true := by
    rcases h with h | h | h <;> simp [h]
  unfold State.startOutcome
  rw [idle]
  exact if_pos failed

/-- Settles O23: START in IDLE with its tests passed enters CLIMB or HOLD (R113, R17). -/
theorem startEntersClimbOrHold : Obligations.StartEntersClimbOrHold := by
  intro s seq running u
  have start : exec (.start seq []) s = .next (u.takeStart seq []) := exec_command running (fun u => u.takeStart seq []) rfl
  clear_value u
  intro idle halt jacks segment unblocked
  have free : u.startBlocked = false := by
    refine Bool.eq_false_iff.2 fun blocked => ?_
    obtain ⟨pending, i, e, staged, enabled, jack, other⟩ := (startBlocked_iff u).1 blocked
    exact other (unblocked pending i e staged enabled jack)
  have outcome := startOutcome_of_ready idle ((haltQuiet_iff u).2 halt) ((deckReady_iff u).2 ⟨jacks, segment⟩) free
  generalize entered : (if u.holdQuiet = true then RiseMode.climb else RiseMode.hold) = m at outcome
  have left : u.mode ≠ m := by
    rw [idle, ← entered]
    split <;> decide
  have taken : u.takeStart seq [] = (u.changeMode m).dueAtOnce.reply seq 0x06 .ok [] := by
    unfold State.takeStart
    dsimp only
    rw [outcome]
  rw [taken] at start
  have sweep : (u.changeMode m).sweep = u.sweep := by rw [changeMode_frame]; rfl
  have mode : ((u.changeMode m).dueAtOnce.reply seq 0x06 .ok []).mode = m := by
    rw [dueAtOnce_eq]
    exact changeMode_mode u m
  refine ⟨_, start, ?_, fun quiet => ?_, fun ⟨c, cls, notIdle⟩ => ?_, ?_, ?_, ?_⟩
  · rw [dueAtOnce_eq, changeMode_frame]
    rfl
  · exact mode.trans (entered.symm.trans (if_pos ((holdQuiet_iff u).2 quiet)))
  · exact mode.trans (entered.symm.trans (if_neg fun quiet => notIdle ((holdQuiet_iff u).1 quiet c cls)))
  · rw [dueAtOnce_eq, changeMode_frame]
    rfl
  · rw [mode, dueAtOnce_eq]
    show { (u.changeMode m).transit with sweepModes := if (u.changeMode m).sweep.running = true then
      (u.changeMode m).transit.sweepModes else [] } = _
    rw [sweep, changeMode_handed left, idle]
    rfl
  · rw [dueAtOnce_eq, changeMode_frame]
    rfl

/-- Settles O24: START that changes no mode (R113, R17). -/
theorem startWithoutAChange : Obligations.StartWithoutAChange := by
  intro s seq running u
  have start : exec (.start seq []) s = .next (u.takeStart seq []) := exec_command running (fun u => u.takeStart seq []) rfl
  clear_value u
  intro notReady
  have outcome : u.startOutcome = ((match u.mode with
      | .halt => .notNow
      | .idle => .notReady
      | .climb => .ok
      | .trim => .ok
      | .hold => .ok), none) := by
    cases mode : u.mode with
    | idle =>
      refine startOutcome_of_not_ready mode ?_
      rcases notReady mode with ⟨c, cls, notIdle⟩ | few | none | blocked
      · exact .inl (Bool.eq_false_iff.2 fun quiet => notIdle ((haltQuiet_iff u).1 quiet c cls))
      · exact .inr (.inl (Bool.eq_false_iff.2 fun deck => absurd ((deckReady_iff u).1 deck).1 (by omega)))
      · refine .inr (.inl (Bool.eq_false_iff.2 fun deck => ?_))
        obtain ⟨k, enabled⟩ := ((deckReady_iff u).1 deck).2
        exact nomatch (none k).symm.trans enabled
      · exact .inr (.inr ((startBlocked_iff u).2 blocked))
    | _ => unfold State.startOutcome; rw [mode]
  have taken : u.takeStart seq [] = u.dueAtOnce.reply seq 0x06 (match u.mode with
      | .halt => .notNow
      | .idle => .notReady
      | .climb => .ok
      | .trim => .ok
      | .hold => .ok) [] := by
    unfold State.takeStart
    dsimp only
    rw [outcome]
  rw [taken] at start
  refine ⟨_, start, ?_, ?_, ?_, ?_, ?_⟩ <;>
    rw [dueAtOnce_eq] <;> rfl

end Sys2Proof.Proofs
end


section
/-! PROOFS. The feed channels, said once: what an opening, a first test, a load and an open test leave behind, and FEED START and
FEED STOP (O30, O31). -/

namespace Sys2Proof.Proofs

open Sys2Proof Sys2Proof.Machine Sys2Proof.Laws

variable {s t u : State} {c : Channel} {w : WorkingCopy}

/-! ## Contexts -/

theorem setChannel_setChannel (s : State) (c : Channel) (x y : ChannelContext) :
    (s.setChannel c x).setChannel c y = s.setChannel c y := by
  cases c <;> rfl

theorem setChannel_self (s : State) (c : Channel) : s.setChannel c (s.channel c) = s := by cases c <;> rfl

theorem setChannel_feed (s : State) (c : Channel) (x : ChannelContext) : (s.setChannel c x).feed = s.feed.setChannel c x := by
  cases c <;> rfl

theorem setChannel_records (s : State) (c : Channel) (x : ChannelContext) : (s.setChannel c x).records = s.records := by
  cases c <;> rfl

theorem setChannel_walls (s : State) (c : Channel) (x : ChannelContext) : (s.setChannel c x).walls = s.walls := by
  cases c <;> rfl

theorem feed_setChannel_other (f : Feed) (c : Channel) (x : ChannelContext) :
    (f.setChannel c x).channel (otherChannel c) = f.channel (otherChannel c) := by
  cases c <;> rfl

/-- The open test of a channel does not read its own context. -/
theorem blockFor_setChannel (s : State) (c : Channel) (x : ChannelContext) (w : WorkingCopy) :
    (s.setChannel c x).blockFor c w = s.blockFor c w := by
  cases c <;> rfl

/-! ## Openings (R87) -/

theorem takeClaims_wall (s : State) (c : Channel) (w : WorkingCopy) (k : SegmentIx) :
    (s.takeClaims c w).wall k = if k = w.segment then { s.wall k with claim := some c } else s.wall k := by
  have read : (s.takeClaims c w).wall k = if k = w.segment then { s.wall w.segment with claim := some c } else s.wall k :=
    table_read_write _ _ _ _
  rw [read]
  by_cases e : k = w.segment
  · rw [if_pos e, if_pos e, e]
  · rw [if_neg e, if_neg e]

theorem takeClaims_record (s : State) (c : Channel) (w : WorkingCopy) (i : Slot) :
    (s.takeClaims c w).record i = if i = w.outlet then { s.record i with
      pollDue := some ((s.record i).lastExchangeEnd.getD s.now + s.params.outletPollMs) } else s.record i := by
  have read : (s.takeClaims c w).record i = if i = w.outlet then { s.record w.outlet with
      pollDue := some (s.nextPollDue w.outlet) } else s.record i := table_read_write _ _ _ _
  rw [read]
  by_cases e : i = w.outlet
  · rw [if_pos e, if_pos e, e]
    rfl
  · rw [if_neg e, if_neg e]

/-- What an opening changes beside the claims and the outlet's polls. -/
theorem openChannel_feed (s : State) (c : Channel) (w : WorkingCopy) (tag : Nat) (h : tag = (s.feed.tagCounter + 1) % 256) :
    (s.openChannel c w).feed = { ((s.takeClaims c w).feed.setChannel c { s.channel c with
        state := .opened, tag := tag, delivered := 0, openConfirmed := false, closeSent := false, closeCause := none,
        blockReason := .none, blockedSince := none, blockTimer := none }) with
      tagCounter := tag
      waiting := s.feed.waiting ++ [{ isOpen := true, channel := c, slot := w.outlet, tag := tag, litres := w.litres,
                                      stray := false, since := s.now }] } := by
  subst h
  cases c <;> rfl

theorem openChannel_records (s : State) (c : Channel) (w : WorkingCopy) :
    (s.openChannel c w).records = (s.takeClaims c w).records := by
  unfold State.openChannel
  dsimp only
  generalize s.takeClaims c w = u
  cases c <;> rfl

/-- A channel that opens opens as R87 says. -/
theorem openChannel_opens (s : State) (c : Channel) (w : WorkingCopy) : s.Opens c (s.channel c) w (s.openChannel c w) := by
  have feed := openChannel_feed s c w _ rfl
  refine ⟨?_, (openChannel_step s c w).other, ?_, ?_, fun i => ?_, fun k => ?_, fun i => ?_⟩
  · unfold State.channel
    rw [feed]
    cases c <;> rfl
  · rw [feed]
  · rw [feed]
  · rw [(openChannel_claims s c w i 0).1, takeClaims_outletClaim]
  · rw [(openChannel_claims s c w 0 k).2, takeClaims_wall]
  · unfold State.record
    rw [openChannel_records]
    exact takeClaims_record s c w i

/-- The opening of a channel whose context has just been replaced. -/
theorem opens_of_setChannel {x y : ChannelContext} (h : (s.setChannel c y).Opens c x w t) : s.Opens c x w t := by
  obtain ⟨channel, other, tag, waiting, outlets, walls, records⟩ := h
  cases c <;> exact ⟨channel, other, tag, waiting, outlets, walls, records⟩

theorem opens_evaluateJam {x : ChannelContext} (h : s.Opens c x w t) : s.Opens c x w t.evaluateJam := by
  obtain ⟨channel, other, tag, waiting, outlets, walls, records⟩ := h
  refine ⟨?_, ?_, ?_, ?_, fun i => ?_, fun k => ?_, fun i => ?_⟩
  · rw [evaluateJam_channel]
    exact channel
  · rw [evaluateJam_channel]
    exact other
  · rw [evaluateJam_feed]
    exact tag
  · rw [evaluateJam_feed]
    exact waiting
  · unfold State.outletClaim
    rw [evaluateJam_feed]
    exact outlets i
  · unfold State.wall
    rw [evaluateJam_walls]
    exact walls k
  · unfold State.record
    rw [evaluateJam_records]
    exact records i

/-! ## First tests and loads (R85, R86) -/

/-- A context that begins to wait under a reason. -/
def ChannelContext.blocked (x : ChannelContext) (r : BlockReason) (now blockS : Nat) : ChannelContext :=
  { x with blockReason := r, blockedSince := some now, blockTimer := some (now + blockS * 1000) }

theorem firstTest_opened (working : (s.channel c).working = some w) (h : s.blockFor c w = .none) :
    s.firstTest c = s.openChannel c w := by
  unfold State.firstTest
  rw [working]
  dsimp only
  rw [h]

theorem firstTest_recorded (working : (s.channel c).working = some w) (h : s.blockFor c w ≠ .none) :
    s.firstTest c = s.recordBlock c (s.blockFor c w) := by
  unfold State.firstTest
  rw [working]
  dsimp only
  split
  · next e => exact absurd e h
  · rfl

theorem recordBlock_new {r : BlockReason} (h : (s.channel c).blockReason ≠ r) :
    s.recordBlock c r = s.setChannel c (ChannelContext.blocked (s.channel c) r s.now s.params.blockS) := if_neg h

theorem recordBlock_same {r : BlockReason} (h : (s.channel c).blockReason = r) : s.recordBlock c r = s := if_pos h

/-- The first test of a channel that has just been given a context without a block: it opens, or waits under the reason
found. -/
theorem firstTest_setChannel {x : ChannelContext} (working : x.working = some w) (unblocked : x.blockReason = .none) :
    (s.blockFor c w = .none → s.Opens c x w ((s.setChannel c x).firstTest c)) ∧
    (s.blockFor c w ≠ .none → (s.setChannel c x).firstTest c =
      s.setChannel c (ChannelContext.blocked x (s.blockFor c w) s.now s.params.blockS)) := by
  have own := channel_setChannel_same s c x
  have copy : ((s.setChannel c x).channel c).working = some w := by rw [own, working]
  have found := blockFor_setChannel s c x w
  refine ⟨fun h => ?_, fun h => ?_⟩
  · rw [firstTest_opened copy (found.trans h)]
    have opens := openChannel_opens (s.setChannel c x) c w
    rw [own] at opens
    exact opens_of_setChannel opens
  · have first : ((s.setChannel c x).channel c).blockReason ≠ (s.setChannel c x).blockFor c w := by
      rw [own, unblocked, found]
      exact h.symm
    rw [firstTest_recorded copy (by rw [found]; exact h), recordBlock_new first, own, found, setChannel_setChannel]
    rfl

/-- The context of a channel that has loaded a descriptor (R85). -/
def ChannelContext.loaded (x : ChannelContext) (d : DescriptorIx) (e : DescriptorEntry) : ChannelContext :=
  { x with
    state := .wait, current := some d, working := some { segment := e.segment, outlet := e.outlet, litres := e.litres }
    delivered := 0, closeCause := none, closeSent := false, void := false, blockReason := .none, blockedSince := none
    blockTimer := none, dwellEndsAt := none, pause := none }

theorem loadDescriptor_eq (s : State) (c : Channel) (d : DescriptorIx) :
    s.loadDescriptor c d = s.setChannel c (ChannelContext.loaded (s.channel c) d (s.descriptor d)) := rfl

/-- A load opens or waits (R85, R86). -/
theorem loadAndTest_cases {d : DescriptorIx}
    (working : (ChannelContext.loaded (s.channel c) d (s.descriptor d)).working = some w) :
    (s.blockFor c w = .none → s.Opens c (ChannelContext.loaded (s.channel c) d (s.descriptor d)) w (s.loadAndTest c d)) ∧
    (s.blockFor c w ≠ .none → s.loadAndTest c d = s.setChannel c (ChannelContext.blocked
      (ChannelContext.loaded (s.channel c) d (s.descriptor d)) (s.blockFor c w) s.now s.params.blockS)) :=
  firstTest_setChannel working rfl

/-- The context of a channel that takes up its descriptor again (R96). -/
def ChannelContext.resumed (x : ChannelContext) : ChannelContext :=
  { x with state := .wait, pause := none, blockReason := .none, blockedSince := none, blockTimer := none }

theorem resumeWait_cases (working : (s.channel c).working = some w) :
    (s.blockFor c w = .none → s.Opens c (ChannelContext.resumed (s.channel c)) w (s.resumeWait c)) ∧
    (s.blockFor c w ≠ .none → s.resumeWait c = s.setChannel c (ChannelContext.blocked
      (ChannelContext.resumed (s.channel c)) (s.blockFor c w) s.now s.params.blockS)) :=
  firstTest_setChannel (x := ChannelContext.resumed (s.channel c)) working rfl

/-! ## Frames -/

/-- A step for one channel with FEED_JAM evaluated: the frame of a command that replies after it. -/
theorem feedFrame_reply (h : FeedFrame s t) (r : ReplyRecord) : t.withConsole (t.answered r) =
    ((((s.withFeed t.feed).withWalls t.walls).withRecords t.records).withConditions t.conditions).withConsole
      (s.answered r) := by
  unfold FeedFrame at h
  rw [h]
  rfl

theorem channel?_channelCode (c : Channel) : channel? (channelCode c) = some c := by cases c <;> rfl

theorem index?_u8 {n : Nat} (i : Fin n) (h : n ≤ 256) : index? n (u8 i.val) = some i := by
  have same : (u8 i.val).toNat = i.val := toNat_u8 _ (by omega)
  unfold index?
  rw [dif_pos (by rw [same]; exact i.isLt)]
  exact congrArg some (Fin.ext same)

/-! ## FEED START (O30, R100) -/

theorem busy_iff (x : ChannelState) : x.busy = true ↔ x = .wait ∨ x = .opened ∨ x = .closing ∨ x = .paused := by
  cases x <;> decide

theorem takeFeedStart_eq (u : State) (seq : Byte) (c : Channel) (d : DescriptorIx) :
    u.takeFeedStart seq [channelCode c, u8 d.val] =
      if u.mode = .halt then u.refuse seq 0x0E .notNow
      else if (u.channel c).state.busy then u.refuse seq 0x0E .busy
      else if (u.descriptor d).enabled then (u.startChannel c d).reply seq 0x0E .ok []
      else u.refuse seq 0x0E .noSuch := by
  unfold State.takeFeedStart
  dsimp only
  rw [channel?_channelCode, index?_u8 d (by omega)]

theorem startChannel_step (s : State) (c : Channel) (d : DescriptorIx) : ChannelStep c s (s.startChannel c d) :=
  ((setChannel_step s c _).trans (loadAndTest_step _ c d)).trans (evaluateJam_step _ c)

theorem startChannel_source (s : State) (c : Channel) (d : DescriptorIx) :
    ((s.startChannel c d).condition .feedJam).source = ((s.startChannel c d).meetsJam .a || (s.startChannel c d).meetsJam .b) := by
  unfold State.startChannel
  rw [evaluateJam_source, meetsJam_evaluateJam, meetsJam_evaluateJam]

/-- A channel that FEED START starts opens or waits. -/
theorem startChannel_cases {d : DescriptorIx}
    (h : w = { segment := (s.descriptor d).segment, outlet := (s.descriptor d).outlet, litres := (s.descriptor d).litres }) :
    let x := ChannelContext.loaded { s.channel c with deferred := [] } d (s.descriptor d)
    (s.blockFor c w = .none → s.Opens c x w (s.startChannel c d)) ∧
    (s.blockFor c w ≠ .none → s.startChannel c d =
      (s.setChannel c (ChannelContext.blocked x (s.blockFor c w) s.now s.params.blockS)).evaluateJam) := by
  dsimp only
  have own : (s.setChannel c { s.channel c with deferred := [] }).channel c = { s.channel c with deferred := [] } :=
    channel_setChannel_same _ _ _
  have same : (s.setChannel c { s.channel c with deferred := [] }).descriptor d = s.descriptor d := by cases c <;> rfl
  have now : (s.setChannel c { s.channel c with deferred := [] }).now = s.now := by cases c <;> rfl
  have params : (s.setChannel c { s.channel c with deferred := [] }).params = s.params := by cases c <;> rfl
  obtain ⟨opens, waits⟩ := loadAndTest_cases (s := s.setChannel c { s.channel c with deferred := [] }) (c := c) (d := d) (w := w)
    (by rw [same, h]; rfl)
  rw [own, same, blockFor_setChannel] at opens waits
  rw [setChannel_setChannel, now, params] at waits
  unfold State.startChannel
  exact ⟨fun k => opens_evaluateJam (opens_of_setChannel (opens k)), fun k => congrArg _ (waits k)⟩

/-- Settles O30: the refusals in their order, and the load with its open test. -/
theorem feedStartLoads : Obligations.FeedStartLoads := by
  intro s seq c d running u
  have taken : exec (.feedStart seq [channelCode c, u8 d.val]) s = .next (u.takeFeedStart seq [channelCode c, u8 d.val]) :=
    exec_command running (fun u => u.takeFeedStart seq [channelCode c, u8 d.val]) rfl
  clear_value u
  intro cmd e w busy
  rw [takeFeedStart_eq] at taken
  refine ⟨fun halt => ?_, fun going working => ?_, fun going idle disabled => ?_, fun going idle enabled => ?_⟩
  · rw [if_pos halt] at taken
    exact taken
  · rw [if_neg going, if_pos ((busy_iff _).2 working)] at taken
    exact taken
  · rw [if_neg going, if_neg (mt (busy_iff _).1 idle), if_neg (by rw [disabled]; decide)] at taken
    exact taken
  · rw [if_neg going, if_neg (mt (busy_iff _).1 idle), if_pos enabled] at taken
    have step := startChannel_step u c d
    obtain ⟨opens, waits⟩ := startChannel_cases (s := u) (c := c) (d := d) (w := w) rfl
    refine ⟨_, taken, feedFrame_reply step.frame _, step.conditions, step.masked, startChannel_source u c d, step.other,
      fun open_ => ?_, fun block => ?_⟩
    · obtain ⟨channel, other, tag, waiting, outlets, walls, records⟩ := opens open_
      refine ⟨channel, tag, waiting, (outlets _).trans (if_pos rfl), fun i ne => (outlets i).trans (if_neg ne),
        (walls _).trans (if_pos rfl), fun k ne => (walls k).trans (if_neg ne), (records _).trans (if_pos rfl),
        fun i ne => (records i).trans (if_neg ne)⟩
    · have feed : (u.startChannel c d).feed = u.feed.setChannel c (ChannelContext.blocked (ChannelContext.loaded
          { u.channel c with deferred := [] } d (u.descriptor d)) (u.blockFor c w) u.now u.params.blockS) := by
        rw [waits block, evaluateJam_feed, setChannel_feed]
      have channel : (u.startChannel c d).channel c = ChannelContext.blocked (ChannelContext.loaded
          { u.channel c with deferred := [] } d (u.descriptor d)) (u.blockFor c w) u.now u.params.blockS := by
        rw [waits block, evaluateJam_channel, channel_setChannel_same]
      refine ⟨channel, feed.trans (congrArg _ channel.symm), ?_, ?_⟩
      · show (u.startChannel c d).walls = _
        rw [waits block, evaluateJam_walls, setChannel_walls]
      · show (u.startChannel c d).records = _
        rw [waits block, evaluateJam_records, setChannel_records]

/-! ## FEED STOP (O31, R101) -/

/-- What FEED STOP does to the feed, by the state of the channel. -/
theorem stopped_cases (f : Feed) (now : Nat) (cause : CloseCause) (c : Channel) :
    let x := f.channel c
    (∀ w, x.state = .opened → x.working = some w → f.stopped now cause c = { f.setChannel c { x with
        state := .closing, closeCause := some cause, closeSent := x.openConfirmed } with
      waiting := f.waiting ++ (if x.openConfirmed then
        [{ isOpen := false, channel := c, slot := w.outlet, tag := x.tag, litres := 0, stray := false, since := now }]
      else []) }) ∧
    (x.state = .closing → f.stopped now cause c = f.setChannel c { x with closeCause := some cause }) ∧
    (x.state = .wait → f.stopped now cause c = f.setChannel c { x with
      state := .stopped, blockReason := .none, blockedSince := none, blockTimer := none }) ∧
    (x.state = .paused → f.stopped now cause c = f.setChannel c { x with state := .stopped, pause := none }) ∧
    (x.state = .idle ∨ x.state = .done ∨ x.state = .stopped → f.stopped now cause c = f) := by
  unfold Feed.stopped
  refine ⟨fun w state working => ?_, fun state => ?_, fun state => ?_, fun state => ?_, fun state => ?_⟩
  · dsimp only
    rw [state, working]
  · dsimp only
    rw [state]
  · dsimp only
    rw [state]
  · dsimp only
    rw [state]
  · dsimp only
    rcases state with state | state | state <;> rw [state]

/-- Settles O31: FEED STOP by the state of the channel, with FEED_JAM evaluated after it. -/
theorem feedStopStops : Obligations.FeedStopStops := by
  intro s seq c running u
  have taken : exec (.feedStop seq [channelCode c]) s = .next (u.takeFeedStop seq [channelCode c]) :=
    exec_command running (fun u => u.takeFeedStop seq [channelCode c]) rfl
  clear_value u
  intro x
  have stops : u.takeFeedStop seq [channelCode c] = (u.stopChannel c .stop).reply seq 0x0F .ok [] := by
    unfold State.takeFeedStop
    dsimp only
    rw [channel?_channelCode]
  rw [stops] at taken
  have step := stopChannel_step u c .stop
  have jam : ((u.stopChannel c .stop).condition .feedJam).source =
      ((u.stopChannel c .stop).meetsJam .a || (u.stopChannel c .stop).meetsJam .b) := by
    rw [stopChannel_stopped, evaluateJam_source, meetsJam_evaluateJam, meetsJam_evaluateJam]
  have feed : (u.stopChannel c .stop).feed = u.feed.stopped u.now .stop c := by
    rw [stopChannel_stopped, evaluateJam_feed]
    rfl
  obtain ⟨opened, closing, waits, paused, rests⟩ := stopped_cases u.feed u.now .stop c
  refine ⟨_, taken, ?_, step.conditions, step.masked, jam, fun w state working => feed.trans (opened w state working),
    fun state => feed.trans (closing state), fun state => feed.trans (waits state), fun state => feed.trans (paused state),
    fun state => feed.trans (rests state)⟩
  rw [stopChannel_stopped, evaluateJam_frame]
  rfl

end Sys2Proof.Proofs
end


section
/-! PROOFS. Relays and requests on the ring (O33, O34, O37, O38, O39, O40): what the order of service gives. -/

namespace Sys2Proof.Proofs

open Sys2Proof Sys2Proof.Machine Sys2Proof.Laws

variable {s u : State}

/-! ## RELAY (O33, O34, R188) -/

theorem relaySlot_setRelaySlot (s : State) (i j : RelayIx) (x : Option RelaySlot) :
    (s.setRelaySlot i x).relaySlot j = if j = i then x else s.relaySlot j := table_read_write _ _ _ _

/-- The slot that a tag finds is the one that carries it. -/
theorem relayWithTag_eq_some {tag : Nat} {i : RelayIx} {x : RelaySlot} (held : s.relaySlot i = some x) (same : x.tag = tag)
    (only : ∀ j y, s.relaySlot j = some y → y.tag = tag → j = i) : s.relayWithTag tag = some i := by
  refine lowestOf_find _ (fun j => ∃ y, s.relaySlot j = some y ∧ y.tag = tag) (fun j => ?_) (some i)
    ⟨⟨x, held, same⟩, fun j below ⟨y, other, carries⟩ => ?_⟩
  · cases s.relaySlot j <;> simp
  · exact absurd (only j y other carries) (ne_of_lt below)

theorem relayWithTag_eq_none {tag : Nat} (h : ∀ i x, s.relaySlot i = some x → x.tag ≠ tag) : s.relayWithTag tag = none := by
  refine List.find?_eq_none.2 fun i _ => ?_
  cases held : s.relaySlot i with
  | none => simp
  | some x => simpa using h i x held

theorem freeRelay_eq_none (h : ∀ i, s.relaySlot i ≠ none) : s.freeRelay = none :=
  List.find?_eq_none.2 fun i _ => by simpa [Option.isNone_iff_eq_none] using h i

theorem freeRelay_eq_some {i : RelayIx} (free : s.relaySlot i = none) (below : ∀ j, j < i → s.relaySlot j ≠ none) :
    s.freeRelay = some i :=
  lowestOf_find _ (fun j => s.relaySlot j = none) (fun _ => Option.isNone_iff_eq_none) (some i) ⟨free, below⟩

/-- RELAY's arguments name a tag and a slot. -/
theorem takeRelay_eq (u : State) (seq : Byte) {tag : Byte} (target : Slot) {payload : List Byte} (named : tag ≠ 0)
    (short : payload.length ≤ 64) : u.takeRelay seq (tag :: u8 target.val :: payload) =
      match u.relayWithTag tag.toNat with
      | some i =>
        match u.relaySlot i with
        | some x => u.collectRelay seq i x
        | none => u.newRelay seq tag.toNat target payload
      | none => u.newRelay seq tag.toNat target payload := by
  have inRange : ranged? 1 255 tag.toNat = some tag.toNat := by
    have positive : tag.toNat ≠ 0 := fun e => named (BitVec.eq_of_toNat_eq e)
    exact if_pos ⟨by omega, by have := tag.isLt; omega⟩
  unfold State.takeRelay
  dsimp only
  rw [inRange, index?_u8 target (by omega)]
  exact if_pos short

theorem climbing_iff (m : RiseMode) : m.climbing = true ↔ m = .climb ∨ m = .trim := by cases m <;> decide

theorem isJack_iff (s : State) (i : Slot) : s.isJack i = true ↔ (s.node i).enabled = true ∧ (s.node i).kind = .jack := by
  simp [State.isJack]

/-- Settles O33: the refusals of a new relay in their order, and its queueing. -/
theorem relayIsQueued : Obligations.RelayIsQueued := by
  intro s seq tag target payload running named short u
  have taken : exec (.relay seq (tag :: u8 target.val :: payload)) s =
      .next (u.takeRelay seq (tag :: u8 target.val :: payload)) :=
    exec_command running (fun u => u.takeRelay seq (tag :: u8 target.val :: payload)) rfl
  clear_value u
  intro cmd answers barred new
  rw [takeRelay_eq u seq target named short, relayWithTag_eq_none new] at taken
  dsimp only [State.newRelay] at taken
  have bar : (u.isJack target && u.mode.climbing) = true ↔ (u.node target).enabled = true ∧ barred := by
    rw [Bool.and_eq_true, isJack_iff, climbing_iff, and_assoc]
  refine ⟨fun empty => ?_, fun some_ disabled => ?_, fun some_ enabled jack => ?_, fun some_ enabled free full => ?_,
    fun i some_ enabled free empty below => ?_⟩
  · rw [if_pos empty] at taken
    exact taken
  · rw [if_neg some_, if_pos (by rw [disabled]; rfl)] at taken
    exact taken
  · rw [if_neg some_, if_neg (by rw [enabled]; decide), if_pos (bar.2 ⟨enabled, jack⟩)] at taken
    exact taken
  · rw [if_neg some_, if_neg (by rw [enabled]; decide), if_neg fun x => free (bar.1 x).2, freeRelay_eq_none full] at taken
    exact taken
  · rw [if_neg some_, if_neg (by rw [enabled]; decide), if_neg fun x => free (bar.1 x).2, freeRelay_eq_some empty below] at taken
    refine ⟨_, taken, rfl, ?_, fun j ne => ?_, rfl⟩
    · exact (relaySlot_setRelaySlot u i i _).trans (if_pos rfl)
    · exact (relaySlot_setRelaySlot u i j _).trans (if_neg ne)

/-- Settles O34: a relay is collected by the state of its slot. -/
theorem relayIsCollected : Obligations.RelayIsCollected := by
  intro s seq tag target payload i x running named short u
  have taken : exec (.relay seq (tag :: u8 target.val :: payload)) s =
      .next (u.takeRelay seq (tag :: u8 target.val :: payload)) :=
    exec_command running (fun u => u.takeRelay seq (tag :: u8 target.val :: payload)) rfl
  clear_value u
  intro cmd held same only
  rw [takeRelay_eq u seq target named short, relayWithTag_eq_some held same fun j y h k => only j y h (k.trans same.symm)] at taken
  dsimp only at taken
  rw [held] at taken
  dsimp only [State.collectRelay] at taken
  refine ⟨fun state => ?_, fun state => ?_⟩
  · rcases state with state | state <;> rw [state] at taken <;> exact taken
  · have freed (r : ReplyRecord) (t : State) (h : t = (u.setRelaySlot i none).addReply r) :
        t = (u.withRelays t.relays).withConsole (u.answered r) ∧ t.relaySlot i = none ∧
          (∀ j, j ≠ i → t.relaySlot j = u.relaySlot j) ∧ t.relays.discards = u.relays.discards := by
      subst h
      exact ⟨rfl, (relaySlot_setRelaySlot u i i none).trans (if_pos rfl),
        fun j ne => (relaySlot_setRelaySlot u i j none).trans (if_neg ne), rfl⟩
    rcases state with state | state <;> rw [state] at taken <;> refine ⟨_, taken, ?_⟩ <;> rw [state] <;>
      exact freed _ _ rfl

/-! ## The order of service (R20) -/

/-- A grant of a rank: the sweep, the dispatch, the feed, the outlet polls, the relays. -/
def Grant.rank : Grant → Nat
  | .sweepStart => 1
  | .sweepPoll _ => 1
  | .demand _ => 2
  | .go => 2
  | .feed _ => 3
  | .outletPoll _ => 4
  | .relay _ => 5

theorem grantSweep_rank {g : Grant} (h : s.grantSweep = some g) : Grant.rank g = 1 := by
  rcases grantSweep_kind s g h with ⟨rfl, -⟩ | ⟨i, rfl, -⟩ <;> rfl

theorem grantDispatch_rank {g : Grant} (h : s.grantDispatch = some g) : Grant.rank g = 2 := by
  rcases grantDispatch_kind s g h with ⟨e, rfl⟩ | rfl <;> rfl

theorem grantFeed_rank {g : Grant} (h : s.grantFeed = some g) : Grant.rank g = 3 := by
  obtain ⟨x, -, rfl⟩ := Option.map_eq_some_iff.1 h
  rfl

theorem grantPoll_rank {g : Grant} (h : s.grantPoll = some g) : Grant.rank g = 4 := by
  obtain ⟨i, -, rfl⟩ := Option.map_eq_some_iff.1 h
  rfl

theorem grantRelay_rank {g : Grant} (h : s.grantRelay = some g) : Grant.rank g = 5 := by
  obtain ⟨i, -, rfl⟩ := Option.map_eq_some_iff.1 h
  rfl

/-- What the ring gives to rank 1. -/
theorem nextGrant_sweep {g : Grant} (h : s.nextGrant = some g) (r : Grant.rank g = 1) :
    s.ring = none ∧ s.grantSweep = some g := by
  obtain ⟨free, ranks⟩ := nextGrant_ranks s g h
  refine ⟨free, ?_⟩
  rcases ranks with k | ⟨-, k | ⟨-, k | ⟨-, k | ⟨-, k⟩⟩⟩⟩
  · exact k
  · exact absurd (grantDispatch_rank k) (by omega)
  · exact absurd (grantFeed_rank k) (by omega)
  · exact absurd (grantPoll_rank k) (by omega)
  · exact absurd (grantRelay_rank k) (by omega)

/-- What the ring gives to rank 2. -/
theorem nextGrant_dispatch {g : Grant} (h : s.nextGrant = some g) (r : Grant.rank g = 2) :
    s.ring = none ∧ ¬ s.SweepServes ∧ s.grantDispatch = some g := by
  obtain ⟨free, ranks⟩ := nextGrant_ranks s g h
  rcases ranks with k | ⟨sweep, k | ⟨-, k | ⟨-, k | ⟨-, k⟩⟩⟩⟩
  · exact absurd (grantSweep_rank k) (by omega)
  · exact ⟨free, sweep, k⟩
  · exact absurd (grantFeed_rank k) (by omega)
  · exact absurd (grantPoll_rank k) (by omega)
  · exact absurd (grantRelay_rank k) (by omega)

/-- What the ring gives to rank 3. -/
theorem nextGrant_feed {g : Grant} (h : s.nextGrant = some g) (r : Grant.rank g = 3) :
    s.ring = none ∧ ¬ s.SweepServes ∧ ¬ s.DispatchServes ∧ s.grantFeed = some g := by
  obtain ⟨free, ranks⟩ := nextGrant_ranks s g h
  rcases ranks with k | ⟨sweep, k | ⟨dispatch, k | ⟨-, k | ⟨-, k⟩⟩⟩⟩
  · exact absurd (grantSweep_rank k) (by omega)
  · exact absurd (grantDispatch_rank k) (by omega)
  · exact ⟨free, sweep, dispatch, k⟩
  · exact absurd (grantPoll_rank k) (by omega)
  · exact absurd (grantRelay_rank k) (by omega)

/-- What the ring gives to rank 4. -/
theorem nextGrant_poll {g : Grant} (h : s.nextGrant = some g) (r : Grant.rank g = 4) :
    s.ring = none ∧ ¬ s.SweepServes ∧ ¬ s.DispatchServes ∧ s.feed.waiting = [] ∧ s.grantPoll = some g := by
  obtain ⟨free, ranks⟩ := nextGrant_ranks s g h
  rcases ranks with k | ⟨sweep, k | ⟨dispatch, k | ⟨feed, k | ⟨-, k⟩⟩⟩⟩
  · exact absurd (grantSweep_rank k) (by omega)
  · exact absurd (grantDispatch_rank k) (by omega)
  · exact absurd (grantFeed_rank k) (by omega)
  · exact ⟨free, sweep, dispatch, feed, k⟩
  · exact absurd (grantRelay_rank k) (by omega)

/-- What the ring gives to rank 5. -/
theorem nextGrant_relay {g : Grant} (h : s.nextGrant = some g) (r : Grant.rank g = 5) :
    s.ring = none ∧ ¬ s.SweepServes ∧ ¬ s.DispatchServes ∧ s.feed.waiting = [] ∧ ¬ s.PollServes ∧
      s.grantRelay = some g := by
  obtain ⟨free, ranks⟩ := nextGrant_ranks s g h
  rcases ranks with k | ⟨sweep, k | ⟨dispatch, k | ⟨feed, k | ⟨poll, k⟩⟩⟩⟩
  · exact absurd (grantSweep_rank k) (by omega)
  · exact absurd (grantDispatch_rank k) (by omega)
  · exact absurd (grantFeed_rank k) (by omega)
  · exact absurd (grantPoll_rank k) (by omega)
  · exact ⟨free, sweep, dispatch, feed, poll, k⟩

/-! ## Grants taken and not taken -/

/-- A step that takes a grant begins where the order of service gives that grant. -/
theorem exec_grant {i : Instr} {take : Grant → Option (State → State)} {g : Grant} (f : State → State)
    (running : s.running = true) (e : exec i s = .next (s.whenRunning fun t => t.grant take)) (h : s.nextGrant = some g) (k : take g = some f) :
    exec i s = .next (f s) := by
  rw [exec_event running _ e]
  unfold State.grant
  rw [h]
  dsimp only
  rw [k]

/-- Where the order of service gives no grant that it takes, a step changes nothing. -/
theorem exec_no_grant {i : Instr} {take : Grant → Option (State → State)} (running : s.running = true)
    (e : exec i s = .next (s.whenRunning fun t => t.grant take)) (h : ∀ g, s.nextGrant = some g → take g = none) :
    exec i s = .next s := by
  rw [exec_event running _ e]
  unfold State.grant
  cases next : s.nextGrant with
  | none => rfl
  | some g =>
    dsimp only
    rw [h g next]

theorem nextGrant_of_sweep {g : Grant} (free : s.ring = none) (h : s.grantSweep = some g) : s.nextGrant = some g := by
  unfold State.nextGrant
  rw [free, h]
  rfl

theorem nextGrant_of_dispatch {g : Grant} (free : s.ring = none) (sweep : ¬ s.SweepServes) (h : s.grantDispatch = some g) :
    s.nextGrant = some g := by
  have none : s.grantSweep = none := by rw [← Option.not_isSome_iff_eq_none, grantSweep_isSome]; exact sweep
  unfold State.nextGrant
  rw [free, none, h]
  rfl

/-! ## Polls (O37) -/

/-- The indices that pass a test, split at one of them. -/
theorem finRange_filter_split {n : Nat} (p : Fin n → Bool) {i : Fin n} (h : p i = true) :
    ∃ before after, (List.finRange n).filter p = before ++ i :: after ∧ (∀ j ∈ before, p j = true ∧ j < i) ∧
      ∀ j ∈ after, p j = true ∧ i < j := by
  obtain ⟨before, after, split⟩ := List.append_of_mem (List.mem_filter.2 ⟨List.mem_finRange i, h⟩)
  have sorted : (before ++ i :: after).Pairwise (· < ·) := split ▸ (List.pairwise_lt_finRange n).filter p
  have passes (j : Fin n) (mem : j ∈ before ++ i :: after) : p j = true := (List.mem_filter.1 (split ▸ mem)).2
  obtain ⟨-, tail, cross⟩ := List.pairwise_append.1 sorted
  refine ⟨before, after, split, fun j mem => ⟨passes j (by simp [mem]), cross j mem i (by simp)⟩, fun j mem => ⟨passes j (by simp [mem]), ?_⟩⟩
  exact (List.pairwise_cons.1 tail).1 j mem

/-- The first of the indices that pass a test: one whose time is least, the lowest of those. -/
theorem firstBy_least {n : Nat} (p : Fin n → Bool) (time : Fin n → Nat) {i : Fin n} (h : p i = true)
    (least : ∀ j, p j = true → time i < time j ∨ (time i = time j ∧ i ≤ j)) :
    firstBy (fun i j => decide (time i < time j)) ((List.finRange n).filter p) = some i := by
  obtain ⟨before, after, split, above, below⟩ := finRange_filter_split p h
  rw [split]
  refine firstBy_mid _ before after i (fun j mem => decide_eq_true ?_) fun j mem => decide_eq_false ?_
  · obtain ⟨passes, lt⟩ := above j mem
    exact (least j passes).resolve_right fun ⟨_, le⟩ => absurd lt (not_lt.2 le)
  · rcases least j (below j mem).1 with lt | ⟨eq, -⟩ <;> omega

theorem pollIsDue_iff (s : State) (i : Slot) : s.pollIsDue i = true ↔
    (s.node i).enabled = true ∧ ∃ t, (s.record i).pollDue = some t ∧ t ≤ s.now := by
  unfold State.pollIsDue
  cases (s.record i).pollDue <;> simp

theorem grantPoll_eq {i : Slot} {d : Nat} (enabled : (s.node i).enabled = true) (due : (s.record i).pollDue = some d)
    (passed : d ≤ s.now) (least : ∀ (j : Slot) (e : Nat), (s.node j).enabled = true → (s.record j).pollDue = some e →
      e ≤ s.now → d < e ∨ (d = e ∧ i ≤ j)) : s.grantPoll = some (.outletPoll i) := by
  refine congrArg (Option.map Grant.outletPoll) (firstBy_least s.pollIsDue (fun i => (s.record i).pollDue.getD 0)
    ((pollIsDue_iff s i).2 ⟨enabled, d, due, passed⟩) fun j h => ?_)
  obtain ⟨on, e, dueJ, passedJ⟩ := (pollIsDue_iff s j).1 h
  rw [due, dueJ]
  exact least j e on dueJ passedJ

/-- Settles O37: the polls by the order of service. -/
theorem pollsBegin : Obligations.PollsBegin := by
  refine ⟨fun s running => ⟨fun barred => exec_no_grant running rfl fun g next => ?_,
    fun barred => exec_no_grant running rfl fun g next => ?_⟩, fun s i running free sweeps cursor => ?_,
    fun s i d running free sweep dispatch waiting enabled due passed least => ?_⟩
  · cases g with
    | sweepPoll i =>
      obtain ⟨free, grant⟩ := nextGrant_sweep next rfl
      rcases grantSweep_kind s _ grant with ⟨e, -⟩ | ⟨j, -, sweeps, cursor⟩
      · exact nomatch e
      · rcases barred with b | b | b
        · exact absurd free b
        · exact nomatch b.symm.trans sweeps
        · exact nomatch b.symm.trans cursor
    | _ => rfl
  · cases g with
    | outletPoll i =>
      obtain ⟨free, sweep, dispatch, waiting, grant⟩ := nextGrant_poll next rfl
      rcases barred with b | b | b | b | b
      · exact absurd free b
      · exact absurd b sweep
      · exact absurd b dispatch
      · exact absurd waiting b
      · exact absurd ((grantPoll_isSome s).1 (by rw [grant]; rfl)) b
    | _ => rfl
  · have grant : s.grantSweep = some (.sweepPoll i) := by
      unfold State.grantSweep
      rw [sweeps, cursor]
      rfl
    exact exec_grant (fun u => u.beginPoll (.sweepPoll i) i) running rfl (nextGrant_of_sweep free grant) rfl
  · have none : s.grantFeed = none := by
      rw [← Option.not_isSome_iff_eq_none, grantFeed_isSome, waiting]
      exact fun h => h rfl
    have next : s.nextGrant = some (.outletPoll i) := by
      rw [nextGrant_below s free sweep dispatch, none, grantPoll_eq enabled due passed least]
      rfl
    exact exec_grant (fun u => u.beginPoll (.outletPoll i) i) running rfl next rfl

/-! ## The dispatch (O38) -/

theorem dispatchSends_iff (s : State) : s.dispatchSends = true ↔
    (s.mode = .climb ∨ s.mode = .trim) ∧ ∀ m ∈ s.transit.dispatchModes, m.new = .climb ∨ m.new = .trim := by
  rw [← Bool.not_eq_false, dispatchSends_false_iff]
  simp only [not_or, not_exists, not_and_or, Classical.not_not, ne_eq]
  exact and_congr_right fun _ => forall_congr' fun m => (Decidable.imp_iff_not_or).symm

/-- Settles O38: DEMAND and GO by the order of service and the state of the dispatch. -/
theorem dispatchRequestsBegin : Obligations.DispatchRequestsBegin := by
  refine ⟨fun s tag running free sweep mode changes tagged => ⟨fun e mem demanding cursor only => ?_, fun ready => ?_⟩, ?_⟩
  · have entry : s.dispatch.entryOf e.slot = some e := by
      unfold Dispatch.entryOf
      obtain ⟨x, found⟩ := Option.isSome_iff_exists.1 ((entryOf_isSome s.dispatch e.slot).2 ⟨e, mem, rfl⟩)
      have same : x = e := only x (List.mem_of_find?_eq_some found) (by simpa using List.find?_some found)
      exact found.trans (congrArg some same)
    have grant : s.grantDispatch = some (.demand e) := by
      unfold State.grantDispatch
      rw [if_pos ((dispatchSends_iff s).2 ⟨mode, changes⟩), demanding, cursor]
      exact congrArg (Option.map Grant.demand) entry
    have begins : exec .demand s = .next (s.beginDemand e) :=
      exec_grant (fun u => u.beginDemand e) running rfl (nextGrant_of_dispatch free sweep grant) rfl
    rw [begins]
    unfold State.beginDemand
    rw [tagged]
    rfl
  · have grant : s.grantDispatch = some .go := by
      unfold State.grantDispatch
      rw [if_pos ((dispatchSends_iff s).2 ⟨mode, changes⟩), ready]
    have begins : exec .goBroadcast s = .next s.beginGo :=
      exec_grant State.beginGo running rfl (nextGrant_of_dispatch free sweep grant) rfl
    rw [begins]
    unfold State.beginGo
    rw [tagged]
    rfl
  · intro s running barred
    have none {g : Grant} (rank : Grant.rank g = 2) (next : s.nextGrant = some g) : ¬ barred := by
      obtain ⟨free, sweep, grant⟩ := nextGrant_dispatch next rank
      obtain ⟨mode, changes, -⟩ := (grantDispatch_isSome s).1 (by rw [grant]; rfl)
      rintro (b | b | b | ⟨m, mem, climb, trim⟩)
      · exact b free
      · exact sweep b
      · exact mode.elim b.1 b.2
      · exact (changes m mem).elim climb trim
    have state {g : Grant} (rank : Grant.rank g = 2) (next : s.nextGrant = some g) :
        (g = .go → s.dispatch.state = .goReady) ∧ (∀ e, g = .demand e → s.dispatch.state = .demanding) := by
      obtain ⟨-, -, grant⟩ := nextGrant_dispatch next rank
      unfold State.grantDispatch at grant
      split at grant
      · split at grant
        · next demanding =>
          obtain ⟨e, -, rfl⟩ := Option.map_eq_some_iff.1 grant
          exact ⟨nofun, fun _ _ => demanding⟩
        · next ready =>
          obtain rfl := Option.some.inj grant
          exact ⟨fun _ => ready, nofun⟩
        · exact nomatch grant
        · exact nomatch grant
      · exact nomatch grant
    refine ⟨fun h => exec_no_grant running rfl fun g next => ?_, fun h => exec_no_grant running rfl fun g next => ?_⟩
    · cases g with
      | demand e => exact (h.elim (none rfl next) fun x => x ((state rfl next).2 e rfl)).elim
      | _ => rfl
    · cases g with
      | go => exact (h.elim (none rfl next) fun x => x ((state rfl next).1 rfl)).elim
      | _ => rfl

/-! ## OPEN, CLOSE and RELAY exchanges (O39) -/

theorem before_iff (x y : FeedExchange) : x.before y = true ↔
    x.since < y.since ∨ (x.since = y.since ∧ x.channel = .a ∧ y.channel = .b) := by
  simp [FeedExchange.before, and_assoc]

/-- The exchange that waits longest, channel A's of two equal ones, is the one served. -/
theorem grantFeed_eq {before after : List FeedExchange} {x : FeedExchange} (waiting : s.feed.waiting = before ++ x :: after)
    (h : ∀ y ∈ before, x.since < y.since ∨ (x.since = y.since ∧ x.channel = .a ∧ y.channel = .b))
    (k : ∀ y ∈ after, x.since < y.since ∨ (x.since = y.since ∧ (x.channel = .a ∨ y.channel = .b))) :
    s.grantFeed = some (.feed x) := by
  unfold State.grantFeed
  rw [waiting]
  refine congrArg (Option.map Grant.feed) (firstBy_mid _ before after x (fun y mem => (before_iff x y).2 (h y mem)) fun y mem => ?_)
  refine Bool.eq_false_iff.2 fun first => ?_
  rcases (before_iff y x).1 first with lt | ⟨eq, ya, xb⟩
  · rcases k y mem with lt' | ⟨eq, -⟩ <;> omega
  · rcases k y mem with lt | ⟨-, xa | yb⟩
    · omega
    · exact nomatch xa.symm.trans xb
    · exact nomatch ya.symm.trans yb

/-- The exchange served leaves the waiting list from its place. -/
theorem erase_first {before after : List FeedExchange} {x : FeedExchange}
    (h : ∀ y ∈ before, x.since < y.since ∨ (x.since = y.since ∧ x.channel = .a ∧ y.channel = .b)) :
    (before ++ x :: after).erase x = before ++ after := by
  have absent : x ∉ before := fun mem => by
    rcases h x mem with lt | ⟨-, xa, xb⟩
    · omega
    · exact nomatch xa.symm.trans xb
  rw [List.erase_append_right _ absent, List.erase_cons_head]

theorem grantRelay_eq {i : RelayIx} {x : RelaySlot} (held : s.relaySlot i = some x) (serves : s.RelayServes i)
    (least : ∀ j y, s.relaySlot j = some y → s.RelayServes j → x.queuedAt < y.queuedAt ∨ (x.queuedAt = y.queuedAt ∧ i ≤ j)) :
    s.grantRelay = some (.relay i) := by
  refine congrArg (Option.map Grant.relay) (firstBy_least s.relayWaits s.queuedAt ((relayWaits_iff s i).2 serves) fun j h => ?_)
  have servesJ := (relayWaits_iff s j).1 h
  obtain ⟨y, heldJ, -⟩ := servesJ
  unfold State.queuedAt
  rw [held, Option.mem_def.1 heldJ]
  exact least j y heldJ ((relayWaits_iff s j).1 h)

/-- Settles O39: the exchanges of the feed and of the relays by the order of service. -/
theorem feedAndRelayExchangesBegin : Obligations.FeedAndRelayExchangesBegin := by
  refine ⟨?_, ?_, ?_⟩
  · intro s running barred first
    have feed {x : FeedExchange} (next : s.nextGrant = some (.feed x)) : ¬ barred ∧ first x := by
      obtain ⟨free, sweep, dispatch, grant⟩ := nextGrant_feed next rfl
      obtain ⟨y, before, after, same, split⟩ := grantFeed_split s _ grant
      obtain rfl := Grant.feed.inj same
      exact ⟨fun b => b.elim (absurd free) fun b => b.elim sweep dispatch, before, after, split⟩
    refine ⟨fun h => exec_no_grant running rfl fun g next => ?_, fun h => exec_no_grant running rfl fun g next => ?_,
      fun h => exec_no_grant running rfl fun g next => ?_⟩
    · cases g with
      | feed x =>
        obtain ⟨served, front⟩ := feed next
        exact if_neg (by rw [(h.resolve_left served) x front]; decide)
      | _ => rfl
    · cases g with
      | feed x =>
        obtain ⟨served, front⟩ := feed next
        exact if_pos ((h.resolve_left served) x front)
      | _ => rfl
    · cases g with
      | relay i =>
        obtain ⟨free, sweep, dispatch, waiting, poll, grant⟩ := nextGrant_relay next rfl
        obtain ⟨j, serves⟩ := (grantRelay_isSome s).1 (by rw [grant]; rfl)
        rcases h with b | b | b | b
        · exact (b.elim (absurd free) fun b => b.elim sweep dispatch).elim
        · exact absurd waiting b
        · exact absurd b poll
        · exact absurd serves (b j)
      | _ => rfl
  · intro s before after x running free sweep dispatch waiting above below u
    have next : s.nextGrant = some (.feed x) := by
      rw [nextGrant_below s free sweep dispatch, grantFeed_eq waiting above below]
      rfl
    have rest : s.feed.waiting.erase x = before ++ after := by rw [waiting, erase_first above]
    refine ⟨fun opens => ?_, fun closes => ?_⟩
    · have begins : exec .openExchange s = .next (s.beginFeed x) := exec_grant (fun u => u.beginFeed x) running rfl next (if_pos opens)
      rw [begins]
      unfold State.beginFeed
      dsimp only
      rw [rest, if_pos opens]
      rfl
    · have begins : exec .closeExchange s = .next (s.beginFeed x) :=
        exec_grant (fun u => u.beginFeed x) running rfl next (if_neg (by rw [closes]; decide))
      rw [begins]
      unfold State.beginFeed
      dsimp only
      rw [rest, if_neg (by rw [closes]; decide)]
      rfl
  · intro s i x running free sweep dispatch waiting poll held serves least
    have feed : s.grantFeed = none := by
      rw [← Option.not_isSome_iff_eq_none, grantFeed_isSome, waiting]
      exact fun h => h rfl
    have polls : s.grantPoll = none := by
      rw [← Option.not_isSome_iff_eq_none, grantPoll_isSome]
      exact poll
    have next : s.nextGrant = some (.relay i) := by
      rw [nextGrant_below s free sweep dispatch, feed, polls, grantRelay_eq held serves least]
      rfl
    have begins : exec .relayExchange s = .next (s.beginRelay i) := exec_grant (fun u => u.beginRelay i) running rfl next rfl
    rw [begins]
    unfold State.beginRelay
    rw [held]
    rfl

/-! ## The end of a request frame (O40) -/

theorem setExpectations_read (s : State) (i : Slot) : s.setExpectations.expectation i =
    match s.dispatch.entryOf i with
    | some e => some (e.expectation (s.dispatch.tag.getD 0))
    | none => s.expectation i := table_read_tabulate _ _

theorem goSent_eq {x : Exchange} (ring : s.ring = some x) (kind : x.kind = .go) (phase : x.phase = .sending) :
    s.goSent =
      let s' := s.freeRing.withPower { s.power with ringDriver := false }
      if !x.discarded ∧ s'.dispatch.state = .goReady then
        if s'.dispatchSends then
          let t := s'.setExpectations
          t.withDispatch { t.dispatch with state := .window, windowEndsAt := some (t.now + t.params.strokeMs) }
        else s'.withDispatch Dispatch.idle
      else s' := by
  unfold State.goSent
  rw [ring]
  exact if_pos ⟨kind, phase⟩

/-- Settles O40: the end of a request frame opens the reply window, the end of the GO the stroke window. -/
theorem requestFramesLeave : Obligations.RequestFramesLeave := by
  refine ⟨fun s x running ring phase kind => ?_, fun s x running ring phase kind => ?_⟩
  · have sent : s.requestSent = (s.withRing (some { x with
        phase := .window (s.now + s.params.replyWindowMs) })).withPower { s.power with ringDriver := false } := by
      unfold State.requestSent
      rw [ring]
      exact if_pos ⟨phase, kind⟩
    rw [exec_event (i := .requestFrameSent) running State.requestSent rfl, sent]
  · have taken := exec_event (i := .goSent) running State.goSent rfl
    rw [goSent_eq ring kind phase] at taken
    dsimp only at taken
    have sends : (s.freeRing.withPower { s.power with ringDriver := false }).dispatchSends = s.dispatchSends := rfl
    have state : (s.freeRing.withPower { s.power with ringDriver := false }).dispatch = s.dispatch := rfl
    rw [sends, state] at taken
    by_cases stands : (!x.discarded) = true ∧ s.dispatch.state = .goReady
    · rw [if_pos stands] at taken
      have current : x.discarded = false := by simpa using stands.1
      have void (h : x.discarded = true ∨ s.dispatch.state ≠ .goReady) : False :=
        h.elim (fun h => nomatch h.symm.trans current) fun h => h stands.2
      cases go : s.dispatchSends with
      | true =>
        rw [go, if_pos rfl] at taken
        have goes := (dispatchSends_iff s).1 go
        refine ⟨_, taken, rfl, fun h => (void h).elim, ?_⟩
        intro stops
        refine ⟨fun _ _ h => ?_, fun _ _ _ => ⟨rfl, fun e mem only => ?_, fun i none => ?_⟩⟩
        · rcases h with h | ⟨m, mem, climb, trim⟩
          · exact (goes.1.elim h.1 h.2).elim
          · exact ((goes.2 m mem).elim climb trim).elim
        · obtain ⟨y, found⟩ := Option.isSome_iff_exists.1 ((entryOf_isSome s.dispatch e.slot).2 ⟨e, mem, rfl⟩)
          have same : y = e := only y (List.mem_of_find?_eq_some found) (by simpa using List.find?_some found)
          refine (setExpectations_read (s.freeRing.withPower { s.power with ringDriver := false }) e.slot).trans ?_
          rw [state, found, same]
          rfl
        · have absent : s.dispatch.entryOf i = Option.none := by
            rw [← Option.not_isSome_iff_eq_none, entryOf_isSome]
            exact fun ⟨e, mem, same⟩ => none e mem same
          refine (setExpectations_read (s.freeRing.withPower { s.power with ringDriver := false }) i).trans ?_
          rw [state, absent]
          rfl
      | false =>
        rw [go, if_neg nofun] at taken
        refine ⟨_, taken, rfl, fun h => (void h).elim, ?_⟩
        intro stops
        exact ⟨fun _ _ _ => ⟨rfl, rfl⟩, fun _ _ h => absurd ((dispatchSends_false_iff s).1 go) h⟩
    · rw [if_neg stands] at taken
      refine ⟨_, taken, rfl, fun _ => ⟨rfl, rfl⟩, ?_⟩
      intro stops
      exact ⟨fun current ready _ => absurd ⟨by rw [current]; rfl, ready⟩ stands,
        fun current ready _ => absurd ⟨by rw [current]; rfl, ready⟩ stands⟩

end Sys2Proof.Proofs
end


section
/-! PROOFS. Relay replies, plain timers, arrivals of modes and results, and the console line's own steps (O45, O47, O49, O53, O54,
O56, O57). -/

namespace Sys2Proof.Proofs

open Sys2Proof Sys2Proof.Machine Sys2Proof.Laws

variable {s : State}

/-! ## RELAY_BACK (R189) -/

/-- A RELAY_BACK that the open window takes from the relay of its exchange. -/
theorem relayBack_taken {x : Exchange} {i : RelayIx} {target : Slot} {tag : Nat} {address : Byte} {result : List Byte}
    (takes : s.Takes address x) (kind : x.kind = .relay i target tag) (short : result.length ≤ 64) :
    s.relayBack address (u8 tag :: result) =
      if x.discarded then s.freeRing else s.freeRing.endRelay i (some result) := by
  unfold State.relayBack
  rw [(openWindow_iff s address x).2 takes]
  dsimp only
  rw [kind]
  exact if_pos ⟨rfl, short⟩

/-- A RELAY_BACK that no open window takes, or not of the exchange's relay. -/
theorem relayBack_untaken {address : Byte} {payload : List Byte}
    (h : ∀ x i target tag result, s.Takes address x → x.kind = .relay i target tag → payload = u8 tag :: result →
      64 < result.length) : s.relayBack address payload = s := by
  unfold State.relayBack
  cases w : s.openWindow address with
  | none => rfl
  | some x =>
    have takes := (openWindow_iff s address x).1 w
    dsimp only
    split
    · next i target tag t result kind =>
      refine if_neg fun ⟨same, short⟩ => ?_
      exact absurd short (Nat.not_le.2 (h x i target tag result takes kind (by rw [same])))
    · rfl

/-- Settles O45: the window that takes the frame, and every other frame. -/
theorem relayRepliesAndDiscards : Obligations.RelayRepliesAndDiscards := by
  refine ⟨fun s x i target tag ends y address result running ring phase inTime asked live kind short held => ?_,
    fun s address payload running untaken => ?_, fun s x i target tag address result running takes void kind short => ?_,
    fun _ _ => rfl⟩
  · have took := relayBack_taken ⟨ring, ⟨ends, phase, inTime⟩, asked⟩ kind short
    rw [exec_event running (fun t => t.relayBack address (u8 tag :: result)) rfl, took, live]
    unfold State.endRelay
    have same : s.freeRing.relaySlot i = some y := held
    rw [if_neg Bool.false_ne_true, same]
    rfl
  · rw [exec_event running (fun t => t.relayBack address payload) rfl, relayBack_untaken untaken]
  · rw [exec_event running (fun t => t.relayBack address (u8 tag :: result)) rfl, relayBack_taken takes kind short, void]
    rfl

/-! ## Plain timers (R28, R178, R190) -/

theorem evaluatesSilence_iff (m : RiseMode) : m.evaluatesSilence = true ↔ m = .climb ∨ m = .trim ∨ m = .hold := by
  cases m <;> decide

/-- SILENCE_EXPIRY raises only at or after the expiry time, in a mode that evaluates the timer, with the source inactive. -/
theorem silenceExpiry_early (h : s.now < s.console.silence.latestValid + s.params.silenceMs ∨
    s.console.silence.evaluated = false ∨ s.mode = .idle ∨ s.mode = .halt ∨ (s.condition .consoleSilent).source = true) :
    s.silenceExpiry = s := by
  refine if_neg fun ⟨due, evaluated, mode, source⟩ => ?_
  rcases h with h | h | h | h | h
  · exact absurd due (Nat.not_le.2 h)
  · exact absurd (h.symm.trans evaluated) (by decide)
  · rw [h] at mode
    exact absurd mode (by decide)
  · rw [h] at mode
    exact absurd mode (by decide)
  · rw [h] at source
    exact absurd source (by decide)

theorem silenceExpiry_due (due : s.console.silence.latestValid + s.params.silenceMs ≤ s.now)
    (evaluated : s.console.silence.evaluated = true) (mode : s.mode = .climb ∨ s.mode = .trim ∨ s.mode = .hold)
    (off : (s.condition .consoleSilent).source = false) : s.silenceExpiry = s.raise .consoleSilent none := by
  unfold State.silenceExpiry
  rw [if_pos ⟨due, evaluated, (evaluatesSilence_iff _).2 mode, by rw [off]; rfl⟩, evaluate_raises s _ _ off]

/-- Before its time, or in another state, the stroke window stays. -/
theorem strokeWindowExpiry_early (h : s.dispatch.state ≠ .window ∨ ∀ ends ∈ s.dispatch.windowEndsAt, s.now < ends) :
    s.strokeWindowExpiry = s := by
  unfold State.strokeWindowExpiry
  split
  · next t state ends =>
    exact if_neg fun le => h.elim (absurd state) fun early => absurd le (Nat.not_le.2 (early t ends))
  · rfl

theorem relayExpiry_early {i : RelayIx}
    (h : ∀ x done, s.relaySlot i = some x → x.completion = some done → s.now < done + 30000) : s.relayExpiry i = s := by
  unfold State.relayExpiry
  split
  · next x held =>
    split
    · next done completed => exact if_neg (Nat.not_le.2 (h x done held completed))
    · rfl
  · rfl

theorem relayExpiry_due {i : RelayIx} {x : RelaySlot} {done : Nat} (held : s.relaySlot i = some x)
    (completed : x.completion = some done) (due : done + 30000 ≤ s.now) :
    s.relayExpiry i = (s.setRelaySlot i none).withRelays { (s.setRelaySlot i none).relays with
      discards := min 65535 (s.relays.discards + 1) } := by
  unfold State.relayExpiry
  rw [held]
  dsimp only
  rw [completed]
  exact if_pos due

/-- Settles O47: each of the three timers before its time and at or after it. -/
theorem plainTimersExpire : Obligations.PlainTimersExpire := by
  refine ⟨fun s running due evaluated mode off => ?_, fun s running early => ?_, fun s ends running state until_ due => ?_,
    fun s running early => ?_, fun s i running early => ?_, fun s i x done running held completed due => ?_⟩
  · have taken : exec .silenceExpiry s = .next s.silenceExpiry := exec_event running State.silenceExpiry rfl
    rw [silenceExpiry_due due evaluated mode off] at taken
    obtain ⟨-, holds, stays⟩ := raise_cases s .consoleSilent none
    refine ⟨_, taken, raise_frame s _ _, (raise_same s _ _).trans (raised_eq _ _ _), fun c ne => raise_other s _ ne,
      raise_masked s _ _, fun ⟨idle, mode⟩ => holds ⟨idle, rfl, mode⟩, fun not => ?_⟩
    exact stays (fun ⟨_, cls, _⟩ => absurd cls (by decide)) fun ⟨idle, _, mode⟩ => not ⟨idle, mode⟩
  · rw [exec_event running State.silenceExpiry rfl, silenceExpiry_early early]
  · rw [exec_event running State.strokeWindowExpiry rfl]
    unfold State.strokeWindowExpiry
    rw [state, until_]
    exact congrArg _ (if_pos due)
  · rw [exec_event running State.strokeWindowExpiry rfl, strokeWindowExpiry_early early]
  · rw [exec_event running (fun t => t.relayExpiry i) rfl, relayExpiry_early early]
  · have taken : exec (.relayResultExpiry i) s = .next (s.relayExpiry i) :=
      exec_event running (fun t => t.relayExpiry i) rfl
    rw [relayExpiry_due held completed due] at taken
    refine ⟨_, taken, rfl, ?_, fun j ne => ?_, rfl⟩
    · exact (relaySlot_setRelaySlot s i i none).trans (if_pos rfl)
    · exact (relaySlot_setRelaySlot s i j none).trans (if_neg ne)

/-! ## Arrivals at the Stroke Dispatcher and the Rise Mode Controller (R22, R27, R112) -/

theorem abandons_iff (m : ModeChange) : m.abandons = true ↔ m.new ≠ .climb ∧ m.new ≠ .trim := by
  unfold ModeChange.abandons
  cases m.new <;> decide

/-- Settles O49: the dispatch that a result starts or not, and the change of mode that abandons it or not. -/
theorem dispatcherArrivals : Obligations.DispatcherArrivals := by
  refine ⟨?_, ?_⟩
  · intro s r rest running under entries
    have taken : exec .dispatchResultArrival s =
        .next ((s.withTransit { s.transit with dispatchResults := rest }).dispatchResult r) := by
      rw [exec_event running State.dispatchResultArrival rfl]
      unfold State.dispatchResultArrival
      rw [under]
    have list : r.dispatchEntries = entries := rfl
    clear_value entries
    unfold State.dispatchResult at taken
    rw [list] at taken
    refine ⟨fun idle mode e es cons => ?_, fun not => ?_⟩
    · rw [if_pos ⟨idle, (climbing_iff _).2 mode, by rw [cons]; exact List.cons_ne_nil _ _⟩] at taken
      rw [taken, cons]
      rfl
    · refine taken.trans (congrArg _ (if_neg fun ⟨idle, mode, some_⟩ => ?_))
      rcases not with busy | ⟨climb, trim⟩ | none_
      · exact busy idle
      · exact ((climbing_iff _).1 mode).elim climb trim
      · exact some_ none_
  · intro s m rest running under u abandons
    have taken : exec .dispatchModeArrival s = .next (u.dispatchMode m) := by
      rw [exec_event running State.dispatchModeArrival rfl]
      unfold State.dispatchModeArrival
      rw [under]
    refine ⟨fun ⟨leaves, busy⟩ => ?_, fun not => ?_⟩
    · exact taken.trans (congrArg _ (if_pos ⟨(abandons_iff m).2 leaves, busy⟩))
    · exact taken.trans (congrArg _ (if_neg fun ⟨leaves, busy⟩ => not ⟨(abandons_iff m).1 leaves, busy⟩))

/-- Settles O53: the two cases of the mode in force. -/
theorem spreadSwitchTakesEffect : Obligations.SpreadSwitchTakesEffect := by
  intro s x rest running under
  have taken : exec .spreadSwitchArrival s =
      .next ((s.withTransit { s.transit with spreadSwitches := rest }).takeSwitch x) := by
    rw [exec_event running State.spreadSwitchArrival rfl]
    unfold State.spreadSwitchArrival
    rw [under]
  refine ⟨fun left => taken.trans (congrArg _ (if_neg left)), fun mode moves => ?_⟩
  refine taken.trans (congrArg _ ((if_pos mode).trans ?_))
  rw [← mode] at moves ⊢
  exact if_neg moves

/-! ## Arrivals of a change of mode at the other blocks (R16, R50, R118, R178) -/

theorem sweepPeriod_eq (s : State) :
    s.sweepPeriod = if s.mode = .idle ∨ s.mode = .halt then s.params.idleMs else s.params.cycleMs := by
  unfold State.sweepPeriod
  cases s.mode <;> rfl

theorem rateClockAfter_entry {clock : Option Nat} {m : ModeChange} (new : m.new = .climb) (old : m.old = .idle ∨ m.old = .hold) :
    rateClockAfter clock m = some m.moment := by
  unfold rateClockAfter
  rw [new]
  rcases old with old | old <;> rw [old]

theorem rateClockAfter_left {clock : Option Nat} {m : ModeChange} (old : m.old = .climb) (new : m.new ≠ .climb) :
    rateClockAfter clock m = none := by
  unfold rateClockAfter
  rw [old]
  cases h : m.new with
  | climb => exact absurd h new
  | _ => rfl

theorem rateClockAfter_kept {clock : Option Nat} {m : ModeChange}
    (h : m.old = .trim ∧ m.new = .climb ∨ m.old ≠ .climb ∧ m.new ≠ .climb) : rateClockAfter clock m = clock := by
  unfold rateClockAfter
  split
  · next old new => rcases h with ⟨h, -⟩ | ⟨-, h⟩ <;> simp_all
  · next old new => rcases h with ⟨h, -⟩ | ⟨-, h⟩ <;> simp_all
  · rfl
  · next old new => rcases h with ⟨h, -⟩ | ⟨h, -⟩ <;> simp_all
  · rfl

theorem afterMode_entry {x : Silence} {m : ModeChange} (new : m.new.evaluatesSilence = true)
    (old : m.old.evaluatesSilence = false) : x.afterMode m = { latestValid := max x.latestValid m.moment, evaluated := true } := by
  unfold Silence.afterMode
  rw [if_pos new, if_neg (by rw [old]; decide)]

/-- What a failing of queued relays leaves in each slot. -/
theorem relaySlot_failQueued (s : State) (moment : Nat) (test : RelaySlot → Bool) (i : RelayIx) :
    (s.failQueued moment test).relaySlot i =
      (s.relaySlot i).map fun x => if x.state = .queued ∧ test x = true then x.fail moment else x :=
  table_read_tabulate _ _

theorem entersClimb_iff (m : ModeChange) :
    m.entersClimb = true ↔ (m.new = .climb ∨ m.new = .trim) ∧ (m.old = .idle ∨ m.old = .hold) := by
  unfold ModeChange.entersClimb
  rw [Bool.and_eq_true, climbing_iff, Bool.or_eq_true, decide_eq_true_iff, decide_eq_true_iff]

/-- Whether a change of mode fails a relay (R118). -/
def FailsAt (s : State) (m : ModeChange) (x : RelaySlot) : Prop :=
  ((m.new = .climb ∨ m.new = .trim) ∧ (m.old = .idle ∨ m.old = .hold)) ∧ x.state = .queued ∧
    (s.node x.target).enabled = true ∧ (s.node x.target).kind = .jack ∧ x.queuedAt ≤ m.moment

/-- What a change of mode leaves in a relay slot. -/
theorem relaySlot_relayMode (s : State) (m : ModeChange) (i : RelayIx) :
    (∀ x, s.relaySlot i = some x → FailsAt s m x → (s.relayMode m).relaySlot i = some (x.fail m.moment)) ∧
    (∀ x, s.relaySlot i = some x → ¬ FailsAt s m x → (s.relayMode m).relaySlot i = some x) ∧
    (s.relaySlot i = none → (s.relayMode m).relaySlot i = none) := by
  unfold State.relayMode
  by_cases enters : m.entersClimb = true
  · rw [if_pos enters, relaySlot_failQueued]
    have test (x : RelaySlot) : (x.state = .queued ∧ (s.isJack x.target && decide (x.queuedAt ≤ m.moment)) = true) ↔
        FailsAt s m x := by
      rw [Bool.and_eq_true, isJack_iff, decide_eq_true_iff, FailsAt, ← entersClimb_iff, and_assoc]
      exact ⟨fun h => ⟨enters, h⟩, And.right⟩
    refine ⟨fun x held fails => ?_, fun x held stays => ?_, fun empty => by rw [empty]; rfl⟩
    · rw [held]
      exact congrArg some (if_pos ((test x).2 fails))
    · rw [held]
      exact congrArg some (if_neg fun h => stays ((test x).1 h))
  · rw [if_neg enters]
    exact ⟨fun x _ fails => absurd ((entersClimb_iff m).2 fails.1) enters, fun x held _ => held, id⟩

theorem relayMode_frame (s : State) (m : ModeChange) :
    s.relayMode m = s.withRelays (s.relayMode m).relays ∧ (s.relayMode m).relays.discards = s.relays.discards := by
  unfold State.relayMode
  split <;> exact ⟨rfl, rfl⟩

/-- Settles O54: a change of mode at each of the four blocks. -/
theorem modeArrivals : Obligations.ModeArrivals := by
  refine ⟨?_, fun s m rest running under => ?_, ?_, ?_⟩
  · intro s m rest running under u period
    have taken : exec .sweepModeArrival s = .next u.recomputeDue := by
      rw [exec_event running State.sweepModeArrival rfl]
      unfold State.sweepModeArrival
      rw [under]
    refine ⟨fun start started => ?_, fun never => ?_⟩ <;> rw [taken] <;> unfold State.recomputeDue
    · have same : u.sweep.startedAt = some start := started
      rw [same, sweepPeriod_eq]
      rfl
    · have same : u.sweep.startedAt = none := never
      rw [same]
  · have taken : exec .rateClockModeArrival s = .next s.rateClockModeArrival :=
      exec_event running State.rateClockModeArrival rfl
    unfold State.rateClockModeArrival at taken
    rw [under] at taken
    exact ⟨_, taken, rfl, rateClockAfter_entry, fun new old => rateClockAfter_kept (.inl ⟨old, new⟩), rateClockAfter_left,
      fun old new => rateClockAfter_kept (.inr ⟨old, new⟩)⟩
  · intro s m rest running under live
    have taken : exec .silenceModeArrival s = .next s.silenceModeArrival :=
      exec_event running State.silenceModeArrival rfl
    unfold State.silenceModeArrival at taken
    rw [under] at taken
    have silent {x : RiseMode} (h : ¬ live x) : x.evaluatesSilence = false :=
      Bool.eq_false_iff.2 (mt (evaluatesSilence_iff x).1 h)
    refine ⟨_, taken, rfl, fun new old => ?_, fun new old => ?_, fun new => ?_⟩
    · have entry := afterMode_entry (x := s.console.silence) ((evaluatesSilence_iff _).2 new) (silent old)
      refine ⟨congrArg Silence.evaluated entry, fun later => ?_, fun earlier => ?_⟩
      · exact (congrArg Silence.latestValid entry).trans (max_eq_right later)
      · exact (congrArg Silence.latestValid entry).trans (max_eq_left (Nat.le_of_lt earlier))
    · show s.console.silence.afterMode m = _
      unfold Silence.afterMode
      rw [if_pos ((evaluatesSilence_iff _).2 new), if_pos ((evaluatesSilence_iff _).2 old)]
    · have ends : s.console.silence.afterMode m = { s.console.silence with evaluated := false } :=
        if_neg (by rw [silent new]; decide)
      exact ⟨(congrArg Silence.evaluated ends).trans rfl, (congrArg Silence.latestValid ends).trans rfl⟩
  · intro s m rest running under enters
    have taken : exec .relayModeArrival s =
        .next ((s.withTransit { s.transit with relayModes := rest }).relayMode m) := by
      rw [exec_event running State.relayModeArrival rfl]
      unfold State.relayModeArrival
      rw [under]
    obtain ⟨frame, discards⟩ := relayMode_frame (s.withTransit { s.transit with relayModes := rest }) m
    have slots := relaySlot_relayMode (s.withTransit { s.transit with relayModes := rest }) m
    refine ⟨_, taken, frame, discards, fun i x held enters queued enabled jack early => ?_, fun i x held not => ?_,
      fun i empty => (slots i).2.2 empty⟩
    · exact (slots i).1 x held ⟨enters, queued, enabled, jack, early⟩
    · refine (slots i).2.1 x held fun ⟨enters, queued, enabled, jack, early⟩ => ?_
      rcases not with h | h | h | h | h
      · exact h enters
      · exact h queued
      · exact absurd (h.symm.trans enabled) (by decide)
      · exact h jack
      · exact absurd early (Nat.not_le.2 h)

/-! ## The console line (R177, R185, R187) -/

/-- Settles O56: the end of a frame by its kind, and a frame that is not valid. -/
theorem framesSentAndRejected : Obligations.FramesSentAndRejected := by
  refine ⟨fun s x running sending => ?_, fun s f running invalid => ?_⟩
  · have taken : exec .consoleFrameSent s = .next s.consoleFrameSent := exec_event running State.consoleFrameSent rfl
    unfold State.consoleFrameSent Console.frameSent at taken
    rw [sending] at taken
    dsimp only at taken
    cases kind : x.kind with
    | reply | forward =>
      rw [kind] at taken
      exact ⟨_, taken, rfl, fun _ => ⟨rfl, rfl⟩, nofun⟩
    | beacon first last start =>
      rw [kind] at taken
      refine ⟨_, taken, rfl, ?_, fun _ _ _ same => ?_⟩
      · rintro (other | other) <;> cases other
      · cases same
        exact ⟨rfl, rfl⟩
  · have bad : frameConsoleValid f = false := by
      have : (!frameConsoleValid f) = true := invalid
      rwa [Bool.not_eq_true'] at this
    rw [exec_event running (fun t => t.rejectFrame f) rfl]
    unfold State.rejectFrame
    rw [bad]
    rfl

/-- Settles O57: without both hand-offs nothing is built; with both the beacon is the model's own list of entries. -/
theorem beaconsAreBuilt : Obligations.BeaconsAreBuilt := by
  refine ⟨fun s running missing => ?_, ?_⟩
  · rw [exec_event running State.buildBeacon rfl]
    unfold State.buildBeacon
    split
    · rfl
    · next j js jobs =>
      split
      · next summary marker summarised fired =>
        rcases missing j js jobs with h | h
        · exact nomatch h.symm.trans summarised
        · exact nomatch h.symm.trans fired
      · rfl
  · intro s j js summary marker running jobs summarised fired on
    have section_ (i : ParamIx) (es : List BeaconEntry) : sectionIf (s.params.value i == 1) es = on i es := by
      unfold sectionIf
      exact if_congr beq_iff_eq rfl rfl
    refine ⟨s.topCondition, s.reportedSet, topCondition_is s, reportedSet_reports s, ?_⟩
    rw [exec_event running State.buildBeacon rfl]
    unfold State.buildBeacon
    rw [jobs]
    dsimp only
    rw [summarised, fired]
    dsimp only
    unfold State.beaconEntries
    dsimp only
    rw [← section_ 27, ← section_ 28, ← section_ 29, ← section_ 30, ← section_ 31]
    rfl

end Sys2Proof.Proofs
end


section
/-! PROOFS. The open test and the closing of a channel by case, and the timers of the feed (O48). -/

namespace Sys2Proof.Proofs

open Sys2Proof Sys2Proof.Machine Sys2Proof.Laws

variable {s t u : State} {c : Channel} {w : WorkingCopy}

/-! ## Evaluations of FEED_JAM behind a change of the feed -/

/-- What an evaluation of FEED_JAM behind a change of the feed alone leaves. -/
theorem evaluateJam_behind_feed (s : State) (f : Feed) :
    (s.withFeed f).evaluateJam =
      (s.withFeed (s.withFeed f).evaluateJam.feed).withConditions (s.withFeed f).evaluateJam.conditions ∧
    (∀ y : Cond, y ≠ .feedJam → (s.withFeed f).evaluateJam.condition y = s.condition y) ∧
    (s.withFeed f).evaluateJam.feed = f := by
  refine ⟨?_, (evaluateJam_step _ .a).conditions, evaluateJam_feed _⟩
  rw [evaluateJam_feed]
  exact evaluateJam_frame _

theorem evaluateJam_source_meets (s : State) :
    (s.evaluateJam.condition .feedJam).source = (s.evaluateJam.meetsJam .a || s.evaluateJam.meetsJam .b) := by
  rw [evaluateJam_source, meetsJam_evaluateJam, meetsJam_evaluateJam]

/-! ## The deferral test (R98) -/

theorem canDefer_iff (x : ChannelContext) (d : DescriptorIx) :
    x.canDefer d = true ↔ d ∈ x.deferred ∨ x.deferred.length < 8 := by
  unfold ChannelContext.canDefer Config.deferredPlaces
  rw [Bool.or_eq_true, List.contains_iff_mem, decide_eq_true_iff]

theorem deferralTest_passes {d : DescriptorIx} (h : s.MayDefer (s.channel c) d) :
    s.deferralTest c = (s.setChannel c { s.channel c with
      working := none
      deferred := if d ∈ (s.channel c).deferred then (s.channel c).deferred else (s.channel c).deferred ++ [d] }).chooseNext c := by
  obtain ⟨current, allowed, room⟩ := h
  unfold State.deferralTest
  dsimp only
  rw [current]
  dsimp only
  rw [if_pos (Bool.and_eq_true_iff.2 ⟨(deferralAllowed_iff s c).2 allowed, (canDefer_iff _ d).2 room⟩)]
  simp only [List.contains_iff_mem]

theorem deferralTest_fails (h : ∀ d, ¬ s.MayDefer (s.channel c) d) : s.deferralTest c = s := by
  unfold State.deferralTest
  dsimp only
  split
  · next d current =>
    refine if_neg fun both => ?_
    obtain ⟨allowed, room⟩ := Bool.and_eq_true_iff.1 both
    exact h d ⟨current, (deferralAllowed_iff s c).1 allowed, (canDefer_iff _ d).1 room⟩
  · rfl

/-- Deferral does not depend on the context that the state holds. -/
theorem mayDefer_setChannel (s : State) (c : Channel) (x y : ChannelContext) (d : DescriptorIx) :
    (s.setChannel c y).MayDefer x d ↔ s.MayDefer x d := by
  cases c <;> rfl

/-- A block that begins now allows no deferral (R98). -/
theorem not_mayDefer_blocked {x : ChannelContext} {r : BlockReason} (positive : 0 < s.params.blockS) (d : DescriptorIx) :
    ¬ s.MayDefer (ChannelContext.blocked x r s.now s.params.blockS) d := by
  rintro ⟨-, ⟨-, ⟨since, begun, stood⟩, -⟩, -⟩
  have same : s.now = since := Option.some.inj begun
  omega

/-! ## The open test (R86) -/

theorem openTest_void (state : (s.channel c).state = .wait) (working : (s.channel c).working = some w)
    (void : (s.channel c).void = true) : s.openTest c = (s.finishDescriptor c).evaluateJam := by
  unfold State.openTest
  dsimp only
  rw [state, working]
  exact if_pos void

theorem openTest_opens (state : (s.channel c).state = .wait) (working : (s.channel c).working = some w)
    (live : (s.channel c).void = false) (h : s.blockFor c w = .none) :
    s.openTest c = (s.openChannel c w).evaluateJam := by
  unfold State.openTest
  dsimp only
  rw [state, working]
  dsimp only
  rw [live, if_neg Bool.false_ne_true, h]

theorem openTest_waits (state : (s.channel c).state = .wait) (working : (s.channel c).working = some w)
    (live : (s.channel c).void = false) (h : s.blockFor c w ≠ .none) :
    s.openTest c = ((s.recordBlock c (s.blockFor c w)).deferralTest c).evaluateJam := by
  unfold State.openTest
  dsimp only
  rw [state, working]
  dsimp only
  rw [live, if_neg Bool.false_ne_true]
  split
  · next e => exact absurd e h
  · rfl

/-- A failed test with a new reason starts the block anew. -/
theorem openTest_new (state : (s.channel c).state = .wait) (working : (s.channel c).working = some w)
    (live : (s.channel c).void = false) (h : s.blockFor c w ≠ .none) (new : s.blockFor c w ≠ (s.channel c).blockReason)
    (positive : 0 < s.params.blockS) :
    s.openTest c = (s.setChannel c (ChannelContext.blocked (s.channel c) (s.blockFor c w) s.now s.params.blockS)).evaluateJam := by
  rw [openTest_waits state working live h, recordBlock_new new.symm, deferralTest_fails fun d may => ?_]
  rw [channel_setChannel_same, mayDefer_setChannel] at may
  exact not_mayDefer_blocked positive d may

/-- A failed test with the reason recorded makes the deferral test. -/
theorem openTest_same (state : (s.channel c).state = .wait) (working : (s.channel c).working = some w)
    (live : (s.channel c).void = false) (h : s.blockFor c w ≠ .none) (same : s.blockFor c w = (s.channel c).blockReason) :
    s.openTest c = (s.deferralTest c).evaluateJam := by
  rw [openTest_waits state working live h, recordBlock_same same.symm]

/-! ## Closing (R92) -/

theorem askClose_eq (k : CloseCause) (state : (s.channel c).state = .opened) (working : (s.channel c).working = some w) :
    s.askClose c k = (s.withFeed { s.feed.setChannel c { s.channel c with
        state := .closing, closeCause := some k, closeSent := (s.channel c).openConfirmed } with
      waiting := s.feed.waiting ++ (if (s.channel c).openConfirmed then
        [{ isOpen := false, channel := c, slot := w.outlet, tag := (s.channel c).tag, litres := 0, stray := false,
           since := s.now }] else []) }).evaluateJam := by
  unfold State.askClose
  dsimp only
  rw [state, working]
  dsimp only
  cases (s.channel c).openConfirmed
  · rw [if_neg Bool.false_ne_true, if_neg Bool.false_ne_true, List.append_nil]
    cases c <;> rfl
  · rw [if_pos rfl, if_pos rfl]
    cases c <;> rfl

theorem askClose_other (k : CloseCause) (state : (s.channel c).state ≠ .opened) : s.askClose c k = s := by
  unfold State.askClose
  dsimp only
  split
  · next e _ => exact absurd e state
  · rfl

/-! ## The timers of a channel (O48) -/

theorem reached_iff (s : State) (x : Option Nat) : s.reached x = true ↔ ∃ ends ∈ x, ends ≤ s.now := by
  unfold State.reached
  cases x <;> simp

theorem dwellExpiry_due {ends : Nat} (h : (s.channel c).dwellEndsAt = some ends) (due : ends ≤ s.now) :
    s.dwellExpiry c = s.askClose c .dwell := by
  exact if_pos ((reached_iff _ _).2 ⟨ends, h, due⟩)

theorem pauseExpiry_due {p : Pause} (state : (s.channel c).state = .paused) (h : (s.channel c).pause = some p)
    (due : p.endsAt ≤ s.now) : s.pauseExpiry c = (s.endPause c p.kind).evaluateJam := by
  unfold State.pauseExpiry
  rw [state, h]
  exact if_pos due

theorem blockExpiry_due {ends : Nat} (h : (s.channel c).blockTimer = some ends) (due : ends ≤ s.now) :
    s.blockExpiry c = s.openTest c := by
  exact if_pos ((reached_iff _ _).2 ⟨ends, h, due⟩)

theorem dwellExpiry_early (h : (s.channel c).state ≠ .opened ∨ ∀ ends ∈ (s.channel c).dwellEndsAt, s.now < ends) :
    s.dwellExpiry c = s := by
  unfold State.dwellExpiry
  split
  · next reached =>
    obtain ⟨ends, at_, due⟩ := (reached_iff _ _).1 reached
    exact askClose_other _ fun state => h.elim (absurd state) fun early => absurd due (Nat.not_le.2 (early ends at_))
  · rfl

theorem pauseExpiry_early (h : (s.channel c).state ≠ .paused ∨ ∀ p ∈ (s.channel c).pause, s.now < p.endsAt) :
    s.pauseExpiry c = s := by
  unfold State.pauseExpiry
  split
  · next p state pause =>
    exact if_neg fun due => h.elim (absurd state) fun early => absurd due (Nat.not_le.2 (early p pause))
  · rfl

theorem blockExpiry_early (h : (s.channel c).state ≠ .wait ∨ ∀ ends ∈ (s.channel c).blockTimer, s.now < ends) :
    s.blockExpiry c = s := by
  unfold State.blockExpiry
  split
  · next reached =>
    obtain ⟨ends, at_, due⟩ := (reached_iff _ _).1 reached
    exact openTest_other _ _ fun state => h.elim (absurd state) fun early => absurd due (Nat.not_le.2 (early ends at_))
  · rfl

/-- A channel that waits at its block timer with the reason recorded, and may not defer, meets the jam test. -/
theorem meetsJam_of_stuck {ends : Nat} (state : (s.channel c).state = .wait) (reason : (s.channel c).blockReason ≠ .none)
    (timer : (s.channel c).blockTimer = some ends) (due : ends ≤ s.now)
    (stuck : (s.channel c).blockReason ≠ .segmentFull ∨ ∃ d, (s.channel c).current = some d ∧ ¬ s.MayDefer (s.channel c) d) :
    s.meetsJam c = true := by
  refine (meetsJam_iff s c).2 ⟨state, reason, ⟨ends, timer, due⟩, ?_⟩
  rcases stuck with other | ⟨d, current, not⟩
  · exact .inl fun defers => other defers.1
  · by_cases defers : s.DefersNow (s.channel c)
    · refine .inr ⟨d, current, fun mem => not ⟨current, defers, .inl mem⟩, ?_⟩
      exact Nat.le_of_not_lt fun room => not ⟨current, defers, .inr room⟩
    · exact .inl defers

/-- What an evaluation of FEED_JAM does where a channel meets the jam test. -/
theorem evaluateJam_met (h : s.meetsJam c = true) : (s.evaluateJam.condition .feedJam).source = true ∧
    ((s.condition .feedJam).source = false → (s.evaluateJam.condition .feedJam).state = .raised ∧
      (s.evaluateJam.condition .feedJam).count = min 255 ((s.condition .feedJam).count + 1)) := by
  have any : (s.meetsJam .a || s.meetsJam .b) = true := by
    cases c
    · rw [h, Bool.true_or]
    · rw [h, Bool.or_true]
  refine ⟨(evaluateJam_source s).trans any, fun off => ?_⟩
  have raised : s.evaluateJam = s.raise .feedJam (some (if s.meetsJam .a then 0 else 1)) := by
    unfold State.evaluateJam
    dsimp only
    rw [any]
    exact evaluate_raises s _ _ off
  rw [raised, raise_same, raised_eq]
  exact ⟨rfl, rfl⟩

/-- Settles O48: each timer at its time by the state of the channel, each before it, and the source of FEED_JAM. -/
theorem feedTimersExpire : Obligations.FeedTimersExpire := by
  refine ⟨?_, fun s c ends running state pause due => ?_, ?_, fun s => ⟨s.meetsJam .a, s.meetsJam .b, meetsJam_iff s .a,
    meetsJam_iff s .b, rfl⟩⟩
  · intro s c w running working x block
    refine ⟨fun ends state dwell due => ?_, fun ends state pause due live => ?_, fun ends state pause due void => ?_,
      fun ends state timer due => ?_⟩
    · have taken : exec (.dwellExpiry c) s = .next (s.dwellExpiry c) := exec_event running (fun t => t.dwellExpiry c) rfl
      rw [dwellExpiry_due dwell due, askClose_eq .dwell state working] at taken
      exact ⟨_, taken, evaluateJam_behind_feed s _⟩
    · have taken : exec (.pauseExpiry c) s = .next (s.pauseExpiry c) := exec_event running (fun t => t.pauseExpiry c) rfl
      have resumes : s.endPause c .resume = s.resumeWait c := if_neg (by rw [live]; decide)
      rw [pauseExpiry_due state pause due, resumes] at taken
      have step := (resumeWait_step s c).trans (evaluateJam_step _ c)
      obtain ⟨opens, waits⟩ := resumeWait_cases working
      refine ⟨_, taken, step.frame, step.conditions, evaluateJam_source_meets _, fun free => opens_evaluateJam (opens free),
        fun blocked => ?_⟩
      rw [waits blocked, evaluateJam_walls, evaluateJam_records, evaluateJam_feed]
      exact ⟨setChannel_walls _ _ _, setChannel_records _ _ _, setChannel_feed _ _ _⟩
    · have taken : exec (.pauseExpiry c) s = .next (s.pauseExpiry c) := exec_event running (fun t => t.pauseExpiry c) rfl
      have finishes : s.endPause c .resume = s.finishDescriptor c := if_pos void
      rw [taken, pauseExpiry_due state pause due, finishes]
    · have taken : exec (.blockTimerExpiry c) s = .next (s.openTest c) := by
        rw [exec_event running (fun t => t.blockExpiry c) rfl, blockExpiry_due timer due]
      have step := openTest_step s c
      refine ⟨fun void => ?_, fun live free => ?_, fun live blocked new positive => ?_, fun live same reason stuck => ?_,
        fun d live full may => ?_⟩
      · rw [taken, openTest_void state working void]
      · refine ⟨_, taken, ?_, step.frame, step.conditions⟩
        rw [openTest_opens state working live free]
        exact opens_evaluateJam (openChannel_opens s c w)
      · rw [openTest_new state working live blocked new positive] at taken
        exact ⟨_, taken, evaluateJam_behind_feed s _⟩
      · have blocked : s.blockFor c w ≠ .none := by rw [same]; exact reason
        have fails (d : DescriptorIx) : ¬ s.MayDefer (s.channel c) d := fun may => by
          rcases stuck with other | ⟨e, current, not⟩
          · exact other may.2.1.1
          · have eq : d = e := Option.some.inj (may.1.symm.trans current)
            exact not (eq ▸ may)
        rw [openTest_same state working live blocked same, deferralTest_fails fails] at taken
        obtain ⟨source, raised⟩ := evaluateJam_met (meetsJam_of_stuck state reason timer due stuck)
        exact ⟨_, taken, evaluateJam_frame s, (evaluateJam_step s c).conditions, source, raised⟩
      · have blocked : s.blockFor c w ≠ .none := by rw [full]; decide
        have same : s.blockFor c w = (s.channel c).blockReason := full.trans may.2.1.1.symm
        rw [taken, openTest_same state working live blocked same, deferralTest_passes may]
  · rw [exec_event running (fun t => t.pauseExpiry c) rfl, pauseExpiry_due state pause due]
    rfl
  · intro s c running x
    refine ⟨fun early => ?_, fun early => ?_, fun early => ?_⟩
    · rw [exec_event running (fun t => t.dwellExpiry c) rfl, dwellExpiry_early early]
    · rw [exec_event running (fun t => t.pauseExpiry c) rfl, pauseExpiry_early early]
    · rw [exec_event running (fun t => t.blockExpiry c) rfl, blockExpiry_early early]

end Sys2Proof.Proofs
end


section
/-! PROOFS. A placement into a segment (R67 to R70): the record made, its check against B, and what the channels then do
(O32). -/

namespace Sys2Proof.Proofs

open Sys2Proof Sys2Proof.Machine Sys2Proof.Laws

variable {s t u : State} {c : Channel} {w : WorkingCopy} {k : SegmentIx}

/-! ## Replaced segments -/

theorem table_write_read {α : Type} {n : Nat} (x : Table α n) (i : Fin n) : x.write i (x.read i) = x := by
  refine table_ext _ _ fun j => ?_
  rw [table_read_write]
  split
  · next same => rw [same]
  · rfl

theorem table_write_write {α : Type} {n : Nat} (x : Table α n) (i : Fin n) (y z : α) :
    (x.write i y).write i z = x.write i z := by
  refine table_ext _ _ fun j => ?_
  rw [table_read_write, table_read_write, table_read_write]
  split <;> rfl

theorem setWall_self (s : State) (k : SegmentIx) : s.setWall k (s.wall k) = s := by
  unfold State.setWall State.wall
  rw [table_write_read]
  rfl

theorem setWall_setWall (s : State) (k : SegmentIx) (x y : SegmentLive) : (s.setWall k x).setWall k y = s.setWall k y :=
  congrArg s.withWalls (table_write_write s.walls k x y)

/-! ## The record made (R67, R68) -/

/-- The record that a placement of a height puts at the young end of a queue: a new one, or the youngest of 16 with the
placement merged into it. -/
def youngestAfter (x : SegmentLive) (gain v clock : Nat) (source : LayerSource) (descriptor : Option DescriptorIx) : Layer :=
  match x.queue[15]? with
  | none => newLayer (x.top + gain) clock v source descriptor
  | some l => l.merged gain clock v source

theorem placeLayer_eq {x : SegmentLive} (short : x.queue.length ≤ 16) (gain clock v : Nat) (source : LayerSource)
    (descriptor : Option DescriptorIx) :
    placeLayer x.queue x.top gain clock v source descriptor =
      x.queue.take 15 ++ [youngestAfter x gain v clock source descriptor] := by
  unfold placeLayer youngestAfter Config.layerPlaces
  by_cases room : x.queue.length < 16
  · rw [if_pos room, List.take_of_length_le (by omega), List.getElem?_eq_none (by omega)]
  · have full : x.queue.length = 16 := by omega
    have last : x.queue.getLast? = x.queue[15]? := by rw [List.getLast?_eq_getElem?, full]
    have some_ : x.queue[15]? = some x.queue[15] := List.getElem?_eq_getElem (by omega)
    have older : x.queue.dropLast = x.queue.take 15 := by rw [List.dropLast_eq_take, full]
    rw [if_neg room, last, some_, older]

/-- The top of a queue's last record, or its base, is the segment's top. -/
theorem topsRise_bottom {base top : Nat} {q : List Layer} (h : topsRise base q top) :
    (q.getLast?.map Layer.top).getD base = top := by
  cases last : q.getLast? with
  | none =>
    rw [List.getLast?_eq_none_iff.1 last] at h
    exact h
  | some l =>
    obtain ⟨_, _, _, same⟩ := topsRise_getLast h last
    exact same

theorem withBottoms_getLast (base : Nat) (before : List Layer) (l : Layer) :
    (withBottoms base (before ++ [l])).getLast? = some ((before.getLast?.map Layer.top).getD base, l) := by
  induction before generalizing base with
  | nil => rfl
  | cons m ms ih =>
    have step : withBottoms base (m :: ms ++ [l]) = (base, m) :: withBottoms m.top (ms ++ [l]) := rfl
    have bottom : (((m :: ms).getLast?).map Layer.top).getD base = ((ms.getLast?).map Layer.top).getD m.top := by
      rw [List.getLast?_cons]
      cases ms.getLast? <;> rfl
    rw [step, List.getLast?_cons, ih, bottom]
    rfl

/-! ## The check of the record made (R69) -/

/-- Whether a record placed now, with this bottom, is unset and below B. -/
def BottomBelow (s : State) (bottom : Nat) : Bool :=
  decide (0 < s.params.setAgeS) && match s.placementSeen.bind CycleResult.bottom with
    | some b => decide ((bottom : Int) < b)
    | none => false

/-- The check of a record placed now at the young end of a queue: whether it raises, the flag it leaves, and the raise. -/
theorem checkYoungest_eq {before : List Layer} {l : Layer} (queue : (s.wall k).queue = before ++ [l])
    (fresh : l.placedAt = s.pourClock) :
    let below := BottomBelow s ((before.getLast?.map Layer.top).getD (s.wall k).base)
    let marked := s.setWall k { s.wall k with queue := before ++ [{ l with greenExited := l.greenExited || below }] }
    s.checkYoungest k = if below && !l.greenExited then marked.raise .greenExit (some k.val) else marked := by
  intro below marked
  have same (h : (l.greenExited || below) = l.greenExited) : marked = s := by
    show s.setWall k _ = s
    rw [h]
    have wall : ({ s.wall k with queue := before ++ [l] } : SegmentLive) = s.wall k := by rw [← queue]
    rw [wall, setWall_self]
  have last := withBottoms_getLast (s.wall k).base before l
  unfold State.checkYoungest
  dsimp only
  rw [queue, last]
  cases seen : s.placementSeen.bind CycleResult.bottom with
  | none =>
    have off : below = false := by
      show BottomBelow s _ = false
      unfold BottomBelow
      rw [seen, Bool.and_false]
    dsimp only
    rw [off, Bool.false_and, if_neg Bool.false_ne_true]
    exact (same (by rw [off, Bool.or_false])).symm
  | some b =>
    have found : foundGreen b s.pourClock s.params.setAgeS ((before.getLast?.map Layer.top).getD (s.wall k).base) l =
        (below && !l.greenExited) := by
      show _ = (BottomBelow s _ && _)
      unfold foundGreen Layer.unset BottomBelow
      rw [fresh, Nat.sub_self, seen]
      dsimp only
      rw [Bool.and_right_comm]
    dsimp only
    rw [found]
    cases h : (below && !l.greenExited) with
    | false =>
      rw [if_neg Bool.false_ne_true, if_neg Bool.false_ne_true]
      refine (same ?_).symm
      revert h
      cases below <;> cases l.greenExited <;> decide
    | true =>
      obtain ⟨on, -⟩ := Bool.and_eq_true_iff.1 h
      rw [if_pos rfl, if_pos rfl]
      show (s.setWall k _).raise .greenExit _ = (s.setWall k _).raise .greenExit _
      rw [on, Bool.or_true, List.dropLast_concat]
      rfl

/-! ## A placement taken whole -/

/-- A placement that gains no height changes remainder and total alone. -/
theorem takePlacement_flat (v : Nat) (source : LayerSource) (d : Option DescriptorIx) (enabled : (s.segment k).enabled = true)
    (flat : (s.wall k).gain (s.segment k).area v = 0) :
    s.takePlacement k v source d = s.setWall k { s.wall k with
      remainder := (s.wall k).numerator v % (s.segment k).area
      placedTotal := min 4294967295 ((s.wall k).placedTotal + v) } := by
  unfold State.takePlacement
  dsimp only
  rw [if_pos enabled, if_pos flat]
  unfold SegmentLive.placed
  dsimp only
  rw [flat, if_pos rfl]
  rfl

/-- The segment after a placement that gains height, with a record at its young end. -/
def SegmentLive.grown (x : SegmentLive) (area v : Nat) (record : Layer) : SegmentLive :=
  { x with
    top := x.top + x.gain area v, remainder := x.numerator v % area, placedTotal := min 4294967295 (x.placedTotal + v)
    queue := x.queue.take 15 ++ [record] }

/-- A placement that gains height puts its record at the young end, and checks it. -/
theorem takePlacement_grown (v : Nat) (source : LayerSource) (d : Option DescriptorIx) (enabled : (s.segment k).enabled = true)
    (form : (s.wall k).Form s.pourClock) (gains : (s.wall k).gain (s.segment k).area v ≠ 0) :
    let x := s.wall k
    let area := (s.segment k).area
    let l := youngestAfter x (x.gain area v) v s.pourClock source d
    let below := BottomBelow s (((x.queue.take 15).getLast?.map Layer.top).getD x.base)
    let marked := s.setWall k (SegmentLive.grown x area v { l with greenExited := l.greenExited || below })
    s.takePlacement k v source d = if below && !l.greenExited then marked.raise .greenExit (some k.val) else marked := by
  intro x area l below marked
  have placed : x.placed area v s.pourClock source d = SegmentLive.grown x area v l := by
    unfold SegmentLive.placed SegmentLive.grown
    dsimp only
    rw [if_neg gains, placeLayer_eq form.1]
    rfl
  unfold State.takePlacement
  dsimp only
  rw [if_pos enabled, if_neg gains, placed]
  have own : (s.setWall k (SegmentLive.grown x area v l)).wall k = SegmentLive.grown x area v l := wall_setWall_same _ _ _
  have fresh : l.placedAt = s.pourClock := by
    show (youngestAfter _ _ _ _ _ _).placedAt = _
    unfold youngestAfter
    split <;> rfl
  have check := checkYoungest_eq (s := s.setWall k (SegmentLive.grown x area v l)) (k := k) (before := x.queue.take 15) (l := l)
    (by rw [own]; rfl) fresh
  rw [own] at check
  simp only [setWall_setWall] at check
  exact check

/-- A raise of GREEN_EXIT, or none: the record of the condition, the mode and its hand-offs. -/
theorem greenRaised_cases (s : State) (k : SegmentIx) (raised : Bool) :
    let t := if raised then s.raise .greenExit (some k.val) else s
    let old := s.condition .greenExit
    let holds := raised = true ∧ old.state = .idle ∧ (s.mode = .climb ∨ s.mode = .trim)
    t = ((s.withConditions t.conditions).withMode t.mode).withTransit t.transit ∧
    t.condition .greenExit = (if raised then { state := .uncleared, source := false, detail := some k.val
                                               count := min 255 (old.count + 1) } else old) ∧
    (∀ c : Cond, c ≠ .greenExit → t.condition c = s.condition c) ∧ t.conditions.masked = s.conditions.masked ∧
    (holds → t.mode = .hold ∧ t.transit = s.transit.handed { old := s.mode, new := .hold, moment := s.now }) ∧
    (¬ holds → t.mode = s.mode ∧ t.transit = s.transit) := by
  cases raised with
  | false => exact ⟨rfl, rfl, fun _ _ => rfl, rfl, fun h => absurd h.1 Bool.false_ne_true, fun _ => ⟨rfl, rfl⟩⟩
  | true =>
    obtain ⟨-, holds, stays⟩ := raise_cases s .greenExit (some k.val)
    refine ⟨raise_frame _ _ _, (raise_same _ _ _).trans (raised_eq _ _ _), fun c ne => raise_other _ _ ne,
      raise_masked _ _ _, fun ⟨_, idle, mode⟩ => holds ⟨idle, rfl, mode⟩, fun not => ?_⟩
    exact stays (fun ⟨_, cls, _⟩ => absurd cls (by decide)) fun ⟨idle, _, mode⟩ => not ⟨rfl, idle, mode⟩

/-- A segment replaced, with a raise of GREEN_EXIT or none behind it. -/
theorem wallRaised_of_eq {x : SegmentLive} {raised : Bool}
    (h : t = if raised then (s.setWall k x).raise .greenExit (some k.val) else s.setWall k x) :
    let old := s.condition .greenExit
    let holds := raised = true ∧ old.state = .idle ∧ (s.mode = .climb ∨ s.mode = .trim)
    t = (((s.withWalls t.walls).withConditions t.conditions).withMode t.mode).withTransit t.transit ∧
    (∀ j, t.wall j = if j = k then x else s.wall j) ∧
    t.condition .greenExit = (if raised then { state := .uncleared, source := false, detail := some k.val
                                               count := min 255 (old.count + 1) } else old) ∧
    (∀ c : Cond, c ≠ .greenExit → t.condition c = s.condition c) ∧ t.conditions.masked = s.conditions.masked ∧
    (holds → t.mode = .hold ∧ t.transit = s.transit.handed { old := s.mode, new := .hold, moment := s.now }) ∧
    (¬ holds → t.mode = s.mode ∧ t.transit = s.transit) := by
  subst h
  obtain ⟨frame, record, others, masked, holds, stays⟩ := greenRaised_cases (s.setWall k x) k raised
  refine ⟨?_, fun j => ?_, record, others, masked, holds, stays⟩
  · have walls : (if raised then (s.setWall k x).raise .greenExit (some k.val) else s.setWall k x).walls =
        (s.setWall k x).walls := by
      split
      · exact raise_walls _ _ _
      · rfl
    rw [walls]
    exact frame
  · have own : (if raised then (s.setWall k x).raise .greenExit (some k.val) else s.setWall k x).wall j =
        (s.setWall k x).wall j := by
      split
      · exact wall_congr (raise_walls _ _ _) j
      · rfl
    rw [own]
    exact table_read_write _ _ _ _

/-- A placement into an enabled segment whose queue has its form is taken as R67 to R70 say. -/
theorem takePlacement_places (v : Nat) (source : LayerSource) (d : Option DescriptorIx) (enabled : (s.segment k).enabled = true)
    (form : (s.wall k).Form s.pourClock) : s.Places k v source d (s.takePlacement k v source d) := by
  unfold State.Places
  dsimp only
  have gain : min ((v * 100000 + (s.wall k).remainder) / (s.segment k).area) (16777215 - (s.wall k).top) =
      (s.wall k).gain (s.segment k).area v := rfl
  rw [gain]
  by_cases flat : (s.wall k).gain (s.segment k).area v = 0
  · have none_ (b : Bool) : (decide (0 < (s.wall k).gain (s.segment k).area v) && b) = false := by
      rw [flat, decide_eq_false (Nat.lt_irrefl 0), Bool.false_and]
    have taken := wallRaised_of_eq (raised := false) (takePlacement_flat v source d enabled flat)
    simp only [none_]
    rw [flat]
    exact taken
  · have some_ (b : Bool) : (decide (0 < (s.wall k).gain (s.segment k).area v) && b) = b := by
      rw [decide_eq_true (Nat.pos_of_ne_zero flat), Bool.true_and]
    have grown := takePlacement_grown v source d enabled form flat
    dsimp only at grown
    simp only [some_, if_neg flat]
    unfold youngestAfter at grown
    cases older : (s.wall k).queue[15]? with
    | none =>
      rw [older] at grown
      dsimp only [newLayer] at grown
      simp only [Bool.not_false, Bool.and_true] at grown
      exact wallRaised_of_eq grown
    | some l =>
      have full : (s.wall k).queue.length = 16 := by
        have := (List.getElem?_eq_some_iff.1 older).1
        have := form.1
        omega
      obtain ⟨_, _, _, top⟩ := topsRise_getLast form.2.1 (l := l) (by rw [List.getLast?_eq_getElem?, full]; exact older)
      rw [older] at grown
      dsimp only [Layer.merged] at grown
      rw [top] at grown
      exact wallRaised_of_eq grown

end Sys2Proof.Proofs
end


section
/-! PROOFS. What the channels do at a placement and at a release of claims, and PLACE (O32). -/

namespace Sys2Proof.Proofs

open Sys2Proof Sys2Proof.Machine Sys2Proof.Laws

variable {s t u : State} {c : Channel} {w : WorkingCopy} {k : SegmentIx}

/-! ## An opening that has just begun is not confirmed (R87) -/

/-- A channel in OPEN has not had its OPEN confirmed. -/
def Unconfirmed (c : Channel) (s : State) : Prop := (s.channel c).state = .opened → (s.channel c).openConfirmed = false

theorem unconfirmed_of_state (h : (s.channel c).state ≠ .opened) : Unconfirmed c s := fun opened => absurd opened h

theorem unconfirmed_setChannel {x : ChannelContext} (h : x.state ≠ .opened) : Unconfirmed c (s.setChannel c x) :=
  unconfirmed_of_state (by rw [channel_setChannel_same]; exact h)

theorem openChannel_unconfirmed (s : State) (c : Channel) (w : WorkingCopy) : Unconfirmed c (s.openChannel c w) := by
  obtain ⟨channel, -⟩ := openChannel_opens s c w
  intro _
  rw [channel]

theorem firstTest_unconfirmed (h : (s.channel c).state ≠ .opened) : Unconfirmed c (s.firstTest c) := by
  unfold State.firstTest
  split
  · split
    · exact openChannel_unconfirmed s c _
    · exact unconfirmed_of_state (by rw [recordBlock_state]; exact h)
  · exact unconfirmed_of_state h

theorem loadAndTest_unconfirmed (s : State) (c : Channel) (d : DescriptorIx) : Unconfirmed c (s.loadAndTest c d) :=
  firstTest_unconfirmed (by rw [loadDescriptor_eq, channel_setChannel_same]; exact nofun)

theorem chooseNext_unconfirmed (s : State) (c : Channel) : Unconfirmed c (s.chooseNext c) := by
  unfold State.chooseNext
  dsimp only
  split
  · exact loadAndTest_unconfirmed _ c _
  · split
    · exact loadAndTest_unconfirmed _ c _
    · split
      · exact loadAndTest_unconfirmed _ c _
      · exact unconfirmed_setChannel nofun

theorem finishDescriptor_unconfirmed (s : State) (c : Channel) : Unconfirmed c (s.finishDescriptor c) := by
  unfold State.finishDescriptor
  split
  · exact chooseNext_unconfirmed s c
  · dsimp only
    split
    · exact unconfirmed_setChannel nofun
    · exact chooseNext_unconfirmed _ c

theorem deferralTest_unconfirmed (h : (s.channel c).state ≠ .opened) : Unconfirmed c (s.deferralTest c) := by
  unfold State.deferralTest
  dsimp only
  split
  · split
    · exact chooseNext_unconfirmed _ c
    · exact unconfirmed_of_state h
  · exact unconfirmed_of_state h

theorem unconfirmed_evaluateJam (h : Unconfirmed c s) : Unconfirmed c s.evaluateJam := by
  unfold Unconfirmed
  rw [evaluateJam_channel]
  exact h

theorem openTest_unconfirmed (waits : (s.channel c).state = .wait) : Unconfirmed c (s.openTest c) := by
  have away : (s.channel c).state ≠ .opened := by rw [waits]; exact nofun
  unfold State.openTest
  dsimp only
  split
  · split
    · exact unconfirmed_evaluateJam (finishDescriptor_unconfirmed s c)
    · split
      · exact unconfirmed_evaluateJam (openChannel_unconfirmed s c _)
      · exact unconfirmed_evaluateJam (deferralTest_unconfirmed (by rw [recordBlock_state]; exact away))
  · exact unconfirmed_of_state away

/-- An opening that is not confirmed makes no FULL test (R90). -/
theorem fullTest_unconfirmed (h : Unconfirmed c s) : s.fullTest c = s := by
  unfold State.fullTest
  dsimp only
  split
  · next opened _ _ =>
    refine if_neg fun ⟨confirmed, _⟩ => ?_
    rw [h opened] at confirmed
    exact absurd confirmed Bool.false_ne_true
  · rfl

/-! ## The channels at a placement (R86, R90) -/

theorem place_enabled (v : Nat) (source : LayerSource) (d : Option DescriptorIx) (maker : Option Channel)
    (enabled : (s.segment k).enabled = true) :
    s.place k v source d maker = (s.takePlacement k v source d).bothChannels (State.segmentPlacedFor k maker) := if_pos enabled

theorem place_disabled (v : Nat) (source : LayerSource) (d : Option DescriptorIx) (maker : Option Channel)
    (disabled : (s.segment k).enabled = false) : s.place k v source d maker = s := by
  unfold State.place
  dsimp only
  rw [if_neg (by rw [disabled]; decide), takePlacement_disabled s k v source d disabled]

/-- A channel that works on the segment makes its open test while it waits and its FULL test while it is open, but for the
maker of the placement. -/
theorem segmentPlacedFor_eq (k : SegmentIx) (maker : Option Channel) (c : Channel) (s : State) :
    State.segmentPlacedFor k maker c s = match (s.channel c).working, (s.channel c).state with
      | some y, .wait => if y.segment = k then s.openTest c else s
      | some y, .opened => if y.segment = k ∧ maker ≠ some c then s.fullTest c else s
      | _, _ => s := by
  unfold State.segmentPlacedFor
  cases (s.channel c).working with
  | none => rfl
  | some y =>
    dsimp only
    by_cases here : y.segment = k
    case neg =>
      rw [if_neg here]
      cases (s.channel c).state with
      | wait => exact (if_neg here).symm
      | opened => exact (if_neg fun h => here h.1).symm
      | _ => rfl
    case pos =>
      rw [if_pos here]
      have tested : (if maker = some c then s.openTest c else (s.openTest c).fullTest c) =
          if (s.channel c).state = .wait then s.openTest c
          else if (s.channel c).state = .opened ∧ maker ≠ some c then s.fullTest c else s := by
        by_cases waits : (s.channel c).state = .wait
        · rw [if_pos waits, fullTest_unconfirmed (openTest_unconfirmed waits), ite_self]
        · rw [if_neg waits, openTest_other s c waits]
          by_cases mine : maker = some c
          · rw [if_pos mine, if_neg fun h => h.2 mine]
          · rw [if_neg mine]
            by_cases opened : (s.channel c).state = .opened
            · rw [if_pos ⟨opened, mine⟩]
            · rw [fullTest_other s c opened, ite_self]
      rw [tested]
      cases (s.channel c).state with
      | wait => exact (if_pos here).symm
      | opened =>
        dsimp only
        simp only [reduceCtorEq, ↓reduceIte, true_and, here]
      | _ => rfl

/-- What a change of the wall and a step of the engine after it may change together. -/
theorem frame_wall_engine {p : State} {n : Nat} (taken : WallFrame s p) (acts : FeedFrame (p.withFree n) t) :
    t = ((((((s.withFeed t.feed).withWalls t.walls).withRecords t.records).withConditions t.conditions).withMode
      t.mode).withTransit t.transit).withFree t.free := by
  obtain ⟨f, w', r', c', rfl⟩ : ∃ f w' r' c', t = ((((p.withFree n).withFeed f).withWalls w').withRecords r').withConditions
      c' := ⟨_, _, _, _, acts⟩
  obtain ⟨w, c, m, r, rfl⟩ : ∃ w c m r, p = (((s.withWalls w).withConditions c).withMode m).withTransit r :=
    ⟨_, _, _, _, taken⟩
  cases s
  rfl

/-- What a placement with its decision points may change. -/
theorem place_frame (s : State) (k : SegmentIx) (v : Nat) (source : LayerSource) (d : Option DescriptorIx)
    (maker : Option Channel) : let t := s.place k v source d maker
    t = ((((((s.withFeed t.feed).withWalls t.walls).withRecords t.records).withConditions t.conditions).withMode
      t.mode).withTransit t.transit).withFree t.free := by
  dsimp only
  cases enabled : (s.segment k).enabled with
  | false =>
    rw [place_disabled v source d maker enabled]
    exact frame_wall_engine (n := s.free) (.refl s) (.refl s)
  | true =>
    rw [place_enabled v source d maker enabled]
    exact frame_wall_engine (takePlacement_frame s k v source d) (bothChannels_step (s.takePlacement k v source d)
      (State.segmentPlacedFor k maker) fun c u => (segmentPlacedFor_step k maker c u).engine).frame

/-- With no channel at work on the segment a placement is the placement alone. -/
theorem place_alone (v : Nat) (source : LayerSource) (d : Option DescriptorIx) (maker : Option Channel)
    (enabled : (s.segment k).enabled = true) (away : ∀ c y, (s.channel c).working = some y → y.segment ≠ k) :
    s.place k v source d maker = (s.takePlacement k v source d).withFree (s.free + 1) := by
  have frame := takePlacement_frame s k v source d
  unfold WallFrame at frame
  have free : (s.takePlacement k v source d).free = s.free := by rw [frame]; rfl
  have channel (c : Channel) : (s.takePlacement k v source d).channel c = s.channel c := by rw [frame]; cases c <;> rfl
  have rests (c : Channel) :
      State.segmentPlacedFor k maker c ((s.takePlacement k v source d).withFree (s.free + 1)) =
        (s.takePlacement k v source d).withFree (s.free + 1) :=
    segmentPlacedFor_elsewhere _ _ _ _ fun y working => away c y (by rw [← channel c]; exact working)
  rw [place_enabled v source d maker enabled]
  unfold State.bothChannels
  dsimp only
  rw [free, rests, rests]

/-- What the channels' actions at a placement keep of it. -/
theorem place_keeps (v : Nat) (source : LayerSource) (d : Option DescriptorIx) (maker : Option Channel)
    (enabled : (s.segment k).enabled = true) : let p := s.takePlacement k v source d
    let t := s.place k v source d maker
    (∀ j, t.wall j = { p.wall j with claim := (t.wall j).claim }) ∧ ∀ x : Cond, x ≠ .feedJam → t.condition x = p.condition x := by
  intro p t
  have step := bothChannels_step p (State.segmentPlacedFor k maker) fun c u => (segmentPlacedFor_step k maker c u).engine
  rw [← place_enabled v source d maker enabled] at step
  exact ⟨step.content, step.conditions⟩

/-! ## The record of a placement, by the room in the queue -/

/-- A placement into a queue with a free place makes a record. -/
theorem takePlacement_room (v : Nat) (source : LayerSource) (d : Option DescriptorIx) (enabled : (s.segment k).enabled = true)
    (form : (s.wall k).Form s.pourClock) (gains : (s.wall k).gain (s.segment k).area v ≠ 0)
    (room : (s.wall k).queue.length < 16) : let p := s.takePlacement k v source d
    let green := BottomBelow s (s.wall k).top
    (p.wall k).queue = (s.wall k).queue ++ [{
      top := (s.wall k).top + (s.wall k).gain (s.segment k).area v, placedAt := s.pourClock, litres := v, source := source
      descriptor := d, greenExited := green }] ∧
    (p.condition .greenExit).count =
      if green then min 255 ((s.condition .greenExit).count + 1) else (s.condition .greenExit).count := by
  have grown := takePlacement_grown v source d enabled form gains
  dsimp only at grown
  have older : (s.wall k).queue[15]? = none := List.getElem?_eq_none (by omega)
  have first : (s.wall k).queue.take 15 = (s.wall k).queue := List.take_of_length_le (by omega)
  unfold youngestAfter at grown
  rw [older, first, topsRise_bottom form.2.1] at grown
  dsimp only [newLayer] at grown
  simp only [Bool.not_false, Bool.and_true] at grown
  obtain ⟨-, walls, record, -⟩ := wallRaised_of_eq grown
  intro p green
  refine ⟨?_, ?_⟩
  · rw [walls k, if_pos rfl]
    show (s.wall k).queue.take 15 ++ _ = _
    rw [first]
    rfl
  · rw [record]
    exact apply_ite CondRecord.count _ _ _

/-- A placement into a full queue is merged into the youngest record. -/
theorem takePlacement_merged (v : Nat) (source : LayerSource) (d : Option DescriptorIx) (enabled : (s.segment k).enabled = true)
    (form : (s.wall k).Form s.pourClock) (gains : (s.wall k).gain (s.segment k).area v ≠ 0)
    (full : (s.wall k).queue.length = 16) {l : Layer} (last : (s.wall k).queue.getLast? = some l) :
    let p := s.takePlacement k v source d
    let green := BottomBelow s (((s.wall k).queue.dropLast.getLast?.map Layer.top).getD (s.wall k).base)
    (p.wall k).queue = (s.wall k).queue.dropLast ++ [{ l with
      top := (s.wall k).top + (s.wall k).gain (s.segment k).area v, placedAt := s.pourClock
      litres := min 4294967295 (l.litres + v), source := source, descriptor := none, greenExited := l.greenExited || green }] ∧
    (p.condition .greenExit).count =
      if green && !l.greenExited then min 255 ((s.condition .greenExit).count + 1) else (s.condition .greenExit).count := by
  have grown := takePlacement_grown v source d enabled form gains
  dsimp only at grown
  have older : (s.wall k).queue[15]? = some l := by rw [← last, List.getLast?_eq_getElem?, full]
  have first : (s.wall k).queue.take 15 = (s.wall k).queue.dropLast := by rw [List.dropLast_eq_take, full]
  obtain ⟨_, _, _, top⟩ := topsRise_getLast form.2.1 last
  unfold youngestAfter at grown
  rw [older, first] at grown
  dsimp only [Layer.merged] at grown
  rw [top] at grown
  obtain ⟨-, walls, record, -⟩ := wallRaised_of_eq grown
  intro p green
  refine ⟨?_, ?_⟩
  · rw [walls k, if_pos rfl]
    show (s.wall k).queue.take 15 ++ _ = _
    rw [first]
    rfl
  · rw [record]
    exact apply_ite CondRecord.count _ _ _

/-! ## Releases (R84) -/

theorem dropClaims_wall (s : State) (c : Channel) (w : WorkingCopy) (k : SegmentIx) :
    (s.dropClaims c w).wall k =
      if k = w.segment ∧ (s.wall k).claim = some c then { s.wall k with claim := none } else s.wall k := by
  rw [(dropClaims_step s c c w).content k, dropClaims_segmentClaim]
  split <;> rfl

theorem dropClaims_feed (s : State) (c : Channel) (w : WorkingCopy) :
    (s.dropClaims c w).feed = { s.feed with outletClaims := (s.dropClaims c w).feed.outletClaims } := by
  unfold State.dropClaims
  dsimp only
  split <;> split <;> rfl

theorem dropClaims_record (s : State) (c : Channel) (w : WorkingCopy) (i : Slot) :
    (s.dropClaims c w).record i =
      if i = w.outlet ∧ s.outletClaim w.outlet = some c then { s.record i with pollDue := none } else s.record i := by
  have dropped (u : State) (feed : u.feed = s.feed) (records : u.records = s.records) :
      (if u.outletClaim w.outlet = some c then
        (u.setOutletClaim w.outlet none).setRecord w.outlet { u.record w.outlet with pollDue := none } else u).record i =
      if i = w.outlet ∧ s.outletClaim w.outlet = some c then { s.record i with pollDue := none } else s.record i := by
    have claim : u.outletClaim w.outlet = s.outletClaim w.outlet := by unfold State.outletClaim; rw [feed]
    have same (j : Slot) : u.record j = s.record j := by unfold State.record; rw [records]
    rw [claim, same]
    by_cases held : s.outletClaim w.outlet = some c
    · have read : ((u.setOutletClaim w.outlet none).setRecord w.outlet { s.record w.outlet with pollDue := none }).record i =
          if i = w.outlet then { s.record w.outlet with pollDue := none } else u.record i := table_read_write _ _ _ _
      rw [if_pos held, read, same]
      by_cases here : i = w.outlet
      · rw [if_pos here, if_pos ⟨here, held⟩, here]
      · rw [if_neg here, if_neg fun h => here h.1]
    · rw [if_neg held, if_neg fun h => held h.2, same]
  unfold State.dropClaims
  dsimp only
  split
  · exact dropped _ rfl rfl
  · exact dropped _ rfl rfl

theorem dropClaims_frame (s : State) (c : Channel) (w : WorkingCopy) : let u := s.dropClaims c w
    u = ((s.withFeed u.feed).withWalls u.walls).withRecords u.records := by
  unfold State.dropClaims
  dsimp only
  split <;> split <;> rfl

/-! ## PLACE (O32) -/

theorem takePlace_eq (u : State) (seq : Byte) (k : SegmentIx) {v : Nat} (low : 1 ≤ v) (high : v ≤ 4000) :
    u.takePlace seq (u8 k.val :: u16 v) =
      if (u.segment k).enabled then (u.place k v .manual none none).replyOk seq 0x10
        ((u.place k v .manual none none).wall k).placeBytes
      else u.refuse seq 0x10 .noSuch := by
  have value : ranged? 1 4000 (natOfBytes (u16 v)) = some v := by
    rw [natOfBytes_u16 v (by omega)]
    exact if_pos ⟨low, high⟩
  have bytes : u16 v = [u8 (v / 256), u8 v] := rfl
  rw [bytes] at value
  unfold State.takePlace
  rw [bytes]
  dsimp only
  rw [index?_u8 k (by omega), value]

end Sys2Proof.Proofs
end


section
/-! PROOFS. PLACE, the channels at a placement, and a release of claims (O32). -/

namespace Sys2Proof.Proofs

open Sys2Proof Sys2Proof.Machine Sys2Proof.Laws

variable {s t u : State} {c : Channel} {w : WorkingCopy} {k : SegmentIx}

/-- What a channel does at a placement into a segment, its own or another's. -/
def actsOnPlacement (k : SegmentIx) (maker : Option Channel) (c : Channel) (u : State) : State :=
  match (u.channel c).working, (u.channel c).state with
  | some y, .wait => if y.segment = k then u.openTest c else u
  | some y, .opened => if y.segment = k ∧ maker ≠ some c then u.fullTest c else u
  | _, _ => u

/-- A placement with both channels at work is the placement, then what each channel does, in one of the two orders. -/
theorem place_acts (v : Nat) (source : LayerSource) (d : Option DescriptorIx) (maker : Option Channel)
    (enabled : (s.segment k).enabled = true) (form : (s.wall k).Form s.pourClock) :
    ∃ u first, s.Places k v source d u ∧ s.place k v source d maker =
      actsOnPlacement k maker (otherChannel first) (actsOnPlacement k maker first (u.withFree (s.free + 1))) := by
  have free : (s.takePlacement k v source d).free = s.free := by
    rw [takePlacement_frame s k v source d]
    rfl
  refine ⟨s.takePlacement k v source d, if Config.channelBFirst (s.takePlacement k v source d).free then .b else .a,
    takePlacement_places v source d enabled form, ?_⟩
  rw [place_enabled v source d maker enabled, ← free]
  unfold State.bothChannels
  dsimp only
  rw [segmentPlacedFor_eq, segmentPlacedFor_eq]
  rfl

/-- What a release of a channel's claims leaves, and the other channel's test. -/
theorem releaseClaims_other (s : State) (c : Channel) (w : WorkingCopy) : let o := otherChannel c
    let u := s.dropClaims c w
    ((s.channel o).state ≠ .wait → s.releaseClaims c w = u) ∧
    (∀ y, (s.channel o).state = .wait → (s.channel o).working = some y → (s.channel o).void = false →
      u.blockFor o y = .none → u.Opens o (s.channel o) y (s.releaseClaims c w)) := by
  intro o u
  have same : u.channel o = s.channel o := dropClaims_channel s c o w
  refine ⟨fun away => openTest_other u o (by rw [same]; exact away), fun y waits working live free => ?_⟩
  have tested : s.releaseClaims c w = (u.openChannel o y).evaluateJam :=
    openTest_opens (by rw [same]; exact waits) (by rw [same]; exact working) (by rw [same]; exact live) free
  rw [tested, ← same]
  exact opens_evaluateJam (openChannel_opens u o y)

/-- What a placement of PLACE leaves of the segment and of GREEN_EXIT, with the channels' actions behind it. -/
structure PlacedInto (s : State) (k : SegmentIx) (v : Nat) (t : State) : Prop where
  remainder : (t.wall k).remainder = (v * 100000 + (s.wall k).remainder) % (s.segment k).area
  total : (t.wall k).placedTotal = min 4294967295 ((s.wall k).placedTotal + v)
  top : (t.wall k).top = (s.wall k).top + (s.wall k).gain (s.segment k).area v
  base : (t.wall k).base = (s.wall k).base
  elsewhere : ∀ j, j ≠ k → (t.wall j).top = (s.wall j).top ∧ (t.wall j).base = (s.wall j).base ∧
    (t.wall j).remainder = (s.wall j).remainder ∧ (t.wall j).placedTotal = (s.wall j).placedTotal ∧
    (t.wall j).queue = (s.wall j).queue
  green : (t.condition .greenExit) = ((s.takePlacement k v .manual none).condition .greenExit)
  queue : (t.wall k).queue = ((s.takePlacement k v .manual none).wall k).queue

theorem place_placedInto (v : Nat) (enabled : (s.segment k).enabled = true) :
    PlacedInto s k v (s.place k v .manual none none) := by
  obtain ⟨walls, conditions⟩ := place_keeps v .manual none none enabled
  have own := takePlacement_wall s k v .manual none enabled
  refine ⟨?_, ?_, ?_, ?_, fun j ne => ?_, conditions _ (by decide), ?_⟩
  · rw [walls k, own]
    rfl
  · rw [walls k, own]
    rfl
  · rw [walls k, own]
    rfl
  · rw [walls k, own]
    rfl
  · rw [walls j, takePlacement_wall_other s v .manual none ne]
    exact ⟨rfl, rfl, rfl, rfl, rfl⟩
  · rw [walls k]

/-- With no channel at work on the segment PLACE leaves feed, records, claims, other segments and other conditions. -/
theorem placeAlone_keeps (v : Nat) (enabled : (s.segment k).enabled = true)
    (away : ∀ c y, (s.channel c).working = some y → y.segment ≠ k) : let t := s.place k v .manual none none
    t.feed = s.feed ∧ t.records = s.records ∧ (t.wall k).claim = (s.wall k).claim ∧ (∀ j, j ≠ k → t.wall j = s.wall j) ∧
      ∀ x : Cond, x ≠ .greenExit → t.condition x = s.condition x := by
  dsimp only
  rw [place_alone v .manual none none enabled away]
  have frame := takePlacement_frame s k v .manual none
  unfold WallFrame at frame
  refine ⟨?_, ?_, ?_, fun j ne => takePlacement_wall_other s v .manual none ne, fun x ne => takePlacement_other s k v _ _ ne⟩
  · rw [frame]
    rfl
  · rw [frame]
    rfl
  · show ((s.takePlacement k v .manual none).wall k).claim = _
    rw [takePlacement_wall s k v .manual none enabled]
    rfl

/-- Settles O32: PLACE, the channels at any placement, and a release of claims. -/
theorem placeTurnsLitresIntoHeight : Obligations.PlaceTurnsLitresIntoHeight := by
  refine ⟨?_, ?_, ?_, ?_⟩
  · intro s seq k v running u
    have taken : exec (.place seq (u8 k.val :: u16 v)) s = .next (u.takePlace seq (u8 k.val :: u16 v)) :=
      exec_command running (fun u => u.takePlace seq (u8 k.val :: u16 v)) rfl
    clear_value u
    intro cmd w num area gain below low high
    have green (bottom : Nat) : below bottom = BottomBelow u bottom := Bool.and_comm _ _
    clear_value below
    rw [takePlace_eq u seq k low high] at taken
    refine ⟨fun disabled => ?_, fun enabled form => ?_⟩
    · rw [if_neg (by rw [disabled]; decide)] at taken
      exact taken
    · rw [if_pos enabled] at taken
      have frame := place_frame u k v .manual none none
      have placed := place_placedInto v enabled
      dsimp only at frame
      refine ⟨_, taken, ?_, placed.remainder, placed.total, placed.top, placed.base, fun flat => ?_, fun some_ room => ?_,
        fun l some_ full last => ?_, fun j ne => ?_, fun away => ?_⟩
      · generalize u.place k v .manual none none = t at frame
        rw [frame]
        rfl
      · have same := takePlacement_flat v .manual none enabled flat
        refine ⟨placed.queue.trans ?_, placed.green.trans ?_⟩
        · rw [same, wall_setWall_same]
        · rw [same]
          rfl
      · obtain ⟨queue, count⟩ := takePlacement_room v .manual none enabled form (Nat.ne_of_gt some_) room
        dsimp only
        rw [green]
        exact ⟨placed.queue.trans queue, (congrArg CondRecord.count placed.green).trans count⟩
      · obtain ⟨queue, count⟩ := takePlacement_merged v .manual none enabled form (Nat.ne_of_gt some_) full last
        dsimp only
        rw [green]
        exact ⟨placed.queue.trans queue, (congrArg CondRecord.count placed.green).trans count⟩
      · exact placed.elsewhere j ne
      · obtain ⟨feed, records, claim, walls, conditions⟩ := placeAlone_keeps v enabled away
        exact ⟨feed, records, claim, walls, conditions⟩
  · intro s seq k v running low high enabled t
    have taken := exec_command running (fun u => u.takePlace seq (u8 k.val :: u16 v)) (i := .place seq (u8 k.val :: u16 v)) rfl
    rw [takePlace_eq _ seq k low high, if_pos (by rw [silenceReset_frame]; exact enabled)] at taken
    exact taken
  · intro s k v source d maker acts
    exact ⟨place_disabled v source d maker, fun _ enabled form => place_acts v source d maker enabled form⟩
  · intro s c w o t held
    obtain ⟨away, opens⟩ := releaseClaims_other s c w
    exact ⟨s.dropClaims c w, dropClaims_frame s c w, dropClaims_feed s c w, dropClaims_wall s c w,
      fun i => (dropClaims_outletClaim s c w i).trans (if_congr (and_congr_right fun same => by rw [same]) rfl rfl), dropClaims_record s c w, rfl, away, opens⟩

end Sys2Proof.Proofs
end


section
/-! PROOFS. Arrivals and commits at the Feed Chain Engine (O52): the reason of a block, the open test and the FULL test by case,
a change to HALT, and what a commit takes from a channel. -/

namespace Sys2Proof.Proofs

open Sys2Proof Sys2Proof.Machine Sys2Proof.Laws

variable {s t u : State} {c : Channel} {w : WorkingCopy}

/-! ## The reason of a block (R78, R86) -/

/-- The Placement Store accepts feed for a segment. -/
def Accepts (s : State) (k : SegmentIx) : Prop :=
  ∃ z, s.placementSeen.bind CycleResult.hRef = some z ∧ (s.segment k).enabled = true ∧ (s.wall k).top < z - s.params.freeboard

theorem acceptance_noReference {k : SegmentIx} (h : s.placementSeen.bind CycleResult.hRef = none) :
    s.acceptance k = .noReference := by
  unfold State.acceptance
  rw [h]

theorem acceptance_accepts {k : SegmentIx} (h : Accepts s k) : s.acceptance k = .accepts := by
  obtain ⟨z, seen, enabled, room⟩ := h
  unfold State.acceptance
  rw [seen]
  exact if_pos ⟨enabled, room⟩

theorem acceptance_full {k : SegmentIx} (h : s.placementSeen.bind CycleResult.hRef ≠ none) (not : ¬ Accepts s k) :
    s.acceptance k = .full := by
  obtain ⟨z, seen⟩ := Option.ne_none_iff_exists'.1 h
  unfold State.acceptance
  rw [seen]
  exact if_neg fun ⟨enabled, room⟩ => not ⟨z, seen, enabled, room⟩

/-- An outlet is ready for an opening. -/
theorem outletReady_iff (s : State) (i : Slot) : s.outletReady i = true ↔
    (s.record i).state = .active ∧ ∃ ended delivered tag,
      (s.record i).lastReport = some (.outlet true ended false delivered tag) := by
  unfold State.outletReady
  dsimp only
  rw [Bool.and_eq_true, decide_eq_true_iff]
  refine and_congr_right fun _ => ?_
  cases report : (s.record i).lastReport with
  | none => exact ⟨fun h => absurd h Bool.false_ne_true, fun ⟨_, _, _, h⟩ => nomatch h⟩
  | some x =>
    cases x with
    | outlet ready ended fault delivered tag =>
      cases ready <;> cases fault <;> simp
    | jack h t f => exact ⟨fun h => absurd h Bool.false_ne_true, fun ⟨_, _, _, h⟩ => nomatch h⟩
    | sensor v f => exact ⟨fun h => absurd h Bool.false_ne_true, fun ⟨_, _, _, h⟩ => nomatch h⟩

theorem blockFor_noRef (h : s.placementSeen.bind CycleResult.hRef = none) : s.blockFor c w = .noRef := by
  unfold State.blockFor
  rw [acceptance_noReference h]

theorem blockFor_full (h : s.placementSeen.bind CycleResult.hRef ≠ none) (not : ¬ Accepts s w.segment) :
    s.blockFor c w = .segmentFull := by
  unfold State.blockFor
  rw [acceptance_full h not]

theorem blockFor_accepts (h : Accepts s w.segment) : s.blockFor c w =
    if (s.wall w.segment).claim = some (otherChannel c) then .segmentBusy
    else if s.outletClaim w.outlet = some (otherChannel c) then .outletBusy
    else if !s.outletReady w.outlet then .notReady
    else .none := by
  unfold State.blockFor
  rw [acceptance_accepts h]

/-! ## The open test by case (R86, R98) -/

/-- The context of a waiting channel whose failed test found a reason. -/
def reasoned (s : State) (x : ChannelContext) (r : BlockReason) : ChannelContext :=
  if x.blockReason = r then x else ChannelContext.blocked x r s.now s.params.blockS

theorem recordBlock_eq (s : State) (c : Channel) (r : BlockReason) :
    s.recordBlock c r = s.setChannel c (reasoned s (s.channel c) r) := by
  unfold reasoned
  by_cases same : (s.channel c).blockReason = r
  · rw [recordBlock_same same, if_pos same, setChannel_self]
  · rw [recordBlock_new same, if_neg same]

theorem reasoned_deferred (s : State) (x : ChannelContext) (r : BlockReason) : (reasoned s x r).deferred = x.deferred := by
  unfold reasoned
  split <;> rfl

/-- A failed test: the reason is recorded, and where deferral is allowed the descriptor is deferred. -/
theorem openTest_blocked (state : (s.channel c).state = .wait) (working : (s.channel c).working = some w)
    (live : (s.channel c).void = false) (h : s.blockFor c w ≠ .none) :
    let y := reasoned s (s.channel c) (s.blockFor c w)
    ((∀ d, ¬ s.MayDefer y d) → s.openTest c = (s.setChannel c y).evaluateJam) ∧
    (∀ d, s.MayDefer y d → s.openTest c = ((s.setChannel c { y with
      working := none, deferred := if d ∈ (s.channel c).deferred then (s.channel c).deferred
        else (s.channel c).deferred ++ [d] }).chooseNext c).evaluateJam) := by
  intro y
  have tested := openTest_waits state working live h
  rw [recordBlock_eq] at tested
  have own : (s.setChannel c y).channel c = y := channel_setChannel_same _ _ _
  have may (d : DescriptorIx) : (s.setChannel c y).MayDefer ((s.setChannel c y).channel c) d ↔ s.MayDefer y d := by
    rw [own, mayDefer_setChannel]
  refine ⟨fun not => ?_, fun d allowed => ?_⟩
  · rw [tested, deferralTest_fails fun d => mt (may d).1 (not d)]
  · rw [tested, deferralTest_passes ((may d).2 allowed), own, setChannel_setChannel]
    show ((s.setChannel c { y with working := none, deferred := if d ∈ y.deferred then y.deferred else y.deferred ++ [d] }
      ).chooseNext c).evaluateJam = _
    have list : y.deferred = (s.channel c).deferred := reasoned_deferred _ _ _
    rw [list]

/-! ## The FULL test (R90) -/

/-- A confirmed opening at or above its mark. -/
def Full (s : State) (c : Channel) (w : WorkingCopy) : Prop :=
  (s.channel c).state = .opened ∧ (s.channel c).openConfirmed = true ∧
    ∃ h, s.feed.seen.bind CycleResult.hRef = some h ∧ h - s.params.freeboard ≤ s.provisionalTop c w

theorem fullTest_full (working : (s.channel c).working = some w) (h : Full s c w) : s.fullTest c = s.askClose c .full := by
  obtain ⟨state, confirmed, z, seen, reached⟩ := h
  unfold State.fullTest
  dsimp only
  rw [state, working, seen]
  exact if_pos ⟨confirmed, reached⟩

theorem fullTest_not_full (working : (s.channel c).working = some w) (h : ¬ Full s c w) : s.fullTest c = s := by
  unfold State.fullTest
  dsimp only
  split
  · next y z state copy seen =>
    have same : w = y := Option.some.inj (working.symm.trans copy)
    exact if_neg fun ⟨confirmed, reached⟩ => h ⟨state, confirmed, z, seen, same ▸ reached⟩
  · rfl

/-! ## A change to HALT (R101, R102) -/

/-- The CLOSE that a stop makes a channel send. -/
def closesOf (x : ChannelContext) (c : Channel) (now : Nat) : List FeedExchange :=
  match x.state, x.working with
  | .opened, some w => if x.openConfirmed then
      [{ isOpen := false, channel := c, slot := w.outlet, tag := x.tag, litres := 0, stray := false, since := now }] else []
  | _, _ => []

/-- The context of a channel that has been stopped. -/
def stoppedContext (x : ChannelContext) (cause : CloseCause) : ChannelContext :=
  match x.state, x.working with
  | .opened, some _ => { x with state := .closing, closeCause := some cause, closeSent := x.openConfirmed }
  | .closing, _ => { x with closeCause := some cause }
  | .wait, _ => { x with state := .stopped, blockReason := .none, blockedSince := none, blockTimer := none }
  | .paused, _ => { x with state := .stopped, pause := none }
  | _, _ => x

/-- A stop replaces one context and queues one CLOSE at most. -/
theorem stopped_eq (f : Feed) (now : Nat) (cause : CloseCause) (c : Channel) :
    f.stopped now cause c = { f.setChannel c (stoppedContext (f.channel c) cause) with
      waiting := f.waiting ++ closesOf (f.channel c) c now } := by
  have same : f = { f.setChannel c (f.channel c) with waiting := f.waiting ++ [] } := by
    rw [List.append_nil]
    cases c <;> rfl
  have replaced (y : ChannelContext) : f.setChannel c y = { f.setChannel c y with waiting := f.waiting ++ [] } := by
    rw [List.append_nil]
    cases c <;> rfl
  unfold Feed.stopped stoppedContext closesOf
  dsimp only
  cases state : (f.channel c).state with
  | opened =>
    cases working : (f.channel c).working with
    | none => exact same
    | some w => rfl
  | closing => exact replaced _
  | wait => exact replaced _
  | paused => exact replaced _
  | idle => exact same
  | done => exact same
  | stopped => exact same

theorem stoppedContext_not_wait (x : ChannelContext) (cause : CloseCause) : (stoppedContext x cause).state ≠ .wait := by
  unfold stoppedContext
  cases state : x.state <;> cases x.working <;> simp [state]

theorem meetsJam_not_waiting (h : (s.channel c).state ≠ .wait) : s.meetsJam c = false :=
  Bool.eq_false_iff.2 fun meets => h ((meetsJam_iff s c).1 meets).1

/-- The feed after both channels have been stopped. -/
theorem halts_contexts (h : s.Halts t) :
    t.feed = { s.feed with channelA := stoppedContext s.feed.channelA .halt, channelB := stoppedContext s.feed.channelB .halt
                           waiting := t.feed.waiting } ∧
    (t.feed.waiting = s.feed.waiting ++ closesOf s.feed.channelA .a s.now ++ closesOf s.feed.channelB .b s.now ∨
      t.feed.waiting = s.feed.waiting ++ closesOf s.feed.channelB .b s.now ++ closesOf s.feed.channelA .a s.now) := by
  obtain ⟨first, feed⟩ := halts_feed h
  rw [stopped_eq, stopped_eq] at feed
  rw [feed]
  cases first
  · exact ⟨rfl, .inl rfl⟩
  · exact ⟨rfl, .inr rfl⟩

/-- After both channels have been stopped FEED_JAM has no source. -/
theorem halts_jam (h : s.Halts t) : (t.condition .feedJam).source = false := by
  have rests (d : Channel) : (t.channel d).state ≠ .wait := by
    obtain ⟨feed, -⟩ := halts_contexts h
    unfold State.channel
    rw [feed]
    cases d
    · exact stoppedContext_not_wait _ _
    · exact stoppedContext_not_wait _ _
  have again : t.evaluateJam = t := by
    obtain ⟨first, rfl⟩ := h
    exact evaluateJam_again _
  rw [← again, evaluateJam_source, meetsJam_not_waiting (rests .a), meetsJam_not_waiting (rests .b)]
  rfl

/-! ## Commits (R104 to R106) -/

/-- A commit took a working copy's segment. -/
def SegmentTaken (s : State) (segments : Table SegmentEntry 32) (w : WorkingCopy) : Prop :=
  (segments.read w.segment).enabled = true ∧ (s.segment w.segment).enabled = false

/-- A commit took a working copy's outlet. -/
def OutletTaken (s : State) (nodes : Table NodeEntry 128) (w : WorkingCopy) : Prop :=
  ((nodes.read w.outlet).enabled = true ∧ (s.node w.outlet).enabled = false) ∨
    ((s.node w.outlet).enabled = true ∧ ((nodes.read w.outlet).enabled = false ∨
      (nodes.read w.outlet).address ≠ (s.node w.outlet).address ∨ (nodes.read w.outlet).kind ≠ (s.node w.outlet).kind))

theorem segmentGone_iff (s : State) (segments : Table SegmentEntry 32) (w : WorkingCopy) :
    s.segmentGone segments w = true ↔ SegmentTaken s segments w := by
  unfold State.segmentGone SegmentTaken
  rw [Bool.and_eq_true, Bool.not_eq_true']

theorem outletGone_iff (s : State) (nodes : Table NodeEntry 128) (w : WorkingCopy) :
    s.outletGone nodes w = true ↔ OutletTaken s nodes w := by
  unfold State.outletGone nodeChange OutletTaken
  generalize nodes.read w.outlet = o, s.node w.outlet = n
  cases o.enabled <;> cases n.enabled <;> simp

/-- A step of the engine leaves the tables. -/
theorem engine_tables (h : EngineStep s t) : t.nodes = s.nodes ∧ t.segments = s.segments := by
  have frame := h.frame
  unfold FeedFrame at frame
  rw [frame]
  exact ⟨rfl, rfl⟩

theorem outletRemoved_step (s : State) (c : Channel) (w : WorkingCopy) : EngineStep s (s.outletRemoved c w) := by
  have released := (withdrawExchanges_step s c c).engine.trans (releaseClaims_step _ c w)
  unfold State.outletRemoved
  dsimp only
  split
  · exact released.trans (setChannel_step _ c _).engine
  · exact released.trans (setChannel_step _ c _).engine
  · exact (released.trans (setChannel_step _ c _).engine).trans (finishDescriptor_step _ c).engine

theorem commitChannelFor_step (before : State) (nodes : Table NodeEntry 128) (segments : Table SegmentEntry 32) (c : Channel)
    (s : State) : EngineStep s (State.commitChannelFor before nodes segments c s) := by
  have stays : EngineStep s s := (ChannelStep.refl c s).engine
  unfold State.commitChannelFor
  dsimp only
  split
  · exact stays
  · split
    · exact (openTest_step s c).engine
    · split
      · exact outletRemoved_step s c _
      · split
        · exact (askClose_step s c _).engine
        · exact stays
    · split
      · exact outletRemoved_step s c _
      · exact stays
    · exact stays

/-- The end of an opening whose outlet a commit took, by the cause of its CLOSE. -/
theorem outletRemoved_eq (s : State) (c : Channel) (w : WorkingCopy) : s.outletRemoved c w =
    (let r := (s.withdrawExchanges c).releaseClaims c w
     let y : ChannelContext := { r.channel c with dwellEndsAt := none }
     if y.closeCause = some .stop ∨ y.closeCause = some .halt then r.setChannel c { y with state := .stopped }
     else (r.setChannel c y).finishDescriptor c) := by
  unfold State.outletRemoved
  dsimp only
  split
  · next cause => rw [if_pos (.inl cause)]
  · next cause => rw [if_pos (.inr cause)]
  · next stop halt => rw [if_neg (by rintro (h | h); exacts [stop h, halt h])]

end Sys2Proof.Proofs
end


section
/-! PROOFS. A commit at the Feed Chain Engine, and the arrivals there (O52). -/

namespace Sys2Proof.Proofs

open Sys2Proof Sys2Proof.Machine Sys2Proof.Laws

variable {s t u : State} {c : Channel} {w : WorkingCopy} {nodes : Table NodeEntry 128} {segments : Table SegmentEntry 32}

/-! ## Contexts at a commit (R104, R106) -/

/-- A context whose block timer counts anew. -/
def timedContext (s : State) (x : ChannelContext) : ChannelContext :=
  { x with blockTimer := x.blockedSince.map fun since => since + s.params.blockS * 1000 }

theorem commitContext_kept {x : ChannelContext}
    (h : ∀ w, x.working = some w → ¬ SegmentTaken s segments w ∧ ¬ OutletTaken s nodes w) :
    s.commitContext nodes segments x = timedContext s x := by
  unfold State.commitContext timedContext
  cases working : x.working with
  | none =>
    dsimp only
    rw [Bool.or_false]
  | some w =>
    obtain ⟨segment, outlet⟩ := h w working
    dsimp only
    rw [Bool.eq_false_iff.2 (mt (segmentGone_iff _ _ _).1 segment), Bool.eq_false_iff.2 (mt (outletGone_iff _ _ _).1 outlet),
      Bool.or_false, Bool.or_false]

theorem commitContext_gone {x : ChannelContext} (working : x.working = some w)
    (h : SegmentTaken s segments w ∨ OutletTaken s nodes w) :
    s.commitContext nodes segments x = { timedContext s x with void := true } := by
  have gone : (s.segmentGone segments w || s.outletGone nodes w) = true := by
    rw [Bool.or_eq_true, segmentGone_iff, outletGone_iff]
    exact h
  unfold State.commitContext
  dsimp only
  rw [working]
  dsimp only
  rw [gone, Bool.or_true]
  unfold timedContext
  rw [← working]

/-- The state with both contexts as a commit leaves them. -/
def recast (s : State) (nodes : Table NodeEntry 128) (segments : Table SegmentEntry 32) : State :=
  s.withFeed { s.feed with channelA := s.commitContext nodes segments s.feed.channelA
                           channelB := s.commitContext nodes segments s.feed.channelB }

/-- That state as the channels begin to act. -/
def committed (s : State) (nodes : Table NodeEntry 128) (segments : Table SegmentEntry 32) : State :=
  (recast s nodes segments).withFree (s.free + 1)

theorem committed_eq (s : State) (nodes : Table NodeEntry 128) (segments : Table SegmentEntry 32) (c : Channel) :
    committed s nodes segments = ((s.setChannel c (s.commitContext nodes segments (s.channel c))).setChannel (otherChannel c)
      (s.commitContext nodes segments (s.channel (otherChannel c)))).withFree (s.free + 1) := by
  cases c <;> rfl

/-! ## The channels at a commit (R104, R105) -/

/-- What a channel does at a commit, by the state it was in. -/
def actsOnCommit (s : State) (nodes : Table NodeEntry 128) (segments : Table SegmentEntry 32) (c : Channel) (v : State) : State :=
  match (s.channel c).working, (s.channel c).state with
  | some _, .wait => v.openTest c
  | some w, .opened => if s.outletGone nodes w then v.outletRemoved c w
    else if s.segmentGone segments w then v.askClose c .void else v
  | some w, .closing => if s.outletGone nodes w then v.outletRemoved c w else v
  | _, _ => v

theorem commitChannelFor_eq {before v : State} (working : (before.channel c).working = (s.channel c).working)
    (state : (before.channel c).state = (s.channel c).state) (tables : v.nodes = s.nodes ∧ v.segments = s.segments) :
    State.commitChannelFor before nodes segments c v = actsOnCommit s nodes segments c v := by
  obtain ⟨sameNodes, sameSegments⟩ := tables
  have outlet (w : WorkingCopy) : v.outletGone nodes w = s.outletGone nodes w := by
    unfold State.outletGone State.node
    rw [sameNodes]
  have segment (w : WorkingCopy) : v.segmentGone segments w = s.segmentGone segments w := by
    unfold State.segmentGone State.segment
    rw [sameSegments]
  unfold State.commitChannelFor actsOnCommit
  dsimp only
  rw [working, state]
  cases (s.channel c).working with
  | none => rfl
  | some w =>
    dsimp only
    rw [outlet, segment]
    cases (s.channel c).state <;> rfl

/-- A commit: both contexts, the channels one after the other in a free order, the exchanges with slots not enabled, and
FEED_JAM. -/
theorem commitFeed_eq (s : State) (nodes : Table NodeEntry 128) (segments : Table SegmentEntry 32) : ∃ first,
    let v := actsOnCommit s nodes segments (otherChannel first) (actsOnCommit s nodes segments first (committed s nodes segments))
    s.commitFeed nodes segments =
      (v.withFeed { v.feed with waiting := v.feed.waiting.filter fun e => (v.node e.slot).enabled }).evaluateJam := by
  have working (d : Channel) : ((recast s nodes segments).channel d).working = (s.channel d).working := by cases d <;> rfl
  have state (d : Channel) : ((recast s nodes segments).channel d).state = (s.channel d).state := by cases d <;> rfl
  obtain ⟨first, acts⟩ : ∃ first, (recast s nodes segments).bothChannels (State.commitChannelFor (recast s nodes segments) nodes
      segments) = State.commitChannelFor (recast s nodes segments) nodes segments (otherChannel first)
        (State.commitChannelFor (recast s nodes segments) nodes segments first (committed s nodes segments)) := ⟨_, rfl⟩
  refine ⟨first, ?_⟩
  have one := commitChannelFor_eq (nodes := nodes) (segments := segments) (working first) (state first)
    (v := committed s nodes segments) ⟨rfl, rfl⟩
  have step := commitChannelFor_step (recast s nodes segments) nodes segments first (committed s nodes segments)
  rw [one] at acts step
  have tables := engine_tables step
  rw [commitChannelFor_eq (s := s) (working (otherChannel first)) (state (otherChannel first)) tables] at acts
  have whole : s.commitFeed nodes segments = (let v := (recast s nodes segments).bothChannels (State.commitChannelFor (recast s
        nodes segments) nodes segments)
    (v.withFeed { v.feed with waiting := v.feed.waiting.filter fun e => (v.node e.slot).enabled }).evaluateJam) := rfl
  dsimp only
  rw [whole, acts]

/-- A channel without a working copy does nothing at a commit. -/
theorem actsOnCommit_idle (none_ : (s.channel c).working = none) (v : State) : actsOnCommit s nodes segments c v = v := by
  unfold actsOnCommit
  rw [none_]

/-- A commit with one channel at rest. -/
theorem commitFeed_one (other : (s.channel (otherChannel c)).working = none) :
    let v := actsOnCommit s nodes segments c (committed s nodes segments)
    s.commitFeed nodes segments =
      (v.withFeed { v.feed with waiting := v.feed.waiting.filter fun e => (v.node e.slot).enabled }).evaluateJam := by
  obtain ⟨first, h⟩ := commitFeed_eq s nodes segments
  by_cases mine : first = c
  · rw [mine] at h
    rw [actsOnCommit_idle other] at h
    exact h
  · have same : otherChannel c = first := otherChannel_of_ne (Ne.symm mine)
    rw [← same, otherChannel_otherChannel, actsOnCommit_idle other] at h
    exact h

/-- A release with the other channel at rest is the end of the claims. -/
theorem releaseClaims_alone (other : (s.channel (otherChannel c)).working = none) : s.releaseClaims c w = s.dropClaims c w := by
  have none_ : ((s.dropClaims c w).channel (otherChannel c)).working = none := by rw [dropClaims_channel]; exact other
  unfold State.releaseClaims State.openTest
  dsimp only
  rw [none_]
  split
  · next h => exact nomatch h
  · rfl

/-- The claims' end behind a withdrawal of exchanges leaves each context. -/
theorem releaseClaims_alone_channel (other : (s.channel (otherChannel c)).working = none) (d : Channel) :
    ((s.withdrawExchanges d).releaseClaims c w).channel c = s.channel c := by
  rw [releaseClaims_alone (s := s.withdrawExchanges d) (by cases c <;> exact other), dropClaims_channel]
  cases c <;> rfl

/-- The states that the one working channel of a commit acts on. -/
theorem committed_one (working : (s.channel c).working = some w) (other : (s.channel (otherChannel c)).working = none) :
    let base := ((s.setChannel c (timedContext s (s.channel c))).setChannel (otherChannel c)
      (timedContext s (s.channel (otherChannel c)))).withFree (s.free + 1)
    (¬ SegmentTaken s segments w → ¬ OutletTaken s nodes w → committed s nodes segments = base) ∧
    (SegmentTaken s segments w ∨ OutletTaken s nodes w →
      committed s nodes segments = base.setChannel c { timedContext s (s.channel c) with void := true }) := by
  intro base
  have rests : s.commitContext nodes segments (s.channel (otherChannel c)) = timedContext s (s.channel (otherChannel c)) :=
    commitContext_kept fun v h => nomatch other.symm.trans h
  refine ⟨fun segment outlet => ?_, fun gone => ?_⟩
  · rw [committed_eq s nodes segments c, rests, commitContext_kept fun v h => ?_]
    have same : w = v := Option.some.inj (working.symm.trans h)
    exact ⟨same ▸ segment, same ▸ outlet⟩
  · rw [committed_eq s nodes segments c, rests, commitContext_gone working gone]
    show _ = State.setChannel (State.withFree _ _) c _
    cases c <;> rfl

/-- The channel of a commit that has an opening on an outlet that goes. -/
theorem actsOnCommit_outlet (working : (s.channel c).working = some w) (outlet : OutletTaken s nodes w)
    (state : (s.channel c).state = .opened ∨ (s.channel c).state = .closing) (v : State) :
    actsOnCommit s nodes segments c v = v.outletRemoved c w := by
  unfold actsOnCommit
  rw [working]
  rcases state with state | state <;> rw [state]
  · exact if_pos ((outletGone_iff s nodes w).2 outlet)
  · exact if_pos ((outletGone_iff s nodes w).2 outlet)

/-- The channel of a commit that has no opening that goes and does not wait. -/
theorem actsOnCommit_rests (working : (s.channel c).working = some w) (waits : (s.channel c).state ≠ .wait)
    (segment : (s.channel c).state = .opened → ¬ SegmentTaken s segments w)
    (outlet : (s.channel c).state = .opened ∨ (s.channel c).state = .closing → ¬ OutletTaken s nodes w) (v : State) :
    actsOnCommit s nodes segments c v = v := by
  unfold actsOnCommit
  rw [working]
  cases state : (s.channel c).state with
  | wait => exact absurd state waits
  | opened =>
    refine (if_neg (mt (outletGone_iff s nodes w).1 (outlet (.inl state)))).trans (if_neg ?_)
    exact mt (segmentGone_iff s segments w).1 (segment state)
  | closing => exact if_neg (mt (outletGone_iff s nodes w).1 (outlet (.inr state)))
  | _ => rfl

/-! ## Arrivals (O52) -/

theorem openTest_mode (s : State) (c : Channel) : (s.openTest c).mode = s.mode := by
  have frame := (openTest_step s c).frame
  unfold FeedFrame at frame
  rw [frame]
  rfl

/-- A change of rise mode at the engine that stops no channel. -/
theorem feedMode_tests {m : ModeChange} (h : m.new ≠ .halt ∨ s.mode ≠ .halt) : ∃ first,
    s.feedMode m = (((s.withFree (s.free + 1)).openTest first).openTest (otherChannel first)).evaluateJam := by
  have acts (c : Channel) {v : State} (mode : v.mode = s.mode) : State.feedModeFor m c v = v.openTest c :=
    if_neg fun ⟨new, halt⟩ => h.elim (absurd new) (absurd (mode.symm.trans halt))
  obtain ⟨first, both⟩ : ∃ first, s.bothChannels (State.feedModeFor m) = State.feedModeFor m (otherChannel first)
      (State.feedModeFor m first (s.withFree (s.free + 1))) := ⟨_, rfl⟩
  have one : State.feedModeFor m first (s.withFree (s.free + 1)) = (s.withFree (s.free + 1)).openTest first := acts first rfl
  refine ⟨first, ?_⟩
  unfold State.feedMode
  rw [both, one, acts (otherChannel first) (openTest_mode (s.withFree (s.free + 1)) first)]

/-- A change to HALT at the engine while the mode is HALT. -/
theorem feedMode_halts {m : ModeChange} (new : m.new = .halt) (mode : s.mode = .halt) : s.Halts (s.feedMode m) := by
  have acts (c : Channel) {v : State} (same : v.mode = s.mode) : State.feedModeFor m c v = v.stopChannel c .halt :=
    if_pos ⟨new, same.trans mode⟩
  obtain ⟨first, both⟩ : ∃ first, s.bothChannels (State.feedModeFor m) = State.feedModeFor m (otherChannel first)
      (State.feedModeFor m first (s.withFree (s.free + 1))) := ⟨_, rfl⟩
  have one : State.feedModeFor m first (s.withFree (s.free + 1)) = (s.withFree (s.free + 1)).stopChannel first .halt :=
    acts first rfl
  have kept : ((s.withFree (s.free + 1)).stopChannel first .halt).mode = s.mode := by
    rw [stopChannel_stopped, evaluateJam_mode]
    rfl
  refine ⟨first, ?_⟩
  unfold State.feedMode
  rw [both, one, acts (otherChannel first) kept]
  dsimp only
  rw [stopChannel_stopped, stopChannel_stopped, evaluateJam_again]

/-- Settles O52: the three arrivals, the open test and the FULL test by case, and a commit. -/
theorem feedArrivals : Obligations.FeedArrivals := by
  refine ⟨?_, ?_, ?_, ?_, ?_, ?_⟩
  · intro s r rest running under u
    have taken : exec .feedResultArrival s = .next ((s.withTransit { s.transit with feedResults := rest }).feedResult r) := by
      rw [exec_event running State.feedResultArrival rfl]
      unfold State.feedResultArrival
      rw [under]
    exact ⟨_, taken⟩
  · intro s m rest running under u closes
    have taken : exec .feedModeArrival s = .next ((s.withTransit { s.transit with feedModes := rest }).feedMode m) := by
      rw [exec_event running State.feedModeArrival rfl]
      unfold State.feedModeArrival
      rw [under]
    refine ⟨fun moves => ?_, fun new mode => ?_⟩
    · obtain ⟨first, tests⟩ := feedMode_tests (s := s.withTransit { s.transit with feedModes := rest }) moves
      exact ⟨first, taken.trans (congrArg _ tests)⟩
    · have halts := feedMode_halts (s := s.withTransit { s.transit with feedModes := rest }) new mode
      obtain ⟨feed, waiting⟩ := halts_contexts halts
      have jam := halts_jam halts
      have frame := halts_frame halts
      have conditions := (halts_engine halts).conditions
      refine ⟨_, taken, halts, frame, conditions, jam, ?_, waiting, fun c => ?_⟩
      · rw [feed]
        rfl
      · have own : ((s.withTransit { s.transit with feedModes := rest }).feedMode m).channel c =
            stoppedContext (s.channel c) .halt := by
          unfold State.channel
          rw [feed]
          cases c <;> rfl
        rw [own]
        unfold stoppedContext
        refine ⟨fun state working => ?_, fun state => ?_, fun state => ?_, fun state => ?_, fun state => ?_⟩
        · obtain ⟨w, working⟩ := Option.ne_none_iff_exists'.1 working
          rw [state, working]
        · rw [state]
        · rw [state]
        · rw [state]
        · rcases state with state | state | state <;> rw [state]
  · intro s c w working x o t reason y h accepts ready
    refine ⟨fun away => openTest_other s c away, fun waits void => openTest_void waits working void,
      fun waits live free => ?_, fun waits live blocked => openTest_blocked waits working live blocked, blockFor_noRef,
      blockFor_full, fun yes busy => ?_, fun yes free busy => ?_, fun yes free outlet not => ?_, fun yes free outlet is => ?_⟩
    · have tested : t = (s.openChannel c w).evaluateJam := openTest_opens waits working live free
      refine ⟨?_, (openTest_step s c).frame, ?_, (openTest_step s c).conditions⟩
      · rw [tested]
        exact opens_evaluateJam (openChannel_opens s c w)
      · rw [tested]
        exact evaluateJam_source_meets _
    · exact (blockFor_accepts yes).trans (if_pos busy)
    · exact ((blockFor_accepts yes).trans (if_neg free)).trans (if_pos busy)
    · refine (((blockFor_accepts yes).trans (if_neg free)).trans (if_neg outlet)).trans (if_pos ?_)
      rw [Bool.not_eq_true', Bool.eq_false_iff]
      exact mt (outletReady_iff s w.outlet).1 not
    · refine (((blockFor_accepts yes).trans (if_neg free)).trans (if_neg outlet)).trans (if_neg ?_)
      rw [Bool.not_eq_true', (outletReady_iff s w.outlet).2 is]
      decide
  · intro s c w working x top full
    exact ⟨fullTest_full working, fullTest_not_full working, fun cause state => askClose_eq cause state working,
      fun cause away => askClose_other cause away⟩
  · intro s nodes segments c w working other x o n segmentGone outletGone timed base u ends
    have whole := commitFeed_one (nodes := nodes) (segments := segments) other
    have both := committed_one (nodes := nodes) (segments := segments) working other
    have kept : ¬ segmentGone → ¬ outletGone → committed s nodes segments = base := both.1
    have gone : segmentGone ∨ outletGone → committed s nodes segments = u := both.2
    clear both
    have finish {v : State} (h : actsOnCommit s nodes segments c (committed s nodes segments) = v) : ends v := by
      dsimp only at whole
      rw [h] at whole
      exact whole
    have waits (state : x.state = .wait) (v : State) : actsOnCommit s nodes segments c v = v.openTest c := by
      unfold actsOnCommit
      rw [working, show (s.channel c).state = _ from state]
    refine ⟨fun segment outlet state => finish ?_, fun segment outlet state => finish ?_, fun taken state => finish ?_,
      fun segment outlet state => finish ?_, fun outlet state => ?_, fun taken state => finish ?_⟩
    · rw [waits state, kept segment outlet]
    · rw [actsOnCommit_rests working state (fun _ => segment) fun _ => outlet, kept segment outlet]
    · rw [waits state, gone taken]
    · rw [gone (.inl segment)]
      unfold actsOnCommit
      rw [working, show (s.channel c).state = _ from state]
      dsimp only
      rw [if_neg (mt (outletGone_iff s nodes w).1 outlet), if_pos ((segmentGone_iff s segments w).2 segment)]
    · have removed : actsOnCommit s nodes segments c (committed s nodes segments) = u.outletRemoved c w := by
        rw [actsOnCommit_outlet working outlet state, gone (.inr outlet)]
      have alone : (u.channel (otherChannel c)).working = none := by
        rw [← other]
        show (State.channel (State.setChannel (State.withFree _ _) c _) _).working = _
        cases c <;> rfl
      have own : u.channel c = { timed x with void := true } := channel_setChannel_same _ _ _
      have cause : (u.channel c).closeCause = x.closeCause := by rw [own]
      rw [outletRemoved_eq] at removed
      dsimp only at removed
      rw [releaseClaims_alone_channel alone, cause, releaseClaims_alone (s := u.withdrawExchanges c)
        (by cases c <;> exact alone), own] at removed
      intro v y
      refine ⟨fun stops => finish ?_, fun stop halt => finish ?_⟩
      · rw [removed, if_pos stops]
        rfl
      · rw [removed, if_neg (by rintro (h | h); exacts [stop h, halt h])]
        rfl
    · rw [actsOnCommit_rests working ?_ ?_ ?_, gone taken]
      · rcases state with ⟨state, -⟩ | state | state | state | state <;> rw [show (s.channel c).state = _ from state] <;> exact nofun
      · rcases state with ⟨state, -⟩ | state | state | state | state <;> rw [show (s.channel c).state = _ from state] <;> exact nofun
      · rcases state with ⟨state, outlet⟩ | state | state | state | state
        · exact fun _ => outlet
        all_goals rw [show (s.channel c).state = _ from state] ; rintro (h | h) <;> cases h
  · intro s nodes segments segmentGone outletGone timed removed acts u
    have gone (w : WorkingCopy) : (s.segmentGone segments w || s.outletGone nodes w) = decide (segmentGone w ∨ outletGone w) := by
      rw [Bool.eq_iff_iff, Bool.or_eq_true, decide_eq_true_iff, segmentGone_iff, outletGone_iff]
      exact Iff.rfl
    have context (x : ChannelContext) : s.commitContext nodes segments x = timed x := by
      unfold State.commitContext
      dsimp only
      cases working : x.working with
      | none =>
        show _ = ({ x with blockTimer := _, void := x.void || match x.working with
          | some w => decide (segmentGone w ∨ outletGone w)
          | none => false } : ChannelContext)
        rw [working]
      | some w =>
        show _ = ({ x with blockTimer := _, void := x.void || match x.working with
          | some w => decide (segmentGone w ∨ outletGone w)
          | none => false } : ChannelContext)
        rw [working]
        dsimp only
        rw [gone]
    have start : committed s nodes segments = u := by
      rw [committed_eq s nodes segments .a, context, context]
      rfl
    have does (c : Channel) (v : State) : actsOnCommit s nodes segments c v = acts c v := by
      show _ = (match (s.channel c).working, (s.channel c).state with
        | some _, .wait => v.openTest c
        | some w, .opened => if outletGone w then removed c w v else if segmentGone w then v.askClose c .void else v
        | some w, .closing => if outletGone w then removed c w v else v
        | _, _ => v)
      unfold actsOnCommit
      cases (s.channel c).working with
      | none => rfl
      | some w =>
        cases (s.channel c).state with
        | opened =>
          exact if_congr (outletGone_iff s nodes w) (outletRemoved_eq v c w) (if_congr (segmentGone_iff s segments w) rfl rfl)
        | closing => exact if_congr (outletGone_iff s nodes w) (outletRemoved_eq v c w) rfl
        | _ => rfl
    obtain ⟨first, h⟩ := commitFeed_eq s nodes segments
    dsimp only at h
    rw [does, does, start] at h
    exact ⟨first, h⟩

end Sys2Proof.Proofs
end


section
/-! PROOFS. The end of an opening (O60), part 1: the placement at the end with the other channel at rest, and the choice of the
next work. -/

namespace Sys2Proof.Proofs

open Sys2Proof Sys2Proof.Machine Sys2Proof.Laws

variable {s t u v : State} {c : Channel} {w : WorkingCopy} {k : SegmentIx}

/-! ## The next state (R93, R96, R97) -/

theorem afterOpening_stops (h : (s.channel c).closeCause = some .stop ∨ (s.channel c).closeCause = some .halt) :
    s.afterOpening c = s.setChannel c { s.channel c with state := .stopped } := by
  unfold State.afterOpening
  dsimp only
  rcases h with h | h <;> rw [h]

theorem afterOpening_finishes (working : (s.channel c).working = some w) (stop : (s.channel c).closeCause ≠ some .stop)
    (halt : (s.channel c).closeCause ≠ some .halt) (h : w.litres = 0 ∨ (s.channel c).closeCause = some .void) :
    s.afterOpening c = s.finishDescriptor c := by
  have litres : (((s.channel c).working.map WorkingCopy.litres).getD 0) = w.litres := by rw [working]; rfl
  unfold State.afterOpening
  dsimp only
  rw [litres]
  have runs {k : CloseCause} (some_ : decide (w.litres = 0) = false) (other : k ≠ .void)
      (cause : (s.channel c).closeCause = some k) : False :=
    h.elim (of_decide_eq_false some_) fun void => other (Option.some_inj.1 (cause.symm.trans void))
  split
  · next cause => exact absurd cause stop
  · next cause => exact absurd cause halt
  · rfl
  · next cause some_ =>
    exact (h.elim (of_decide_eq_false some_) fun void => nomatch cause.symm.trans void).elim
  · rfl
  · next cause some_ => exact (runs some_ (by decide) cause).elim
  · next cause some_ => exact (runs some_ (by decide) cause).elim
  · next cause some_ => exact (runs some_ (by decide) cause).elim

theorem afterOpening_short (working : (s.channel c).working = some w) (cause : (s.channel c).closeCause = none)
    (some_ : 0 < w.litres) : s.afterOpening c = s.feedShort c := by
  have litres : (((s.channel c).working.map WorkingCopy.litres).getD 0) = w.litres := by rw [working]; rfl
  unfold State.afterOpening
  dsimp only
  rw [litres, cause, decide_eq_false (Nat.ne_of_gt some_)]

theorem afterOpening_pauses (working : (s.channel c).working = some w) (cause : (s.channel c).closeCause = some .dwell ∨
    (s.channel c).closeCause = some .full ∨ (s.channel c).closeCause = some .notReady) (some_ : 0 < w.litres) :
    s.afterOpening c = s.pauseToResume c := by
  have litres : (((s.channel c).working.map WorkingCopy.litres).getD 0) = w.litres := by rw [working]; rfl
  unfold State.afterOpening
  dsimp only
  rw [litres, decide_eq_false (Nat.ne_of_gt some_)]
  rcases cause with cause | cause | cause <;> rw [cause]

theorem feedShort_eq (working : (s.channel c).working = some w) : s.feedShort c =
    ((s.setChannel c { s.channel c with working := some { w with litres := 0 } }).raise .feedShort
      ((s.channel c).current.map fun d => d.val)).finishDescriptor c := by
  unfold State.feedShort
  dsimp only
  rw [working]
  rfl

/-! ## Finishing a descriptor (R97) -/

/-- The state with the feed note of a finished descriptor. -/
def noted (s : State) (c : Channel) : State :=
  s.withFeed { s.feed with note := match (s.channel c).current with
    | some d => if (s.descriptor d).mark then some d else s.feed.note
    | none => s.feed.note }

theorem noted_marked {d : DescriptorIx} (current : (s.channel c).current = some d) :
    (if (s.descriptor d).mark then s.withFeed { s.feed with note := some d } else s) = noted s c := by
  unfold noted
  rw [current]
  dsimp only
  split <;> rfl

theorem noted_channel (s : State) (c d : Channel) : (noted s c).channel d = s.channel d := by cases d <;> rfl

theorem finishDescriptor_cases (s : State) (c : Channel) :
    let pauses := s.params.pauseS ≠ 0 ∧ ∃ d, (s.channel c).current = some d ∧ (s.descriptor d).pauseAfter = true
    (pauses → s.finishDescriptor c = (noted s c).enterPause c .after) ∧
    (¬ pauses → s.finishDescriptor c = (noted s c).chooseNext c) := by
  unfold State.finishDescriptor
  dsimp only
  cases current : (s.channel c).current with
  | none =>
    have same : noted s c = s := by
      unfold noted
      rw [current]
      rfl
    rw [same]
    exact ⟨fun h => absurd h.2 nofun, fun _ => rfl⟩
  | some d =>
    have params : (if (s.descriptor d).mark then s.withFeed { s.feed with note := some d } else s) = noted s c :=
      noted_marked current
    dsimp only
    rw [params]
    refine ⟨fun ⟨positive, e, same, after⟩ => if_pos ⟨?_, positive⟩, fun not => if_neg fun ⟨after, positive⟩ => ?_⟩
    · rw [Option.some.inj same]
      exact after
    · exact not ⟨positive, d, rfl, after⟩

/-! ## Choosing the next work (R97) -/

/-- A deferred descriptor that can be taken up. -/
def Ready (s : State) (d : DescriptorIx) : Prop :=
  (s.descriptor d).enabled = true ∧ s.acceptance (s.descriptor d).segment = .accepts ∧
    (s.wall (s.descriptor d).segment).claim = none

theorem examineDeferred_not_ready {d : DescriptorIx} (h : ¬ Ready s d) (ds : List DescriptorIx) :
    s.examineDeferred (d :: ds) =
      (if (s.descriptor d).enabled then d :: (s.examineDeferred ds).1 else (s.examineDeferred ds).1, (s.examineDeferred ds).2) := by
  rw [State.examineDeferred]
  cases enabled : (s.descriptor d).enabled with
  | false => rfl
  | true =>
    rw [if_neg (by decide), if_neg fun ⟨accepts, free⟩ => h ⟨enabled, accepts, free⟩, if_pos rfl]

theorem examineDeferred_found {d : DescriptorIx} (before after : List DescriptorIx) (ready : Ready s d)
    (first : ∀ e ∈ before, ¬ Ready s e) :
    s.examineDeferred (before ++ d :: after) = (before.filter (fun e => (s.descriptor e).enabled) ++ after, some d) := by
  induction before with
  | nil =>
    obtain ⟨enabled, accepts, free⟩ := ready
    rw [List.nil_append, State.examineDeferred, enabled, if_neg (by decide), if_pos ⟨accepts, free⟩]
    rfl
  | cons e es ih =>
    rw [List.cons_append, examineDeferred_not_ready (first e List.mem_cons_self),
      ih fun x mem => first x (List.mem_cons_of_mem _ mem), List.filter_cons]
    split <;> rfl

theorem examineDeferred_none {ds : List DescriptorIx} (h : ∀ d ∈ ds, ¬ Ready s d) :
    s.examineDeferred ds = (ds.filter fun e => (s.descriptor e).enabled, none) := by
  induction ds with
  | nil => rfl
  | cons e es ih =>
    rw [examineDeferred_not_ready (h e List.mem_cons_self), ih fun x mem => h x (List.mem_cons_of_mem _ mem), List.filter_cons]

/-- The descriptor that follows in a chain. -/
def Follows (s : State) (d : Option DescriptorIx) (n : DescriptorIx) : Prop :=
  (s.descriptor n).enabled = true ∧ ∃ e, d = some e ∧ (s.descriptor e).enabled = true ∧ (s.descriptor e).next = some n

theorem chainNext_eq_some_iff (s : State) (d : Option DescriptorIx) (n : DescriptorIx) :
    s.chainNext d = some n ↔ Follows s d n := by
  unfold State.chainNext Follows
  constructor
  · intro h
    split at h
    · exact nomatch h
    · next e =>
      dsimp only at h
      split at h
      · next enabled =>
        split at h
        · next m next =>
          split at h
          · next following =>
            cases h
            exact ⟨following, e, rfl, enabled, next⟩
          · exact nomatch h
        · exact nomatch h
      · exact nomatch h
  · rintro ⟨following, e, rfl, enabled, next⟩
    dsimp only
    rw [if_pos enabled, next]
    exact if_pos following

theorem chainNext_eq_none (h : ∀ n, ¬ Follows s (s.channel c).current n) : s.chainNext (s.channel c).current = none :=
  Option.eq_none_iff_forall_ne_some.2 fun n k => h n ((chainNext_eq_some_iff s _ n).1 k)

/-- The channel before it loads what it has chosen. -/
def chosen (s : State) (c : Channel) (ds : List DescriptorIx) : State :=
  s.setChannel c { s.channel c with
    working := none, pause := none, blockReason := .none, blockedSince := none, blockTimer := none, deferred := ds }

theorem chooseNext_deferred {d : DescriptorIx} {before after : List DescriptorIx}
    (list : (s.channel c).deferred = before ++ d :: after) (ready : Ready s d) (first : ∀ e ∈ before, ¬ Ready s e) :
    s.chooseNext c = (chosen s c (before.filter (fun e => (s.descriptor e).enabled) ++ after)).loadAndTest c d := by
  unfold State.chooseNext
  dsimp only
  rw [list, examineDeferred_found before after ready first]
  rfl

theorem chooseNext_chain {n : DescriptorIx} (none_ : ∀ d ∈ (s.channel c).deferred, ¬ Ready s d)
    (follows : Follows s (s.channel c).current n) : s.chooseNext c =
      (chosen s c ((s.channel c).deferred.filter fun e => (s.descriptor e).enabled)).loadAndTest c n := by
  unfold State.chooseNext
  dsimp only
  rw [examineDeferred_none none_, (chainNext_eq_some_iff s _ n).2 follows]
  rfl

theorem chooseNext_oldest {d : DescriptorIx} {ds : List DescriptorIx} (none_ : ∀ d ∈ (s.channel c).deferred, ¬ Ready s d)
    (ends : ∀ n, ¬ Follows s (s.channel c).current n)
    (list : (s.channel c).deferred.filter (fun e => (s.descriptor e).enabled) = d :: ds) :
    s.chooseNext c = (chosen s c ds).loadAndTest c d := by
  unfold State.chooseNext
  dsimp only
  rw [examineDeferred_none none_, chainNext_eq_none ends, list]
  rfl

theorem chooseNext_done (none_ : ∀ d ∈ (s.channel c).deferred, ¬ Ready s d)
    (ends : ∀ n, ¬ Follows s (s.channel c).current n)
    (list : (s.channel c).deferred.filter (fun e => (s.descriptor e).enabled) = []) :
    s.chooseNext c = s.setChannel c { s.channel c with
      state := .done, current := none, working := none, pause := none, blockReason := .none, blockedSince := none
      blockTimer := none, deferred := [] } := by
  unfold State.chooseNext
  dsimp only
  rw [examineDeferred_none none_, chainNext_eq_none ends, list]
  rfl

/-! ## A report or a change of state, by the channels (R86, R89, R95) -/

/-- A channel that works on an outlet and acts on its reports. -/
def ActsOn (s : State) (i : Slot) (c : Channel) : Prop :=
  ∃ w, (s.channel c).working = some w ∧ w.outlet = i ∧
    ((s.channel c).state = .wait ∨ (s.channel c).state = .opened ∨ (s.channel c).state = .closing)

/-- What a channel does at an outlet's event, by its state before: the open test, or what an opening does. -/
def judges (s : State) (i : Slot) (c : Channel) (opening : WorkingCopy → State → State) (v : State) : State :=
  match (s.channel c).working, (s.channel c).state with
  | some w, .wait => if w.outlet = i then v.openTest c else v
  | some w, .opened => if w.outlet = i then opening w v else v
  | some w, .closing => if w.outlet = i then opening w v else v
  | _, _ => v

theorem outletReportFor_eq (s : State) (i : Slot) (ready ended fault : Bool) (d tag : Nat) (c : Channel) (v : State) :
    State.outletReportFor s i (.outlet ready ended fault d tag) c v =
      judges s i c (fun w u => u.judgeOutletReport c w ready ended fault d tag) v := by
  unfold State.outletReportFor judges
  dsimp only
  cases (s.channel c).working with
  | none => rfl
  | some w =>
    dsimp only
    by_cases here : w.outlet = i
    · rw [if_pos here]
      cases (s.channel c).state with
      | wait | opened | closing => exact (if_pos here).symm
      | _ => rfl
    · rw [if_neg here]
      cases (s.channel c).state with
      | wait | opened | closing => exact (if_neg here).symm
      | _ => rfl

theorem outletStateFor_eq (s : State) (i : Slot) (miss : Bool) (c : Channel) (v : State) :
    State.outletStateFor s i miss c v = judges s i c (fun w u =>
      if (u.record i).state = .lost ∧ miss = false then u.judgeOutletReport c w false false true 0 0 else u) v := by
  have loses (w : WorkingCopy) : (if (v.record i).state = .lost ∧ !miss then v.openingFault c w else v) =
      if (v.record i).state = .lost ∧ miss = false then v.judgeOutletReport c w false false true 0 0 else v :=
    if_congr (and_congr_right fun _ => by rw [Bool.not_eq_true']) rfl rfl
  unfold State.outletStateFor judges
  dsimp only
  cases (s.channel c).working with
  | none => rfl
  | some w =>
    dsimp only
    by_cases here : w.outlet = i
    · rw [if_pos here]
      cases (s.channel c).state with
      | wait => exact (if_pos here).symm
      | opened | closing => exact (loses w).trans (if_pos here).symm
      | _ => rfl
    · rw [if_neg here]
      cases (s.channel c).state with
      | wait | opened | closing => exact (if_neg here).symm
      | _ => rfl

theorem judges_idle {i : Slot} {opening : WorkingCopy → State → State} (h : ¬ ActsOn s i c) (v : State) :
    judges s i c opening v = v := by
  unfold judges
  split
  · next w working state => exact if_neg fun here => h ⟨w, working, here, .inl state⟩
  · next w working state => exact if_neg fun here => h ⟨w, working, here, .inr (.inl state)⟩
  · next w working state => exact if_neg fun here => h ⟨w, working, here, .inr (.inr state)⟩
  · rfl

theorem judges_waits {i : Slot} {opening : WorkingCopy → State → State} (working : (s.channel c).working = some w)
    (here : w.outlet = i) (state : (s.channel c).state = .wait) (v : State) : judges s i c opening v = v.openTest c := by
  unfold judges
  rw [working, state]
  exact if_pos here

theorem judges_opening {i : Slot} {opening : WorkingCopy → State → State} (working : (s.channel c).working = some w)
    (here : w.outlet = i) (state : (s.channel c).state = .opened ∨ (s.channel c).state = .closing) (v : State) :
    judges s i c opening v = opening w v := by
  unfold judges
  rw [working]
  rcases state with state | state <;> rw [state] <;> exact if_pos here

/-- An event of both channels of which one alone acts. -/
theorem bothChannels_one {f : Channel → State → State} (other : ∀ v, f (otherChannel c) v = v) :
    s.bothChannels f = f c (s.withFree (s.free + 1)) := by
  obtain ⟨first, both⟩ : ∃ first, s.bothChannels f = f (otherChannel first) (f first (s.withFree (s.free + 1))) := ⟨_, rfl⟩
  rw [both]
  by_cases mine : first = c
  · rw [mine, other]
  · have same : otherChannel c = first := otherChannel_of_ne (Ne.symm mine)
    rw [← same, other, otherChannel_otherChannel]

end Sys2Proof.Proofs
end


section
/-! PROOFS. The end of an opening (O60), part 2: a report of the outlet, the litres placed and the claims ended. -/

namespace Sys2Proof.Proofs

open Sys2Proof Sys2Proof.Machine Sys2Proof.Laws

variable {s t u v : State} {c : Channel} {w : WorkingCopy} {k : SegmentIx}

/-- What a change of the wall and of GREEN_EXIT leaves of feed, records and the index of free orders. -/
theorem wallFrame_rest (h : WallFrame s t) : t.feed = s.feed ∧ t.records = s.records ∧ t.free = s.free := by
  unfold WallFrame at h
  generalize t.walls = x, t.conditions = y, t.mode = m, t.transit = r at h
  subst h
  exact ⟨rfl, rfl, rfl⟩

/-! ## The litres of an opening, placed -/

/-- The litres of an opening go to the Placement Store. -/
def delivers (c : Channel) (w : WorkingCopy) (litres : Nat) (current : Option DescriptorIx) (u : State) : State :=
  if litres = 0 then u else u.place w.segment litres (sourceOf c) current (some c)

theorem placeDelivered_eq (s : State) (c : Channel) (w : WorkingCopy) :
    s.placeDelivered c w = delivers c w (s.channel c).delivered (s.channel c).current s := rfl

/-- The context of a channel whose opening has ended. -/
def endedContext (x : ChannelContext) (w : WorkingCopy) (litres : Nat) : ChannelContext :=
  { x with delivered := litres, dwellEndsAt := none, working := some { w with litres := w.litres - litres } }

theorem onCopy_of_opening (working : (s.channel c).working = some w)
    (state : (s.channel c).state = .opened ∨ (s.channel c).state = .closing) : OnCopy c w s := by
  refine ⟨state, ?_⟩
  unfold ChannelContext.place
  rw [working]
  rfl

/-- An opening that ends as a fault, step by step. -/
theorem openingFault_eq (working : (s.channel c).working = some w)
    (state : (s.channel c).state = .opened ∨ (s.channel c).state = .closing) :
    let y := endedContext (s.channel c) w (s.channel c).delivered
    let p := delivers c w (s.channel c).delivered (s.channel c).current s
    s.openingFault c w = (((((p.setChannel c y).withdrawExchanges c).releaseClaims c w).raise .feedFault
      (some w.outlet.val)).setChannel c { y with state := .stopped }).evaluateJam := by
  intro y p
  have own : p.channel c = s.channel c := placeDelivered_channel (v := w) (onCopy_of_opening working state)
  have lowered : ({ (p.channel c).lowered with dwellEndsAt := none } : ChannelContext) = y := by
    rw [own]
    unfold ChannelContext.lowered
    rw [working]
    rfl
  have raised (q : State) : (q.raise .feedFault (some w.outlet.val)).channel c = q.channel c :=
    (raise_spares q _ (by decide) c).channel
  have last : ((((p.setChannel c y).withdrawExchanges c).releaseClaims c w).raise .feedFault (some w.outlet.val)).channel c = y := by
    rw [raised, releaseClaims_channel]
    show (p.setChannel c y).channel c = y
    exact channel_setChannel_same _ _ _
  unfold State.openingFault
  dsimp only
  rw [placeDelivered_eq]
  show ((((((p.setChannel c { (p.channel c).lowered with dwellEndsAt := none }).withdrawExchanges c).releaseClaims c w).raise _
    _).setChannel c _).evaluateJam) = _
  rw [lowered, last]

/-- An END of an opening, step by step. -/
theorem completeOpening_eq {x : ChannelContext} {d : Nat} (working : x.working = some w)
    (state : x.state = .opened ∨ x.state = .closing) : let u := s.setChannel c { x with delivered := d }
    u.completeOpening c w =
      ((((delivers c w d x.current u).releaseClaims c w).setChannel c (endedContext x w d)).afterOpening c).evaluateJam := by
  intro u
  have here : u.channel c = { x with delivered := d } := channel_setChannel_same _ _ _
  have own : (u.placeDelivered c w).channel c = u.channel c := by
    refine placeDelivered_channel (w := w) (onCopy_of_opening ?_ ?_)
    · rw [here]
      exact working
    · rw [here]
      exact state
  have placed : u.placeDelivered c w = delivers c w d x.current u := by rw [placeDelivered_eq, here]
  have lowered : ({ (((delivers c w d x.current u).releaseClaims c w).channel c).lowered with dwellEndsAt := none } :
      ChannelContext) = endedContext x w d := by
    rw [releaseClaims_channel, ← placed, own, here]
    unfold ChannelContext.lowered endedContext
    dsimp only
    rw [working]
    rfl
  unfold State.completeOpening
  dsimp only
  rw [placed, lowered]

/-! ## With the other channel at rest -/

/-- A channel's own placement with the other channel at rest is the placement alone. -/
theorem place_own (v : Nat) (source : LayerSource) (d : Option DescriptorIx)
    (state : (s.channel c).state = .opened ∨ (s.channel c).state = .closing)
    (other : (s.channel (otherChannel c)).working = none) (enabled : (s.segment k).enabled = true) :
    s.place k v source d (some c) = (s.takePlacement k v source d).withFree (s.free + 1) := by
  obtain ⟨-, -, free⟩ := wallFrame_rest (takePlacement_frame s k v source d)
  have channel (e : Channel) : ((s.takePlacement k v source d).withFree (s.free + 1)).channel e = s.channel e :=
    (takePlacement_spares s k v source d e).channel
  have mine : State.segmentPlacedFor k (some c) c ((s.takePlacement k v source d).withFree (s.free + 1)) =
      (s.takePlacement k v source d).withFree (s.free + 1) := by
    rw [segmentPlacedFor_eq, channel]
    rcases state with state | state <;> rw [state] <;> cases (s.channel c).working
    · rfl
    · exact if_neg fun h => h.2 rfl
    · rfl
    · rfl
  have theirs : State.segmentPlacedFor k (some c) (otherChannel c) ((s.takePlacement k v source d).withFree (s.free + 1)) =
      (s.takePlacement k v source d).withFree (s.free + 1) :=
    segmentPlacedFor_elsewhere _ _ _ _ fun y working => by rw [channel, other] at working; exact nomatch working
  obtain ⟨first, both⟩ : ∃ first, (s.takePlacement k v source d).bothChannels (State.segmentPlacedFor k (some c)) =
      State.segmentPlacedFor k (some c) (otherChannel first) (State.segmentPlacedFor k (some c) first
        ((s.takePlacement k v source d).withFree ((s.takePlacement k v source d).free + 1))) := ⟨_, rfl⟩
  rw [place_enabled v source d (some c) enabled, both, free]
  by_cases same : first = c
  · rw [same, mine, theirs]
  · have swap : otherChannel c = first := otherChannel_of_ne (Ne.symm same)
    rw [← swap, theirs, otherChannel_otherChannel, mine]

/-- The litres of an opening with the other channel at rest. -/
theorem delivers_cases {litres : Nat} {current : Option DescriptorIx}
    (state : (s.channel c).state = .opened ∨ (s.channel c).state = .closing)
    (other : (s.channel (otherChannel c)).working = none) :
    (litres = 0 ∨ (s.segment w.segment).enabled = false → delivers c w litres current s = s) ∧
    (0 < litres → (s.segment w.segment).enabled = true → delivers c w litres current s =
      (s.takePlacement w.segment litres (sourceOf c) current).withFree (s.free + 1)) := by
  unfold delivers
  refine ⟨fun h => ?_, fun some_ enabled => ?_⟩
  · split
    · rfl
    · next some_ => exact place_disabled _ _ _ _ (h.resolve_left some_)
  · rw [if_neg (Nat.ne_of_gt some_), place_own litres _ current state other enabled]

/-- A placement does not read the feed. -/
theorem places_withFeed {f : Feed} {v : Nat} {source : LayerSource} {d : Option DescriptorIx} {p : State}
    (h : (s.withFeed f).Places k v source d p) : s.Places k v source d (p.withFeed s.feed) := by
  unfold State.Places at h ⊢
  obtain ⟨frame, rest⟩ := h
  refine ⟨?_, rest⟩
  generalize p.walls = x, p.conditions = y, p.mode = m, p.transit = r at frame
  subst frame
  simp only [State.withFeed, State.withWalls, State.withConditions, State.withMode, State.withTransit]

theorem takePlacement_height (v : Nat) (source : LayerSource) (d : Option DescriptorIx)
    (enabled : (s.segment k).enabled = true) : let x := (s.takePlacement k v source d).wall k
    x.remainder = (v * 100000 + (s.wall k).remainder) % (s.segment k).area ∧
    x.placedTotal = min 4294967295 ((s.wall k).placedTotal + v) ∧
    x.top = (s.wall k).top + min ((v * 100000 + (s.wall k).remainder) / (s.segment k).area) (16777215 - (s.wall k).top) := by
  dsimp only
  rw [takePlacement_wall s k v source d enabled]
  exact ⟨rfl, rfl, rfl⟩

theorem takePlacement_masked (s : State) (k : SegmentIx) (v : Nat) (source : LayerSource) (d : Option DescriptorIx) :
    (s.takePlacement k v source d).conditions.masked = s.conditions.masked := by
  unfold State.takePlacement State.checkYoungest
  dsimp only
  split
  · split
    · rfl
    · split
      · split
        · exact raiseGreen_masked _ _ _
        · rfl
      · rfl
  · rfl

theorem dropClaims_rest (s : State) (c : Channel) (w : WorkingCopy) : (s.dropClaims c w).conditions = s.conditions ∧
    (s.dropClaims c w).mode = s.mode ∧ (s.dropClaims c w).transit = s.transit := by
  unfold State.dropClaims
  dsimp only
  split <;> split <;> exact ⟨rfl, rfl, rfl⟩

/-- What the end of an opening leaves of wall, claims, records, GREEN_EXIT and mode: the claims end, and the litres are placed
where the segment is enabled. -/
structure Settled (s : State) (c : Channel) (w : WorkingCopy) (litres : Nat) (current : Option DescriptorIx) (v : State) : Prop where
  outlet : v.outletClaim w.outlet = none
  segment : (v.wall w.segment).claim = none
  polls : v.record w.outlet = { s.record w.outlet with pollDue := none }
  slots : ∀ i, i ≠ w.outlet → v.outletClaim i = s.outletClaim i ∧ v.record i = s.record i
  walls : ∀ k, k ≠ w.segment → v.wall k = s.wall k
  none_ : litres = 0 ∨ (s.segment w.segment).enabled = false →
    v.wall w.segment = { s.wall w.segment with claim := none } ∧ v.condition .greenExit = s.condition .greenExit ∧
    v.mode = s.mode ∧ v.transit = s.transit
  placed : 0 < litres → (s.segment w.segment).enabled = true → (s.wall w.segment).Form s.pourClock →
    ∃ p, s.Places w.segment litres (sourceOf c) current p ∧
      v.wall w.segment = { p.wall w.segment with claim := none } ∧ v.condition .greenExit = p.condition .greenExit ∧
      v.mode = p.mode ∧ v.transit = p.transit
  height : 0 < litres → (s.segment w.segment).enabled = true →
    (v.wall w.segment).remainder = (litres * 100000 + (s.wall w.segment).remainder) % (s.segment w.segment).area ∧
    (v.wall w.segment).placedTotal = min 4294967295 ((s.wall w.segment).placedTotal + litres) ∧
    (v.wall w.segment).top = (s.wall w.segment).top + min ((litres * 100000 + (s.wall w.segment).remainder) /
      (s.segment w.segment).area) (16777215 - (s.wall w.segment).top)

/-- A state with the same claims, records, walls, GREEN_EXIT, mode and hand-offs. -/
theorem Settled.congr {litres : Nat} {current : Option DescriptorIx} (h : Settled s c w litres current t)
    (claims : v.feed.outletClaims = t.feed.outletClaims) (records : v.records = t.records) (walls : v.walls = t.walls)
    (green : v.condition .greenExit = t.condition .greenExit) (mode : v.mode = t.mode) (transit : v.transit = t.transit) :
    Settled s c w litres current v := by
  have claim (i : Slot) : v.outletClaim i = t.outletClaim i := congrArg (fun x => Table.read x i) claims
  have record (i : Slot) : v.record i = t.record i := congrArg (fun x => Table.read x i) records
  have wall (k : SegmentIx) : v.wall k = t.wall k := congrArg (fun x => Table.read x k) walls
  refine ⟨(claim _).trans h.outlet, ?_, (record _).trans h.polls, fun i ne => ?_, fun k ne => (wall k).trans (h.walls k ne),
    fun none_ => ?_, fun some_ enabled form => ?_, fun some_ enabled => ?_⟩
  · rw [wall]
    exact h.segment
  · rw [claim, record]
    exact h.slots i ne
  · rw [wall, green, mode, transit]
    exact h.none_ none_
  · rw [wall, green, mode, transit]
    exact h.placed some_ enabled form
  · rw [wall]
    exact h.height some_ enabled

/-- The end of the claims behind the placement of an opening, with the other channel at rest, whatever the feed. -/
theorem settled_delivered {litres : Nat} {current : Option DescriptorIx} {f : Feed}
    (claims : f.outletClaims = s.feed.outletClaims)
    (state : ((s.withFeed f).channel c).state = .opened ∨ ((s.withFeed f).channel c).state = .closing)
    (other : ((s.withFeed f).channel (otherChannel c)).working = none)
    (outlet : s.outletClaim w.outlet = some c) (segment : (s.wall w.segment).claim = some c) :
    Settled s c w litres current ((delivers c w litres current (s.withFeed f)).dropClaims c w) := by
  obtain ⟨none_, some_⟩ := delivers_cases (s := s.withFeed f) (w := w) (litres := litres) (current := current) state other
  have kept : (delivers c w litres current (s.withFeed f)).records = s.records ∧
      (delivers c w litres current (s.withFeed f)).feed.outletClaims = s.feed.outletClaims ∧
      ((delivers c w litres current (s.withFeed f)).wall w.segment).claim = (s.wall w.segment).claim ∧
      ∀ k, k ≠ w.segment → (delivers c w litres current (s.withFeed f)).wall k = s.wall k := by
    by_cases quiet : litres = 0 ∨ (s.segment w.segment).enabled = false
    · rw [none_ quiet]
      exact ⟨rfl, claims, rfl, fun _ _ => rfl⟩
    · obtain ⟨positive, on⟩ := not_or.1 quiet
      have enabled : (s.segment w.segment).enabled = true := by
        cases h : (s.segment w.segment).enabled
        · exact absurd h on
        · rfl
      rw [some_ (Nat.pos_of_ne_zero positive) enabled]
      obtain ⟨feed, records, -⟩ := wallFrame_rest (takePlacement_frame (s.withFeed f) w.segment litres (sourceOf c) current)
      refine ⟨records, ?_, ?_, fun k ne => takePlacement_wall_other (s.withFeed f) litres _ _ ne⟩
      · exact (congrArg Feed.outletClaims feed).trans claims
      · show (((s.withFeed f).takePlacement w.segment litres (sourceOf c) current).wall w.segment).claim = _
        rw [takePlacement_wall (s.withFeed f) w.segment litres (sourceOf c) current enabled]
        rfl
  obtain ⟨records, outlets, claim, walls⟩ := kept
  have held : (delivers c w litres current (s.withFeed f)).outletClaim w.outlet = some c := by
    unfold State.outletClaim
    rw [outlets]
    exact outlet
  have record (i : Slot) : (delivers c w litres current (s.withFeed f)).record i = s.record i := by
    unfold State.record
    rw [records]
  have wall : ((delivers c w litres current (s.withFeed f)).dropClaims c w).wall w.segment =
      { (delivers c w litres current (s.withFeed f)).wall w.segment with claim := none } := by
    rw [dropClaims_wall, if_pos ⟨rfl, claim.trans segment⟩]
  obtain ⟨conditions, mode, transit⟩ := dropClaims_rest (delivers c w litres current (s.withFeed f)) c w
  have green := condition_congr conditions .greenExit
  refine ⟨?_, ?_, ?_, fun i ne => ⟨?_, ?_⟩, fun k ne => ?_, fun quiet => ?_, fun positive enabled form => ?_,
    fun positive enabled => ?_⟩
  · rw [dropClaims_outletClaim, if_pos ⟨rfl, held⟩]
  · rw [wall]
  · rw [dropClaims_record, if_pos ⟨rfl, held⟩, record]
  · rw [dropClaims_outletClaim, if_neg fun h => ne h.1]
    unfold State.outletClaim
    rw [outlets]
  · rw [dropClaims_record, if_neg fun h => ne h.1, record]
  · rw [dropClaims_wall, if_neg fun h => ne h.1, walls k ne]
  · rw [wall, green, mode, transit, none_ quiet]
    exact ⟨rfl, rfl, rfl, rfl⟩
  · have places := takePlacement_places (s := s.withFeed f) (k := w.segment) litres (sourceOf c) current enabled form
    rw [wall, green, mode, transit, some_ positive enabled]
    exact ⟨_, places_withFeed places, rfl, rfl, rfl, rfl⟩
  · rw [wall, some_ positive enabled]
    have height := takePlacement_height (s := s.withFeed f) litres (sourceOf c) current enabled
    have sameWall : (s.withFeed f).wall w.segment = s.wall w.segment := rfl
    have sameSegment : (s.withFeed f).segment w.segment = s.segment w.segment := rfl
    dsimp only at height
    rw [sameWall, sameSegment] at height
    exact height

end Sys2Proof.Proofs
end


section
/-! PROOFS. The end of an opening and the work after it (O60). -/

namespace Sys2Proof.Proofs

open Sys2Proof Sys2Proof.Machine Sys2Proof.Laws

variable {s t u v : State} {c : Channel} {w : WorkingCopy}

/-- The state of an opening that has ended, before the next state: the litres placed, the claims ended, the litres lowered. -/
def ended (s : State) (c : Channel) (w : WorkingCopy) (x : ChannelContext) (litres : Nat) : State :=
  ((delivers c w litres x.current (s.setChannel c { x with delivered := litres })).dropClaims c w).setChannel c
    (endedContext x w litres)

/-- What a channel's own opening finds: it is at work, the other rests, and both claims are its own. -/
structure Alone (s : State) (c : Channel) (w : WorkingCopy) : Prop where
  working : (s.channel c).working = some w
  state : (s.channel c).state = .opened ∨ (s.channel c).state = .closing
  other : (s.channel (otherChannel c)).working = none
  outlet : s.outletClaim w.outlet = some c
  segment : (s.wall w.segment).claim = some c

theorem feed_setChannel_claims (f : Feed) (c : Channel) (x : ChannelContext) :
    (f.setChannel c x).outletClaims = f.outletClaims := by
  cases c <;> rfl

/-- The litres of an opening, with the other channel at rest, leave the contexts and the rest of the feed. -/
theorem delivers_feed {litres : Nat} {current : Option DescriptorIx}
    (state : (s.channel c).state = .opened ∨ (s.channel c).state = .closing)
    (other : (s.channel (otherChannel c)).working = none) :
    let p := delivers c w litres current s
    p.feed = s.feed ∧ p.free = (if 0 < litres ∧ (s.segment w.segment).enabled = true then s.free + 1 else s.free) ∧
    WallFrame s (p.withFree s.free) ∧
    (∀ z : Cond, z ≠ .greenExit → p.condition z = s.condition z) ∧ p.conditions.masked = s.conditions.masked := by
  intro p
  obtain ⟨none_, some_⟩ := delivers_cases (w := w) (litres := litres) (current := current) state other
  by_cases placed : 0 < litres ∧ (s.segment w.segment).enabled = true
  · have same : p = (s.takePlacement w.segment litres (sourceOf c) current).withFree (s.free + 1) :=
      some_ placed.1 placed.2
    have frame := takePlacement_frame s w.segment litres (sourceOf c) current
    obtain ⟨feed, -, free⟩ := wallFrame_rest frame
    rw [same, if_pos placed]
    refine ⟨feed, rfl, ?_, fun z ne => takePlacement_other s w.segment litres _ _ ne, takePlacement_masked s _ _ _ _⟩
    have back : ((s.takePlacement w.segment litres (sourceOf c) current).withFree (s.free + 1)).withFree s.free =
        s.takePlacement w.segment litres (sourceOf c) current := by
      rw [← free]
      rfl
    rw [back]
    exact frame
  · have quiet : litres = 0 ∨ (s.segment w.segment).enabled = false := by
      by_contra h
      obtain ⟨positive, on⟩ := not_or.1 h
      refine placed ⟨Nat.pos_of_ne_zero positive, ?_⟩
      cases e : (s.segment w.segment).enabled
      · exact absurd e on
      · rfl
    have same : p = s := none_ quiet
    rw [same, if_neg placed]
    exact ⟨rfl, rfl, .refl s, fun _ _ => rfl, rfl⟩

/-- The frame of a placement and an end of claims behind a change of the feed. -/
theorem frame_of_parts {f : Feed} {p q : State} {g : Feed} (taken : WallFrame (s.withFeed f) (p.withFree s.free))
    (dropped : q = ((p.withFeed q.feed).withWalls q.walls).withRecords q.records) (h : v = q.withFeed g) :
    v = ((((((s.withFeed v.feed).withWalls v.walls).withRecords v.records).withConditions v.conditions).withMode
        v.mode).withTransit v.transit).withFree v.free := by
  have back : p = (p.withFree s.free).withFree p.free := rfl
  generalize p.free = n at back
  generalize p.withFree s.free = r at taken back
  unfold WallFrame at taken
  generalize r.walls = x, r.conditions = y, r.mode = m, r.transit = z at taken
  generalize q.feed = a, q.walls = b, q.records = d at dropped
  subst taken back dropped h
  simp only [State.withFeed, State.withWalls, State.withConditions, State.withMode, State.withTransit, State.withFree,
    State.withRecords]

/-- An opening that has ended with the other channel at rest. -/
theorem ended_cases (alone : Alone s c w) (litres : Nat) : let x := s.channel c
    let v := ended s c w x litres
    Settled s c w litres x.current v ∧
    v = ((((((s.withFeed v.feed).withWalls v.walls).withRecords v.records).withConditions v.conditions).withMode
        v.mode).withTransit v.transit).withFree v.free ∧
    v.free = (if 0 < litres ∧ (s.segment w.segment).enabled = true then s.free + 1 else s.free) ∧
    v.feed = { s.feed.setChannel c (endedContext x w litres) with outletClaims := v.feed.outletClaims } ∧
    (∀ z : Cond, z ≠ .greenExit → v.condition z = s.condition z) ∧ v.conditions.masked = s.conditions.masked := by
  intro x v
  have own : (s.setChannel c { x with delivered := litres }).channel c = { x with delivered := litres } :=
    channel_setChannel_same _ _ _
  have state : ((s.setChannel c { x with delivered := litres }).channel c).state = .opened ∨
      ((s.setChannel c { x with delivered := litres }).channel c).state = .closing := by
    rw [own]
    exact alone.state
  have other : ((s.setChannel c { x with delivered := litres }).channel (otherChannel c)).working = none := by
    rw [← alone.other]
    cases c <;> rfl
  have settled := settled_delivered (s := s) (c := c) (w := w) (litres := litres) (current := x.current)
    (f := s.feed.setChannel c { x with delivered := litres }) (feed_setChannel_claims _ _ _) state other alone.outlet
    alone.segment
  obtain ⟨feed, free, taken, conditions, masked⟩ :=
    delivers_feed (w := w) (litres := litres) (current := x.current) state other
  have dropped := dropClaims_frame (delivers c w litres x.current (s.setChannel c { x with delivered := litres })) c w
  have dropFeed := dropClaims_feed (delivers c w litres x.current (s.setChannel c { x with delivered := litres })) c w
  obtain ⟨dropConditions, -, -⟩ :=
    dropClaims_rest (delivers c w litres x.current (s.setChannel c { x with delivered := litres })) c w
  have feed_ : v.feed = (((delivers c w litres x.current (s.setChannel c { x with delivered := litres })).dropClaims c
      w).feed).setChannel c (endedContext x w litres) := setChannel_feed _ _ _
  refine ⟨settled.congr ?_ rfl rfl rfl rfl rfl, frame_of_parts taken dropped rfl, ?_, ?_, fun z ne => ?_, ?_⟩
  · rw [feed_]
    exact feed_setChannel_claims _ _ _
  · refine Eq.trans ?_ free
    show ((delivers c w litres x.current (s.setChannel c { x with delivered := litres })).dropClaims c w).free = _
    have same (p : State) : (p.dropClaims c w).free = p.free := by
      unfold State.dropClaims
      dsimp only
      split <;> split <;> rfl
    exact same _
  · rw [feed_, dropFeed, feed]
    cases c <;> rfl
  · exact (condition_congr dropConditions z).trans (conditions z ne)
  · exact (congrArg Conditions.masked dropConditions).trans masked

end Sys2Proof.Proofs
end


section
/-! PROOFS. The end of an opening and the work after it (O60), the statement. -/

namespace Sys2Proof.Proofs

open Sys2Proof Sys2Proof.Machine Sys2Proof.Laws

variable {s t u v : State} {c : Channel} {w : WorkingCopy}

/-! ## An opening that ends as a fault, with the other channel at rest (R95) -/

/-- The end of claims does not depend on the rest of the feed. -/
theorem dropClaims_withFeed {g : Feed} (p : State) (c : Channel) (w : WorkingCopy) (h : g.outletClaims = p.feed.outletClaims) :
    ((p.withFeed g).dropClaims c w).feed.outletClaims = (p.dropClaims c w).feed.outletClaims ∧
    ((p.withFeed g).dropClaims c w).records = (p.dropClaims c w).records ∧
    ((p.withFeed g).dropClaims c w).walls = (p.dropClaims c w).walls := by
  have claim (i : Slot) : (p.withFeed g).outletClaim i = p.outletClaim i := congrArg (fun x => Table.read x i) h
  refine ⟨table_ext _ _ fun i => ?_, table_ext _ _ fun i => ?_, table_ext _ _ fun k => ?_⟩
  · have left := dropClaims_outletClaim (p.withFeed g) c w i
    rw [claim] at left
    exact left.trans (dropClaims_outletClaim p c w i).symm
  · have left := dropClaims_record (p.withFeed g) c w i
    rw [claim] at left
    exact left.trans (dropClaims_record p c w i).symm
  · exact (dropClaims_wall (p.withFeed g) c w k).trans (dropClaims_wall p c w k).symm

/-- The feed of a fault before its claims end: the context, and the channel's own exchanges withdrawn. -/
def withdrawn (f : Feed) (c : Channel) (y : ChannelContext) : Feed :=
  { f.setChannel c y with waiting := f.waiting.filter fun e => decide (e.channel ≠ c) || e.stray }

theorem fault_cases (alone : Alone s c w) : let x := s.channel c
    let y := endedContext x w x.delivered
    let t := s.openingFault c w
    Settled s c w x.delivered x.current t ∧ t.channel c = { y with state := .stopped } ∧
    t.channel (otherChannel c) = s.channel (otherChannel c) ∧
    t.feed.waiting = s.feed.waiting.filter (fun e => decide (e.channel ≠ c) || e.stray) ∧
    t.condition .feedFault = { state := .uncleared, source := false, detail := some w.outlet.val
                               count := min 255 ((s.condition .feedFault).count + 1) } := by
  intro x y t
  have eq := openingFault_eq alone.working alone.state
  dsimp only at eq
  obtain ⟨feed, -, -, conditions, -⟩ :=
    delivers_feed (w := w) (litres := x.delivered) (current := x.current) alone.state alone.other
  have settled := settled_delivered (s := s) (c := c) (w := w) (litres := x.delivered) (current := x.current)
    (f := s.feed) rfl alone.state alone.other alone.outlet alone.segment
  have start : s.withFeed s.feed = s := rfl
  rw [start] at settled
  have set (p : State) : (p.setChannel c y).withdrawExchanges c = p.withFeed (withdrawn p.feed c y) := by
    cases c <;> rfl
  have rest : ((delivers c w x.delivered x.current s).withFeed (withdrawn (delivers c w x.delivered x.current s).feed c
      y)).releaseClaims c w = ((delivers c w x.delivered x.current s).withFeed (withdrawn (delivers c w x.delivered x.current
      s).feed c y)).dropClaims c w := by
    refine releaseClaims_alone ?_
    rw [feed, ← alone.other]
    cases c <;> rfl
  have claims : (withdrawn (delivers c w x.delivered x.current s).feed c y).outletClaims =
      (delivers c w x.delivered x.current s).feed.outletClaims := feed_setChannel_claims _ c y
  obtain ⟨sameClaims, sameRecords, sameWalls⟩ := dropClaims_withFeed (delivers c w x.delivered x.current s) c w claims
  have dropFeed := dropClaims_feed ((delivers c w x.delivered x.current s).withFeed (withdrawn (delivers c w x.delivered
    x.current s).feed c y)) c w
  obtain ⟨dropConditions, dropMode, dropTransit⟩ := dropClaims_rest ((delivers c w x.delivered x.current s).withFeed (withdrawn
    (delivers c w x.delivered x.current s).feed c y)) c w
  obtain ⟨plainConditions, plainMode, plainTransit⟩ := dropClaims_rest (delivers c w x.delivered x.current s) c w
  rw [set, rest, raise_note _ _ _ (by decide)] at eq
  generalize ((delivers c w x.delivered x.current s).withFeed (withdrawn (delivers c w x.delivered x.current
    s).feed c y)).dropClaims c w = q at *
  have last : t = ((q.setCondition .feedFault ((q.condition .feedFault).raised .feedFault (some w.outlet.val))).setChannel c
      { y with state := .stopped }).evaluateJam := eq
  have tFeed : t.feed = q.feed.setChannel c { y with state := .stopped } := by
    rw [last, evaluateJam_feed, setChannel_feed]
    rfl
  have jam : ∀ z : Cond, z ≠ .feedJam → t.condition z =
      (q.setCondition .feedFault ((q.condition .feedFault).raised .feedFault (some w.outlet.val))).condition z := fun z ne => by
    rw [last]
    exact (evaluateJam_step _ c).conditions z ne
  have kept : t.records = q.records ∧ t.walls = q.walls ∧ t.mode = q.mode ∧ t.transit = q.transit := by
    rw [last, evaluateJam_frame]
    exact ⟨rfl, rfl, rfl, rfl⟩
  obtain ⟨tRecords, tWalls, tMode, tTransit⟩ := kept
  refine ⟨settled.congr ?_ (tRecords.trans sameRecords) (tWalls.trans sameWalls) ?_ ?_ ?_, ?_, ?_, ?_, ?_⟩
  · rw [tFeed, feed_setChannel_claims]
    exact sameClaims
  · rw [jam _ (by decide), setCondition_other _ _ (by decide)]
    exact (condition_congr dropConditions _).trans (condition_congr plainConditions.symm _)
  · exact (tMode.trans dropMode).trans plainMode.symm
  · exact (tTransit.trans dropTransit).trans plainTransit.symm
  · unfold State.channel
    rw [tFeed]
    cases c <;> rfl
  · have qFeed : (q.feed.setChannel c { y with state := .stopped }).channel (otherChannel c) = s.channel (otherChannel c) := by
      rw [feed_setChannel_other, dropFeed]
      show (withdrawn (delivers c w x.delivered x.current s).feed c y).channel (otherChannel c) = _
      rw [feed]
      cases c <;> rfl
    unfold State.channel at qFeed ⊢
    rw [tFeed, qFeed]
  · rw [tFeed]
    have waits : (q.feed.setChannel c { y with state := .stopped }).waiting = q.feed.waiting := by cases c <;> rfl
    rw [waits, dropFeed]
    show (delivers c w x.delivered x.current s).feed.waiting.filter _ = _
    rw [feed]
  · rw [jam _ (by decide), setCondition_same, raised_eq]
    have old : q.condition .feedFault = s.condition .feedFault :=
      (condition_congr dropConditions _).trans (conditions _ (by decide))
    rw [old]
    rfl

theorem evaluateJam_transit (s : State) : s.evaluateJam.transit = s.transit := by
  rw [evaluateJam_frame]
  rfl

/-- A new context and an evaluation of FEED_JAM leave an end of an opening settled. -/
theorem Settled.setChannel {litres : Nat} {current : Option DescriptorIx} (h : Settled s c w litres current v)
    (y : ChannelContext) : Settled s c w litres current (v.setChannel c y).evaluateJam := by
  refine h.congr ?_ ?_ ?_ ((evaluateJam_step _ c).conditions _ (by decide)) (evaluateJam_mode _) (evaluateJam_transit _)
  · rw [evaluateJam_feed, setChannel_feed, feed_setChannel_claims]
  · rw [evaluateJam_records, setChannel_records]
  · rw [evaluateJam_walls, setChannel_walls]

/-! ## The statement -/

/-- A report of another tag, or of an opening that goes on. -/
theorem judgeOutletReport_goes {x : ChannelContext} (own : x = s.channel c) (ready : Bool) (d : Nat) :
    let u := s.setChannel c { x with delivered := d }
    (x.state = .opened → x.openConfirmed = true → ready = true →
      s.judgeOutletReport c w ready false false d x.tag = u.fullTest c) ∧
    (x.state = .opened → x.openConfirmed = true → ready = false →
      s.judgeOutletReport c w ready false false d x.tag = u.askClose c .notReady) ∧
    (x.state = .closing ∨ x.openConfirmed = false → s.judgeOutletReport c w ready false false d x.tag = u) := by
  subst own
  intro u
  have goes : s.judgeOutletReport c w ready false false d (s.channel c).tag =
      if (s.channel c).state = .opened ∧ (s.channel c).openConfirmed then
        if ready then u.fullTest c else u.askClose c .notReady else u := by
    unfold State.judgeOutletReport
    dsimp only
    rw [if_neg Bool.false_ne_true, if_neg fun h => h rfl, if_neg Bool.false_ne_true]
  rw [goes]
  refine ⟨fun state confirmed on => ?_, fun state confirmed off => ?_, fun away => if_neg fun ⟨state, confirmed⟩ => ?_⟩
  · rw [if_pos ⟨state, confirmed⟩, if_pos on]
  · rw [if_pos ⟨state, confirmed⟩, off, if_neg Bool.false_ne_true]
  · rcases away with h | h
    · exact nomatch h.symm.trans state
    · rw [h] at confirmed
      exact absurd confirmed Bool.false_ne_true

theorem judgeOutletReport_fault (s : State) (c : Channel) (w : WorkingCopy) (ready ended : Bool) (d tag : Nat) :
    s.judgeOutletReport c w ready ended true d tag = s.openingFault c w := rfl

/-- Settles O60: a report of the outlet, the next state, the finish, the choice, the load, and the channels that a report or a
change of state reaches. -/
theorem anEndCompletesTheOpening : Obligations.AnEndCompletesTheOpening := by
  refine ⟨?_, ?_, ?_, ?_, ?_, ?_⟩
  · intro s c w ready ended fault d tag x t litres y u source delivered placed working state
    have judged : t = s.judgeOutletReport c w ready ended fault d tag := rfl
    clear_value t
    refine ⟨fun faulty => ?_, fun sound same done => ?_, fun sound other => ?_, fun sound same goes => ?_,
      fun other outlet segment => ⟨fun faulty => ?_, fun sound same done => ?_⟩⟩
    · subst faulty
      rw [judged, judgeOutletReport_fault]
      exact openingFault_eq working state
    · subst sound same done
      rw [judged]
      have whole : s.judgeOutletReport c w ready true false d x.tag = u.completeOpening c w := by
        unfold State.judgeOutletReport
        dsimp only
        rw [if_neg Bool.false_ne_true, if_neg fun h => h rfl, if_pos rfl]
      rw [whole]
      exact completeOpening_eq working state
    · subst sound
      rw [judged]
      unfold State.judgeOutletReport
      dsimp only
      rw [if_neg Bool.false_ne_true, if_pos other]
    · subst sound same goes
      rw [judged]
      exact judgeOutletReport_goes rfl ready d
    · subst faulty
      obtain ⟨settled, rest⟩ := fault_cases ⟨working, state, other, outlet, segment⟩
      rw [judged, judgeOutletReport_fault]
      exact ⟨⟨settled.outlet, settled.segment, settled.polls, settled.slots, settled.walls, settled.none_, settled.placed,
        settled.height⟩, rest⟩
    · subst sound same done
      obtain ⟨settled, frame, free, feed, conditions, masked⟩ := ended_cases ⟨working, state, other, outlet, segment⟩ d
      have own : u.channel c = { x with delivered := d } := channel_setChannel_same _ _ _
      have rests : (u.channel (otherChannel c)).working = none := by
        rw [← other]
        show (State.channel (State.setChannel s c _) _).working = _
        cases c <;> rfl
      have released : (delivers c w d x.current u).releaseClaims c w = (delivers c w d x.current u).dropClaims c w := by
        refine releaseClaims_alone ?_
        have kept := (delivers_feed (s := u) (c := c) (w := w) (litres := d) (current := x.current)
          (by rw [own]; exact state) rests).1
        unfold State.channel at rests ⊢
        rw [kept, rests]
      have whole : t = ((ended s c w x d).afterOpening c).evaluateJam := by
        have done : s.judgeOutletReport c w ready true false d x.tag = u.completeOpening c w := by
          unfold State.judgeOutletReport
          dsimp only
          rw [if_neg Bool.false_ne_true, if_neg fun h => h rfl, if_pos rfl]
        rw [judged, done]
        refine (completeOpening_eq working state).trans ?_
        rw [released]
        rfl
      refine ⟨_, ⟨settled.outlet, settled.segment, settled.polls, settled.slots, settled.walls, settled.none_, settled.placed,
        settled.height⟩, frame, free, feed, fun z green _ => conditions z green, masked, whole, fun stops => ?_⟩
      have last : (ended s c w x d).channel c = endedContext x w d := channel_setChannel_same _ _ _
      have stopped : t = ((ended s c w x d).setChannel c { endedContext x w d with state := .stopped }).evaluateJam := by
        rw [whole, afterOpening_stops (by rw [last]; exact stops), last]
      have again := settled.setChannel { endedContext x w d with state := .stopped }
      rw [← stopped] at again
      refine ⟨⟨again.outlet, again.segment, again.polls, again.slots, again.walls, again.none_, again.placed, again.height⟩, ?_, ?_⟩
      · rw [stopped, evaluateJam_channel, channel_setChannel_same]
        rfl
      · have restFeed : (ended s c w x d).feed.channel (otherChannel c) = s.feed.channel (otherChannel c) := by
          rw [feed]
          cases c <;> rfl
        rw [stopped, evaluateJam_channel]
        exact (feed_setChannel_other _ c _).trans restFeed
  · intro s c w x working
    refine ⟨afterOpening_stops, afterOpening_finishes working, fun cause some_ => ?_, fun cause some_ => ?_⟩
    · rw [afterOpening_short working cause some_, feedShort_eq working]
    · have pauses := afterOpening_pauses working cause some_
      refine ⟨fun positive => ?_, fun zero void => ?_, fun zero live => ?_⟩ <;> rw [pauses] <;> unfold State.pauseToResume
      · exact if_neg positive
      · exact (if_pos zero).trans (if_pos void)
      · refine (if_pos zero).trans (if_neg ?_)
        rw [show (s.channel c).void = _ from live]
        decide
  · intro s c x n u pauses
    obtain ⟨paused, chooses⟩ := finishDescriptor_cases s c
    refine ⟨fun h => (paused h).trans ?_, chooses⟩
    unfold State.enterPause
    rw [noted_channel]
    rfl
  · intro s c x enabled ready follows rests
    refine ⟨fun before d after list is first => chooseNext_deferred list is first, fun none_ => ⟨fun n is => ?_, fun ends => ?_⟩⟩
    · exact chooseNext_chain none_ is
    · exact ⟨fun d ds list => chooseNext_oldest none_ ends list, chooseNext_done none_ ends⟩
  · intro s c d w x e y waits
    exact ⟨fun working => loadAndTest_cases working, fun working => resumeWait_cases working⟩
  · intro s i report u acts
    have reports (c : Channel) (idle : ¬ acts c) (v : State) : State.outletReportFor s i report c v = v := by
      cases report with
      | outlet ready ended fault d tag => rw [outletReportFor_eq, judges_idle idle]
      | jack | sensor =>
        unfold State.outletReportFor
        dsimp only
        split
        · next h => exact nomatch h
        · rfl
    have states (c : Channel) (miss : Bool) (idle : ¬ acts c) (v : State) : State.outletStateFor s i miss c v = v := by
      rw [outletStateFor_eq, judges_idle idle]
    refine ⟨fun a b => ⟨?_, fun miss => ?_⟩, fun c w working here idle => ⟨fun waits => ⟨fun miss => ?_, ?_⟩,
      fun opening => ⟨?_, fun ready ended d tag lost => ?_, fun kept miss => ?_, ?_⟩⟩, ?_, fun miss => ?_⟩
    · exact (bothChannels_one (c := .a) (reports .b b)).trans (reports .a a _)
    · exact (bothChannels_one (c := .a) (states .b miss b)).trans (states .a miss a _)
    · refine (bothChannels_one (states _ miss idle)).trans ?_
      rw [outletStateFor_eq, judges_waits working here waits]
    · rintro ready ended fault d tag rfl
      refine (bothChannels_one (reports _ idle)).trans ?_
      rw [outletReportFor_eq, judges_waits working here waits]
    · rintro ready ended fault d tag rfl
      refine (bothChannels_one (reports _ idle)).trans ?_
      rw [outletReportFor_eq, judges_opening working here opening]
    · refine (bothChannels_one (states _ false idle)).trans ?_
      rw [outletStateFor_eq, judges_opening working here opening]
      exact if_pos ⟨lost, rfl⟩
    · refine (bothChannels_one (states _ miss idle)).trans ?_
      rw [outletStateFor_eq, judges_opening working here opening]
      exact if_neg fun h => kept h.1
    · refine (bothChannels_one (states _ true idle)).trans ?_
      rw [outletStateFor_eq, judges_opening working here opening]
      exact if_neg fun h => nomatch h.2
    · rintro ready ended fault d tag rfl
      obtain ⟨first, both⟩ : ∃ first, s.outletReport i (.outlet ready ended fault d tag) =
          State.outletReportFor s i (.outlet ready ended fault d tag) (otherChannel first)
            (State.outletReportFor s i (.outlet ready ended fault d tag) first u) := ⟨_, rfl⟩
      rw [outletReportFor_eq, outletReportFor_eq] at both
      exact ⟨first, both⟩
    · obtain ⟨first, both⟩ : ∃ first, s.outletStateChanged i miss =
          State.outletStateFor s i miss (otherChannel first) (State.outletStateFor s i miss first u) := ⟨_, rfl⟩
      rw [outletStateFor_eq, outletStateFor_eq] at both
      exact ⟨first, both⟩

end Sys2Proof.Proofs
end


section
/-! PROOFS. The limit monitors (O43): a value or a change of state judged by the enabled monitors of a slot, and the two
sources that each evaluates. -/

namespace Sys2Proof.Proofs

open Sys2Proof Sys2Proof.Machine Sys2Proof.Laws

variable {s t : State} {slot : Slot}

/-! ## Two sources, one after the other -/

theorem modesFrame_trans {u : State} (h : t = ((s.withConditions t.conditions).withMode t.mode).withTransit t.transit)
    (k : u = ((t.withConditions u.conditions).withMode u.mode).withTransit u.transit) :
    u = ((s.withConditions u.conditions).withMode u.mode).withTransit u.transit := by
  generalize u.conditions = conditions, u.mode = mode, u.transit = transit at k
  subst k
  generalize t.conditions = conditions', t.mode = mode', t.transit = transit' at h
  subst h
  rfl

/-- Two LEVEL conditions evaluated one after the other: each source is its own, and no other condition changes. -/
theorem evaluateBoth_cases (s : State) {c e : Cond} (a b : Bool) (d f : Option Nat) (ne : e ≠ c) (hc : c.kind = .level)
    (he : e.kind = .level) : let t := (s.evaluate c a d).evaluate e b f
    t = ((s.withConditions t.conditions).withMode t.mode).withTransit t.transit ∧
    (t.condition c).source = a ∧ (t.condition e).source = b ∧
    ∀ k : Cond, k ≠ c → k ≠ e → t.condition k = s.condition k := by
  refine ⟨?_, ?_, evaluate_source _ _ _ _ he, fun k kc ke => ?_⟩
  · exact modesFrame_trans (evaluate_frame s c a d) (evaluate_frame _ e b f)
  · rw [evaluate_other _ _ _ ne.symm, evaluate_source _ _ _ _ hc]
  · rw [evaluate_other _ _ _ ke, evaluate_other _ _ _ kc]

theorem find?_finRange_isSome {n : Nat} {q : Fin n → Bool} :
    ((List.finRange n).find? q).isSome = true ↔ ∃ i, q i = true := by
  rw [List.find?_isSome]
  simp

/-! ## The sources of the monitors (R147) -/

theorem trippedMonitor_isSome (s : State) (cls : MonitorClass) : (s.trippedMonitor cls).isSome = true ↔
    ∃ n, (s.monitor n).enabled = true ∧ (s.monitor n).cls = cls ∧ (s.monitorRecord n).tripped = true := by
  unfold State.trippedMonitor allMonitors
  rw [find?_finRange_isSome]
  simp [and_assoc]

/-- An evaluation of the two monitor conditions. -/
theorem evaluateMonitors_cases (s : State) : let t := s.evaluateMonitors
    t = ((s.withConditions t.conditions).withMode t.mode).withTransit t.transit ∧
    (t.condition .monitorHold).source = (s.trippedMonitor .hold).isSome ∧
    (t.condition .monitorNote).source = (s.trippedMonitor .note).isSome ∧
    ∀ k : Cond, k ≠ .monitorHold → k ≠ .monitorNote → t.condition k = s.condition k :=
  evaluateBoth_cases s _ _ _ _ (by decide) (by decide) (by decide)

theorem evaluateMonitors_monitors (s : State) : s.evaluateMonitors.monitors = s.monitors := by
  rw [(evaluateMonitors_cases s).1]
  rfl

/-- The details of the two monitor conditions are the lowest tripped monitors. -/
theorem evaluateMonitors_eq {held noted : Option MonitorIx}
    (hold : LowestOf (fun m => (s.monitor m).enabled = true ∧ (s.monitor m).cls = .hold ∧
      (s.monitorRecord m).tripped = true) held)
    (note : LowestOf (fun m => (s.monitor m).enabled = true ∧ (s.monitor m).cls = .note ∧
      (s.monitorRecord m).tripped = true) noted) :
    s.evaluateMonitors = (s.evaluate .monitorHold held.isSome (held.map Fin.val)).evaluate .monitorNote
      noted.isSome (noted.map Fin.val) := by
  have first : s.trippedMonitor .hold = held := lowestOf_find _ _ (fun m => by simp [and_assoc]) _ hold
  have second : s.trippedMonitor .note = noted := lowestOf_find _ _ (fun m => by simp [and_assoc]) _ note
  unfold State.evaluateMonitors
  rw [first, second]

/-! ## The monitors of a slot -/

theorem mem_monitorsOf {m : MonitorIx} :
    m ∈ s.monitorsOf slot ↔ (s.monitor m).enabled = true ∧ (s.monitor m).sensor = slot := by
  simp [State.monitorsOf, allMonitors]

theorem monitorsOf_nodup : (s.monitorsOf slot).Nodup := (List.nodup_finRange 8).filter _

/-- A run over some monitors that gives each its record by a function of the record it had. -/
theorem foldl_setMonitorRecord {s : State} (step : State → MonitorIx → State) (F : MonitorIx → MonitorRecord → MonitorRecord)
    (does : ∀ (u : State) (m : MonitorIx), u.monitors.entries = s.monitors.entries → u.pourClock = s.pourClock →
      step u m = u.setMonitorRecord m (F m (u.monitorRecord m))) :
    ∀ (ms : List MonitorIx) (u : State), ms.Nodup → u = s.withMonitors u.monitors → u.monitors.entries = s.monitors.entries →
      ms.foldl step u = s.withMonitors (ms.foldl step u).monitors ∧
      (ms.foldl step u).monitors.entries = s.monitors.entries ∧
      ∀ m, (ms.foldl step u).monitorRecord m = if m ∈ ms then F m (u.monitorRecord m) else u.monitorRecord m
  | [], u, _, frame, entries => ⟨frame, entries, fun m => by simp⟩
  | x :: xs, u, nodup, frame, entries => by
    obtain ⟨fresh, nodup⟩ := List.nodup_cons.1 nodup
    have next : step u x = u.setMonitorRecord x (F x (u.monitorRecord x)) := does u x entries (by rw [frame]; rfl)
    have kept : step u x = s.withMonitors (step u x).monitors := by
      rw [next]
      generalize hr : F x (u.monitorRecord x) = r
      rw [frame]
      rfl
    obtain ⟨all, same, read⟩ := foldl_setMonitorRecord step F does xs (step u x) nodup kept (by rw [next]; exact entries)
    refine ⟨all, same, fun m => (read m).trans ?_⟩
    have was : (step u x).monitorRecord m = if m = x then F x (u.monitorRecord x) else u.monitorRecord m := by
      rw [next]
      exact table_read_write _ _ _ _
    rw [was]
    by_cases e : m = x
    · subst e
      simp [fresh]
    · simp [e]

/-- What a value or a change of state does to the monitors of a slot: those of the slot take the record `F` gives them and
are evaluated, where there is one. -/
structure Judged (s : State) (slot : Slot) (F : MonitorIx → MonitorRecord → MonitorRecord) (t : State) : Prop where
  entries : t.monitors.entries = s.monitors.entries
  mine : ∀ m, (s.monitor m).enabled = true → (s.monitor m).sensor = slot → t.monitorRecord m = F m (s.monitorRecord m)
  others : ∀ m, ¬ ((s.monitor m).enabled = true ∧ (s.monitor m).sensor = slot) → t.monitorRecord m = s.monitorRecord m
  conditions : ∀ c : Cond, c ≠ .monitorHold → c ≠ .monitorNote → t.condition c = s.condition c
  evaluated : ∀ m, (s.monitor m).enabled = true → (s.monitor m).sensor = slot →
    t = (s.withMonitors t.monitors).evaluateMonitors
  none : (∀ m, (s.monitor m).enabled = true → (s.monitor m).sensor ≠ slot) → t = s

theorem judged_of_foldl (step : State → MonitorIx → State) (F : MonitorIx → MonitorRecord → MonitorRecord)
    (does : ∀ (u : State) (m : MonitorIx), u.monitors.entries = s.monitors.entries → u.pourClock = s.pourClock →
      step u m = u.setMonitorRecord m (F m (u.monitorRecord m)))
    (empty : s.monitorsOf slot = [] → t = s)
    (run : s.monitorsOf slot ≠ [] → t = ((s.monitorsOf slot).foldl step s).evaluateMonitors) : Judged s slot F t := by
  by_cases h : s.monitorsOf slot = []
  · obtain rfl := empty h
    have vacant (m : MonitorIx) : ¬ ((t.monitor m).enabled = true ∧ (t.monitor m).sensor = slot) := by
      rw [← mem_monitorsOf, h]
      exact List.not_mem_nil
    exact ⟨rfl, fun m on mine => absurd ⟨on, mine⟩ (vacant m), fun _ _ => rfl, fun _ _ _ => rfl,
      fun m on mine => absurd ⟨on, mine⟩ (vacant m), fun _ => rfl⟩
  · have ran := run h
    clear empty run
    obtain ⟨frame, entries, read⟩ := foldl_setMonitorRecord step F does _ s monitorsOf_nodup rfl rfl
    generalize ((s.monitorsOf slot).foldl step s) = u at *
    have monitors : t.monitors = u.monitors := by rw [ran, evaluateMonitors_monitors]
    have record (m : MonitorIx) : t.monitorRecord m = u.monitorRecord m := by rw [State.monitorRecord, monitors]; rfl
    refine ⟨by rw [monitors, entries], fun m on mine => ?_, fun m other => ?_, fun c hold note => ?_, fun m _ _ => ?_,
      fun none => ?_⟩
    · rw [record, read, if_pos (mem_monitorsOf.2 ⟨on, mine⟩)]
    · rw [record, read, if_neg fun mem => other (mem_monitorsOf.1 mem)]
    · rw [ran, (evaluateMonitors_cases u).2.2.2 c hold note, frame]
      rfl
    · rw [monitors, ← frame, ran]
    · exact absurd (List.eq_nil_iff_forall_not_mem.2 fun m mem => none m (mem_monitorsOf.1 mem).1 (mem_monitorsOf.1 mem).2) h

/-- After the evaluation the sources are active exactly while an enabled monitor of their class is TRIPPED. -/
theorem Judged.sources {F : MonitorIx → MonitorRecord → MonitorRecord} {m : MonitorIx} (h : Judged s slot F t)
    (on : (s.monitor m).enabled = true) (mine : (s.monitor m).sensor = slot) :
    ((t.condition .monitorHold).source = true ↔
      ∃ n, (t.monitor n).enabled = true ∧ (t.monitor n).cls = .hold ∧ (t.monitorRecord n).tripped = true) ∧
    ((t.condition .monitorNote).source = true ↔
      ∃ n, (t.monitor n).enabled = true ∧ (t.monitor n).cls = .note ∧ (t.monitorRecord n).tripped = true) := by
  obtain ⟨-, hold, note, -⟩ := evaluateMonitors_cases (s.withMonitors t.monitors)
  rw [← h.evaluated m on mine] at hold note
  rw [hold, note]
  exact ⟨trippedMonitor_isSome _ _, trippedMonitor_isSome _ _⟩

theorem judgeValue_judged (s : State) (i : Slot) (v : Int) :
    Judged s i (fun m r => r.judged (s.monitor m) v s.pourClock) (s.judgeValue i v) := by
  refine judged_of_foldl (fun t i => t.setMonitorRecord i ((t.monitorRecord i).judged (t.monitor i) v t.pourClock)) _
    (fun u m entries clock => ?_) (fun h => ?_) fun h => ?_
  · rw [State.monitor, entries, clock]
    rfl
  · unfold State.judgeValue
    rw [h]
  · unfold State.judgeValue
    split
    · next h' => exact absurd h' h
    · rfl

/-- The record that a change of a sensor's node state gives a monitor on it. -/
def toldRecord (new : NodeState) (r : MonitorRecord) : MonitorRecord :=
  match new.tripCause with
  | some c => r.trippedFor c
  | none => r

theorem setMonitorRecord_self (s : State) (m : MonitorIx) : s.setMonitorRecord m (s.monitorRecord m) = s := by
  unfold State.setMonitorRecord State.monitorRecord
  rw [table_write_read]
  rfl

theorem sensorStateChanged_judged (s : State) (i : Slot) (new : NodeState) :
    Judged s i (fun _ => toldRecord new) (s.sensorStateChanged i new) := by
  refine judged_of_foldl (fun t i => match new.tripCause with
    | some c => t.setMonitorRecord i ((t.monitorRecord i).trippedFor c)
    | none => t) _ (fun u m _ _ => ?_) (fun h => ?_) fun h => ?_
  · unfold toldRecord
    cases new.tripCause with
    | some c => rfl
    | none => exact (setMonitorRecord_self u m).symm
  · unfold State.sensorStateChanged
    rw [h]
  · unfold State.sensorStateChanged
    split
    · next h' => exact absurd h' h
    · rfl

/-! ## The bands of a monitor (R144) -/

/-- The cause of a monitor that keeps its state in the hold band. -/
theorem judged_stays {r : MonitorRecord} {e : MonitorEntry} {v : Int} {clock : Nat} (low : e.trips v = false)
    (high : e.clears v = false) : (r.judged e v clock).tripped = r.tripped ∧
    (r.judged e v clock).cause = if r.tripped then some .value else r.cause := by
  unfold MonitorRecord.judged
  cases h : r.tripped <;> simp [low, high, h]

theorem judged_trips {r : MonitorRecord} {e : MonitorEntry} {v : Int} {clock : Nat} (h : e.trips v = true) :
    (r.judged e v clock).tripped = true ∧ (r.judged e v clock).cause = some .value := by
  simp [MonitorRecord.judged, h]

theorem judged_clears {r : MonitorRecord} {e : MonitorEntry} {v : Int} {clock : Nat} (low : e.trips v = false)
    (h : e.clears v = true) : (r.judged e v clock).tripped = false ∧ (r.judged e v clock).cause = none := by
  simp [MonitorRecord.judged, low, h]

theorem judged_kept (r : MonitorRecord) (e : MonitorEntry) (v : Int) (clock : Nat) :
    (r.judged e v clock).lastValue = some v ∧ (r.judged e v clock).judgedAt = some clock := by
  unfold MonitorRecord.judged
  cases e.trips v <;> cases e.clears v <;> cases h : r.tripped <;> simp [h]

theorem trips_rising {e : MonitorEntry} {v : Int} (h : e.direction = .rising) :
    e.trips v = decide (e.levels.read e.select ≤ v) := by
  unfold MonitorEntry.trips
  rw [h]
  rfl

theorem trips_falling {e : MonitorEntry} {v : Int} (h : e.direction = .falling) :
    e.trips v = decide (v ≤ e.levels.read e.select) := by
  unfold MonitorEntry.trips
  rw [h]
  rfl

theorem clears_rising {e : MonitorEntry} {v : Int} (h : e.direction = .rising) :
    e.clears v = decide (v < e.levels.read e.select - e.hysteresis) := by
  unfold MonitorEntry.clears
  rw [h]
  rfl

theorem clears_falling {e : MonitorEntry} {v : Int} (h : e.direction = .falling) :
    e.clears v = decide (e.levels.read e.select + e.hysteresis < v) := by
  unfold MonitorEntry.clears
  rw [h]
  rfl

/-- Settles O43: a value by the bands of each direction, a slot without monitors, the details, and a change of state by
its cause. -/
theorem monitorsJudge : Obligations.MonitorsJudge := by
  refine ⟨?_, fun s i none => ⟨fun v => (judgeValue_judged s i v).none none, fun new =>
    (sensorStateChanged_judged s i new).none none⟩, ?_, ?_⟩
  · intro s i v m t e level mine r stays
    have judged := judgeValue_judged s i v
    refine ⟨judged.entries, judged.others m, fun ⟨on, slot⟩ => ?_, judged.conditions, fun ⟨on, slot⟩ =>
      judged.evaluated m on slot⟩
    have record : r = (s.monitorRecord m).judged e v s.pourClock := judged.mine m on slot
    obtain ⟨value, clock⟩ := judged_kept (s.monitorRecord m) e v s.pourClock
    obtain ⟨holds, notes⟩ := judged.sources on slot
    have positive : (0 : Int) ≤ e.hysteresis := Int.natCast_nonneg _
    refine ⟨record ▸ value, record ▸ clock, fun rising high => ?_, fun rising low => ?_, fun rising below above => ?_,
      fun falling low => ?_, fun falling high => ?_, fun falling above below => ?_, holds, notes⟩
    · exact record ▸ judged_trips ((trips_rising rising).trans (decide_eq_true high))
    · have under : ¬ e.levels.read e.select ≤ v := by simp only [level] at low; omega
      exact record ▸ judged_clears ((trips_rising rising).trans (decide_eq_false under))
        ((clears_rising rising).trans (decide_eq_true low))
    · show r.tripped = _ ∧ r.cause = _
      exact record ▸ judged_stays ((trips_rising rising).trans (decide_eq_false (not_le.2 below)))
        ((clears_rising rising).trans (decide_eq_false (not_lt.2 above)))
    · exact record ▸ judged_trips ((trips_falling falling).trans (decide_eq_true low))
    · have above : ¬ v ≤ e.levels.read e.select := by simp only [level] at high; omega
      exact record ▸ judged_clears ((trips_falling falling).trans (decide_eq_false above))
        ((clears_falling falling).trans (decide_eq_true high))
    · show r.tripped = _ ∧ r.cause = _
      exact record ▸ judged_stays ((trips_falling falling).trans (decide_eq_false (not_le.2 above)))
        ((clears_falling falling).trans (decide_eq_false (not_lt.2 below)))
  · intro s held noted tripped hold note
    exact evaluateMonitors_eq hold note
  · intro s i new m t mine tripped
    have judged := sensorStateChanged_judged s i new
    refine ⟨judged.entries, fun kept => ?_, fun ⟨on, slot⟩ => ?_, judged.conditions, fun ⟨on, slot⟩ =>
      judged.evaluated m on slot⟩
    · by_cases h : mine
      · have quiet : new.tripCause = none := by
          rcases kept with no | rfl | rfl
          · exact absurd h no
          · rfl
          · rfl
        refine (judged.mine m h.1 h.2).trans ?_
        simp [toldRecord, quiet]
      · exact judged.others m h
    · have record := judged.mine m on slot
      obtain ⟨holds, notes⟩ := judged.sources on slot
      refine ⟨fun lost => ?_, fun faulted => ?_, fun disabled => ?_, holds, notes⟩
      · subst lost
        exact record
      · subst faulted
        exact record
      · subst disabled
        exact record

end Sys2Proof.Proofs
end


section
/-! PROOFS. Stroke verification (O42): the bands of the two checks, the short counter with JACK_SHORT, and the slip that takes
the mode to HALT. -/

namespace Sys2Proof.Proofs

open Sys2Proof Sys2Proof.Machine Sys2Proof.Laws

variable {s t u : State} {i : Slot}

/-! ## The short counter (R36) -/

/-- A slot whose short counter has reached the limit, under the counters of a later state. -/
def IsShort (s t : State) (j : Slot) : Prop :=
  (s.node j).enabled = true ∧ (s.node j).kind = .jack ∧ s.params.shortLimit ≤ (t.record j).shortCounter

/-- The JACK_SHORT record after an evaluation, under the slots that are short. -/
theorem evaluateShort_cases (s : State) : let old := s.condition .jackShort
    let new := s.evaluateShort.condition .jackShort
    (new.source = true ↔ ∃ j, IsShort s s j) ∧ (new.source = old.source → new = old) ∧
    (∀ j, old.source = false → IsShort s s j → (∀ k, k < j → ¬ IsShort s s k) →
      new = { state := .raised, source := true, detail := some j.val, count := min 255 (old.count + 1) }) ∧
    (old.source = true → (∀ j, ¬ IsShort s s j) → new = { old with source := false, state := (match old.state with
      | .raised => .uncleared
      | .standing => .idle
      | .uncleared => .uncleared
      | .idle => .idle) }) := by
  intro old new
  have lowest (o : Option Slot) (h : LowestOf (IsShort s s) o) : s.shortJack = o :=
    lowestOf_find _ _ (fun j => by simp [IsShort, and_assoc]) o h
  have source : new.source = s.shortJack.isSome := evaluate_source _ _ _ _ rfl
  refine ⟨?_, fun same => ?_, fun j off mine low => ?_, fun on none => ?_⟩
  · rw [source, State.shortJack, allSlots, find?_finRange_isSome]
    simp [IsShort, and_assoc]
  · exact congrArg (·.condition .jackShort) (evaluate_same s _ _ _ (same.symm.trans source))
  · have found := lowest (some j) ⟨mine, low⟩
    have raised : s.evaluateShort = s.raise .jackShort (some j.val) := by
      unfold State.evaluateShort
      rw [found]
      exact evaluate_raises s _ _ off
    exact (congrArg (·.condition .jackShort) raised).trans ((raise_same _ _ _).trans (raised_eq _ _ _))
  · have found := lowest .none none
    have cleared : s.evaluateShort = s.clear .jackShort := by
      unfold State.evaluateShort
      rw [found]
      exact evaluate_clears s _ _ on
    refine (congrArg (·.condition .jackShort) cleared).trans ((clear_same _ _).trans ((cleared_eq _).trans ?_))
    cases old.state <;> rfl

/-! ## The checks (R33, R34) -/

/-- The two checks as one: past the two bands only a confirmed stroke moves the short counter. -/
def strokeChecked (s : State) (i : Slot) (achieved : Int) (expected : Nat) (confirmed : Prop) [Decidable confirmed] : State :=
  if achieved < -(s.params.slipTol : Int) then s.raise .jackSlip (some i.val)
  else if (expected : Int) + s.params.overTol < achieved then s.raise .jackOver (some i.val)
  else if confirmed then s.setShort i (if 0 < expected ∧ achieved < (expected : Int) - s.params.shortTol then
    min 15 ((s.record i).shortCounter + 1) else 0)
  else s

theorem standardCheck_eq (s : State) (i : Slot) (achieved : Int) (expected : Nat) :
    s.standardCheck i achieved expected = strokeChecked s i achieved expected True := by
  unfold State.standardCheck strokeChecked
  dsimp only
  split_ifs <;> rfl

theorem tolerantCheck_eq (s : State) (i : Slot) (achieved : Int) (expected : Nat) :
    s.tolerantCheck i achieved expected = strokeChecked s i achieved expected False := by
  unfold State.tolerantCheck strokeChecked
  rw [if_neg not_false]

/-- The state behind the checks, before the entry into HALT stops the feed. -/
def strokeVerified (s : State) (i : Slot) (achieved : Int) : State :=
  (strokeChecked s i achieved (((s.expectation i).map Expectation.demand).getD 0)
    (∀ x, s.expectation i = some x → x.confirmed = true)).setExpectation i none

theorem verifyStroke_eq (s : State) (i : Slot) (height p : Nat) :
    s.verifyStroke i height (some p) = (strokeVerified s i ((height : Int) - p)).haltFeed s.mode := by
  unfold State.verifyStroke strokeVerified
  refine congrArg (fun u => (State.setExpectation u i none).haltFeed s.mode) ?_
  dsimp only
  cases h : s.expectation i with
  | none => simp [standardCheck_eq]
  | some e =>
    dsimp only
    split
    · next yes => simp [standardCheck_eq, yes]
    · next no => simp [tolerantCheck_eq, no]

/-- What the checks leave: records but for one short counter, and no more than conditions and the mode they move. -/
structure CheckFrame (s : State) (i : Slot) (u : State) : Prop where
  frame : u = (((s.withRecords u.records).withConditions u.conditions).withMode u.mode).withTransit u.transit
  masked : u.conditions.masked = s.conditions.masked
  others : ∀ j, j ≠ i → u.record j = s.record j
  counter : u.record i = { s.record i with shortCounter := (u.record i).shortCounter }

theorem raise_checkFrame (s : State) (i : Slot) (c : Cond) (d : Option Nat) : CheckFrame s i (s.raise c d) := by
  have records : (s.raise c d).records = s.records := by rw [raise_frame]; rfl
  have record (j : Slot) : (s.raise c d).record j = s.record j := congrArg (·.read j) records
  refine ⟨?_, raise_masked s c d, fun j _ => record j, by rw [record]⟩
  rw [records]
  exact raise_frame s c d

theorem setShort_checkFrame (s : State) (i : Slot) (n : Nat) : CheckFrame s i (s.setShort i n) := by
  have frame := setShort_frame s i n
  have masked : (s.setShort i n).conditions.masked = s.conditions.masked := by
    unfold State.setShort
    split
    · rfl
    · exact evaluate_masked _ _ _ _
  generalize s.setShort i n = u at *
  have record (j : Slot) : u.record j = if j = i then { s.record i with shortCounter := n } else s.record j := by
    rw [frame]
    exact table_read_write _ _ _ _
  refine ⟨?_, masked, fun j ne => by rw [record, if_neg ne], by rw [record, if_pos rfl]⟩
  generalize u.conditions = conditions at frame
  subst frame
  rfl

theorem strokeChecked_frame (s : State) (i : Slot) (achieved : Int) (expected : Nat) (confirmed : Prop)
    [Decidable confirmed] : CheckFrame s i (strokeChecked s i achieved expected confirmed) := by
  unfold strokeChecked
  split_ifs
  · exact raise_checkFrame s i _ _
  · exact raise_checkFrame s i _ _
  · exact setShort_checkFrame s i _
  · exact setShort_checkFrame s i _
  · exact ⟨rfl, rfl, fun _ _ => rfl, rfl⟩

/-- The short counter and JACK_SHORT, when a stroke sets the counter. -/
theorem setShort_cases (s : State) (i : Slot) (n : Nat) : let t := s.setShort i n
    let old := s.condition .jackShort
    let new := t.condition .jackShort
    (t.record i).shortCounter = n ∧ t.mode = s.mode ∧ t.transit = s.transit ∧
    (∀ c : Cond, c ≠ .jackShort → t.condition c = s.condition c) ∧
    (n = (s.record i).shortCounter → t = s) ∧
    (n ≠ (s.record i).shortCounter →
      (new.source = true ↔ ∃ j, IsShort s t j) ∧ (new.source = old.source → new = old) ∧
      (∀ j, old.source = false → IsShort s t j → (∀ k, k < j → ¬ IsShort s t k) →
        new = { state := .raised, source := true, detail := some j.val, count := min 255 (old.count + 1) }) ∧
      (old.source = true → (∀ j, ¬ IsShort s t j) → new = { old with source := false, state := (match old.state with
        | .raised => .uncleared
        | .standing => .idle
        | .uncleared => .uncleared
        | .idle => .idle) })) := by
  intro t old new
  have frame : t = (s.setRecord i { s.record i with shortCounter := n }).withConditions t.conditions := setShort_frame s i n
  have records : t.records = (s.setRecord i { s.record i with shortCounter := n }).records := by rw [frame]; rfl
  refine ⟨?_, by rw [frame]; rfl, by rw [frame]; rfl, fun c ne => ?_, fun same => if_pos same.symm, fun moved => ?_⟩
  · rw [State.record, records]
    exact congrArg NodeRecord.shortCounter (table_read_write_same _ _ _)
  · show (s.setShort i n).condition c = s.condition c
    unfold State.setShort
    split
    · rfl
    · exact evaluate_other _ _ _ ne
  · have evaluated : t = (s.setRecord i { s.record i with shortCounter := n }).evaluateShort := if_neg (Ne.symm moved)
    have short : IsShort s t = IsShort (s.setRecord i { s.record i with shortCounter := n })
        (s.setRecord i { s.record i with shortCounter := n }) := by
      funext j
      unfold IsShort State.record
      rw [records]
      rfl
    have cases' := evaluateShort_cases (s.setRecord i { s.record i with shortCounter := n })
    rw [← evaluated] at cases'
    rw [short]
    exact cases'

/-! ## The three bands -/

theorem strokeChecked_slip {achieved : Int} {expected : Nat} {confirmed : Prop} [Decidable confirmed]
    (h : achieved < -(s.params.slipTol : Int)) :
    strokeChecked s i achieved expected confirmed = s.raise .jackSlip (some i.val) := if_pos h

theorem strokeChecked_over {achieved : Int} {expected : Nat} {confirmed : Prop} [Decidable confirmed]
    (h : -(s.params.slipTol : Int) ≤ achieved) (k : (expected : Int) + s.params.overTol < achieved) :
    strokeChecked s i achieved expected confirmed = s.raise .jackOver (some i.val) :=
  (if_neg (not_lt.2 h)).trans (if_pos k)

theorem strokeChecked_within {achieved : Int} {expected : Nat} {confirmed : Prop} [Decidable confirmed]
    (h : -(s.params.slipTol : Int) ≤ achieved) (k : achieved ≤ (expected : Int) + s.params.overTol) :
    strokeChecked s i achieved expected confirmed = if confirmed then
      s.setShort i (if 0 < expected ∧ achieved < (expected : Int) - s.params.shortTol then
        min 15 ((s.record i).shortCounter + 1) else 0) else s :=
  (if_neg (not_lt.2 h)).trans (if_neg (not_lt.2 k))

/-- The mode behind the checks: only a slip takes a mode other than HALT to HALT. -/
theorem strokeChecked_halts {achieved : Int} {expected : Nat} {confirmed : Prop} [Decidable confirmed] :
    ((strokeChecked s i achieved expected confirmed).mode = .halt ∧ s.mode ≠ .halt) ↔
    achieved < -(s.params.slipTol : Int) ∧ (s.condition .jackSlip).state = .idle ∧
      ((s.mode = .climb ∨ s.mode = .trim) ∨ s.mode = .hold) := by
  by_cases slip : achieved < -(s.params.slipTol : Int)
  · rw [strokeChecked_slip slip]
    obtain ⟨halts, -, stays⟩ := raise_cases s .jackSlip (some i.val)
    refine ⟨fun ⟨halt, before⟩ => ⟨slip, ?_⟩, fun ⟨_, idle, mode⟩ => ⟨(halts ⟨idle, rfl, or_assoc.1 mode⟩).1, ?_⟩⟩
    · by_contra no
      exact before ((stays (fun ⟨idle, _, mode⟩ => no ⟨idle, or_assoc.2 mode⟩) (fun ⟨_, cls, _⟩ => nomatch cls)).1 ▸ halt)
    · rcases mode with (mode | mode) | mode <;> rw [mode] <;> decide
  · refine iff_of_false (fun ⟨halt, before⟩ => before ?_) fun h => slip h.1
    by_cases high : (expected : Int) + s.params.overTol < achieved
    · rw [strokeChecked_over (not_lt.1 slip) high] at halt
      obtain ⟨-, holds, stays⟩ := raise_cases s .jackOver (some i.val)
      by_cases h : (s.condition .jackOver).state = .idle ∧ Cond.jackOver.cls = .hold ∧ (s.mode = .climb ∨ s.mode = .trim)
      · exact nomatch (holds h).1 ▸ halt
      · exact (stays (fun ⟨_, cls, _⟩ => nomatch cls) h).1 ▸ halt
    · rw [strokeChecked_within (not_lt.1 slip) (not_lt.1 high)] at halt
      split at halt
      · exact (setShort_cases s i _).2.1 ▸ halt
      · exact halt

theorem expectation_behind_frame
    (h : u = (((s.withRecords u.records).withConditions u.conditions).withMode u.mode).withTransit u.transit) (i : Slot) :
    let t := u.setExpectation i none
    t = ((((s.withRecords t.records).withExpectations t.expectations).withConditions t.conditions).withMode
      t.mode).withTransit t.transit := by
  generalize u.records = records, u.conditions = conditions, u.mode = mode, u.transit = transit at h
  subst h
  rfl

/-- Settles O42: the frame of the two checks, the three bands in their order, and the entry into HALT by a slip. -/
theorem strokesAreVerified : Obligations.StrokesAreVerified := by
  refine ⟨fun s i height => haltFeed_kept _ _ (by by_cases h : s.mode = .halt; exacts [.inr h, .inl h]), fun s i height p => ?_⟩
  have verified := verifyStroke_eq s i height p
  have confirms : (s.expectation i = none ∨ ∃ x, s.expectation i = some x ∧ x.confirmed = true) ↔
      ∀ x, s.expectation i = some x → x.confirmed = true := by
    cases s.expectation i <;> simp
  have checks := strokeChecked_frame s i ((height : Int) - p) (((s.expectation i).map Expectation.demand).getD 0)
    (∀ x, s.expectation i = some x → x.confirmed = true)
  have halting := strokeChecked_halts (s := s) (i := i) (achieved := (height : Int) - p)
    (expected := ((s.expectation i).map Expectation.demand).getD 0)
    (confirmed := ∀ x, s.expectation i = some x → x.confirmed = true)
  have slips := strokeChecked_slip (s := s) (i := i) (achieved := (height : Int) - p)
    (expected := ((s.expectation i).map Expectation.demand).getD 0)
    (confirmed := ∀ x, s.expectation i = some x → x.confirmed = true)
  have overs := strokeChecked_over (s := s) (i := i) (achieved := (height : Int) - p)
    (expected := ((s.expectation i).map Expectation.demand).getD 0)
    (confirmed := ∀ x, s.expectation i = some x → x.confirmed = true)
  have within := strokeChecked_within (s := s) (i := i) (achieved := (height : Int) - p)
    (expected := ((s.expectation i).map Expectation.demand).getD 0)
    (confirmed := ∀ x, s.expectation i = some x → x.confirmed = true)
  unfold strokeVerified at verified
  generalize strokeChecked s i ((height : Int) - p) (((s.expectation i).map Expectation.demand).getD 0)
    (∀ x, s.expectation i = some x → x.confirmed = true) = u at *
  obtain ⟨frame, masked, others, counter⟩ := checks
  refine ⟨u.setExpectation i none, ?_⟩
  intro achieved e expected confirmed climbs moves short old new halts
  have recorded (j : Slot) : (u.setExpectation i none).record j = u.record j := rfl
  refine ⟨fun h => ?_, fun h => ?_, ?_, masked, table_read_write_same _ _ _, fun j ne => ?_, fun j => ?_, others, fun low => ?_,
    fun fine high => ?_, fun fine below => ?_⟩
  · obtain ⟨halt, before⟩ := halting.2 h
    rw [verified]
    exact haltFeed_halts _ _ halt before
  · rw [verified]
    refine haltFeed_kept _ _ ?_
    by_contra no
    obtain ⟨halt, before⟩ := not_or.1 no
    exact h (halting.1 ⟨not_not.1 halt, before⟩)
  · exact expectation_behind_frame frame i
  · have expectations : u.expectations = s.expectations := by rw [frame]; rfl
    show (u.expectations.write i none).read j = _
    rw [expectations]
    exact table_read_write_other _ _ _ _ ne
  · by_cases same : j = i
    · rw [same]
      exact counter
    · rw [recorded, others j same]
  · have raised := slips low
    obtain ⟨moved, -, stays⟩ := raise_cases s .jackSlip (some i.val)
    rw [← raised] at moved stays
    refine ⟨congrArg (·.record i) (raised.trans (raise_frame s _ _)), ?_, fun c ne => ?_, fun ⟨idle, mode⟩ => ?_, fun no => ?_⟩
    · exact (congrArg (·.condition .jackSlip) raised).trans ((raise_same _ _ _).trans (raised_eq _ _ _))
    · exact (congrArg (·.condition c) raised).trans (raise_other _ _ ne)
    · exact moved ⟨idle, rfl, or_assoc.1 mode⟩
    · exact stays (fun ⟨idle, _, mode⟩ => no ⟨idle, or_assoc.2 mode⟩) fun ⟨_, cls, _⟩ => nomatch cls
  · have raised := overs fine high
    obtain ⟨-, moved, stays⟩ := raise_cases s .jackOver (some i.val)
    rw [← raised] at moved stays
    refine ⟨congrArg (·.record i) (raised.trans (raise_frame s _ _)), ?_, fun c ne => ?_, fun ⟨idle, mode⟩ => ?_, fun no => ?_⟩
    · exact (congrArg (·.condition .jackOver) raised).trans ((raise_same _ _ _).trans (raised_eq _ _ _))
    · exact (congrArg (·.condition c) raised).trans (raise_other _ _ ne)
    · exact moved ⟨idle, rfl, mode⟩
    · exact stays (fun ⟨_, cls, _⟩ => nomatch cls) fun ⟨idle, _, mode⟩ => no ⟨idle, mode⟩
  · have stroke := within fine below
    by_cases sure : ∀ x, s.expectation i = some x → x.confirmed = true
    · rw [if_pos sure] at stroke
      obtain ⟨set, mode, transit, conditions, same, moved⟩ := setShort_cases s i
        (if 0 < expected ∧ achieved < (expected : Int) - s.params.shortTol then min 15 ((s.record i).shortCounter + 1) else 0)
      rw [← stroke] at set mode transit conditions same moved
      refine ⟨conditions, mode, transit, fun no => absurd (confirms.2 sure) no, fun _ wanted missed => ?_, fun _ met => ?_,
        fun kept => ?_, fun changed => moved (set ▸ changed)⟩
      · exact set.trans (if_pos ⟨wanted, missed⟩)
      · exact set.trans (if_neg fun ⟨wanted, missed⟩ => met.elim (fun z => by omega) fun z => absurd missed (not_lt.2 z))
      · exact congrArg (·.condition .jackShort) (same (set ▸ kept))
    · rw [if_neg sure] at stroke
      subst stroke
      exact ⟨fun _ _ => rfl, rfl, rfl, fun _ => rfl, fun yes => absurd (confirms.1 yes) sure,
        fun yes => absurd (confirms.1 yes) sure, fun _ => rfl, fun changed => absurd rfl changed⟩

end Sys2Proof.Proofs
end


section
/-! PROOFS. What an outlet's report or change of state can touch (O41, O44, O46): the feed but its descriptors, the wall, the due
polls, and conditions with the mode they move. -/

namespace Sys2Proof.Proofs

open Sys2Proof Sys2Proof.Machine Sys2Proof.Laws

variable {s t u : State} {c : Channel}

/-! ## The relation -/

/-- The blocks that no event of the feed touches. -/
structure Around where
  power : Power
  now : Nat
  pending : List Instr
  nodes : Table NodeEntry 128
  expectations : Table (Option Expectation) 128
  sweep : Sweep
  ring : Option Exchange
  dispatch : Dispatch
  level : LevelUnit
  segments : Table SegmentEntry 32
  pourClock : Nat
  placementSeen : Option CycleResult
  monitors : Monitors
  markers : Markers
  command : CommandUnit
  params : Params
  agents : Agents
  console : Console
  relays : Relays
  jobs : List BeaconJob
  descriptors : Table DescriptorEntry 64

def around (s : State) : Around :=
  { power := s.power, now := s.now, pending := s.pending, nodes := s.nodes, expectations := s.expectations, sweep := s.sweep
    ring := s.ring, dispatch := s.dispatch, level := s.level, segments := s.segments, pourClock := s.pourClock
    placementSeen := s.placementSeen, monitors := s.monitors, markers := s.markers, command := s.command
    params := s.params, agents := s.agents, console := s.console, relays := s.relays, jobs := s.jobs
    descriptors := s.feed.descriptors }

/-- An event of the feed: of the node records all but the due polls stay, and so do the descriptors and every block of the
other chapters but the conditions and the mode; no poll falls due of a slot that is not a ready outlet. -/
structure FeedEvent (s t : State) : Prop where
  around : around t = around s
  record : ∀ i, t.record i = { s.record i with pollDue := (t.record i).pollDue }
  unready : ∀ i, s.outletReady i = false → (t.record i).pollDue = (s.record i).pollDue ∨ (t.record i).pollDue = none

theorem FeedEvent.refl (s : State) : FeedEvent s s := ⟨rfl, fun _ => rfl, fun _ _ => .inl rfl⟩

theorem FeedEvent.outletReady (h : FeedEvent s t) (i : Slot) : t.outletReady i = s.outletReady i := by
  unfold State.outletReady
  rw [h.record i]

theorem FeedEvent.trans (h : FeedEvent s t) (k : FeedEvent t u) : FeedEvent s u := by
  refine ⟨k.around.trans h.around, fun i => by rw [k.record i, h.record i], fun i unready => ?_⟩
  rcases k.unready i ((h.outletReady i).trans unready) with same | gone
  · rw [same]
    exact h.unready i unready
  · exact .inr gone

/-- A step within the frame of the feed that leaves the records and the descriptors. -/
theorem feedEvent_of_frame (frame : FeedFrame s t) (descriptors : t.feed.descriptors = s.feed.descriptors)
    (records : t.records = s.records) : FeedEvent s t := by
  have record (i : Slot) : t.record i = s.record i := congrArg (·.read i) records
  refine ⟨?_, fun i => by rw [record], fun i _ => .inl (by rw [record])⟩
  unfold Proofs.around
  rw [descriptors]
  clear descriptors records record
  unfold FeedFrame at frame
  generalize t.feed = f, t.walls = w, t.records = r, t.conditions = x at frame
  subst frame
  rfl

/-! ## The operations of a channel -/

theorem setChannel_event (s : State) (c : Channel) (x : ChannelContext) : FeedEvent s (s.setChannel c x) :=
  ⟨by cases c <;> rfl, fun _ => rfl, fun _ _ => .inl rfl⟩

theorem queueExchange_event (s : State) (x : FeedExchange) : FeedEvent s (s.queueExchange x) := ⟨rfl, fun _ => rfl, fun _ _ => .inl rfl⟩

theorem withdrawExchanges_event (s : State) (c : Channel) : FeedEvent s (s.withdrawExchanges c) := ⟨rfl, fun _ => rfl, fun _ _ => .inl rfl⟩

theorem evaluateJam_event (s : State) : FeedEvent s s.evaluateJam :=
  feedEvent_of_frame (evaluateJam_step s .a).frame (by rw [evaluateJam_feed]) (evaluateJam_records s)

theorem raise_event (s : State) (x : Cond) (d : Option Nat) : FeedEvent s (s.raise x d) := by
  have frame := raise_frame s x d
  generalize (s.raise x d) = t at *
  generalize t.conditions = x, t.mode = m, t.transit = a at frame
  subst frame
  exact ⟨rfl, fun _ => rfl, fun _ _ => .inl rfl⟩

/-- A slot's record whose due poll alone changes: it ends, or the slot is a ready outlet. -/
theorem setRecord_event (s : State) (i : Slot) (due : Option Nat) (h : due = none ∨ s.outletReady i = true) :
    FeedEvent s (s.setRecord i { s.record i with pollDue := due }) := by
  have read (j : Slot) : (s.setRecord i { s.record i with pollDue := due }).record j =
      if j = i then { s.record i with pollDue := due } else s.record j := table_read_write _ _ _ _
  refine ⟨rfl, fun j => ?_, fun j unready => ?_⟩
  · rw [read]
    split
    · next same => rw [same]
    · rfl
  · rw [read]
    split
    · next same =>
      subst same
      exact h.elim .inr fun ready => nomatch ready.symm.trans unready
    · exact .inl rfl

theorem dropClaims_event (s : State) (c : Channel) (w : WorkingCopy) : FeedEvent s (s.dropClaims c w) := by
  have outlet (u : State) : FeedEvent u (if u.outletClaim w.outlet = some c then
      (u.setOutletClaim w.outlet none).setRecord w.outlet { u.record w.outlet with pollDue := none } else u) := by
    split
    · exact .trans (t := u.setOutletClaim w.outlet none) ⟨rfl, fun _ => rfl, fun _ _ => .inl rfl⟩ (setRecord_event _ _ _ (.inl rfl))
    · exact .refl u
  unfold State.dropClaims
  dsimp only
  refine .trans ?_ (outlet _)
  split
  · exact ⟨rfl, fun _ => rfl, fun _ _ => .inl rfl⟩
  · exact .refl s

theorem takeClaims_event (s : State) (c : Channel) (w : WorkingCopy) (ready : s.outletReady w.outlet = true) :
    FeedEvent s (s.takeClaims c w) :=
  .trans (t := (s.setSegmentClaim w.segment (some c)).setOutletClaim w.outlet (some c))
    ⟨rfl, fun _ => rfl, fun _ _ => .inl rfl⟩ (setRecord_event _ _ _ (.inr ready))

theorem openChannel_event (s : State) (c : Channel) (w : WorkingCopy) (h : s.blockFor c w = .none) :
    FeedEvent s (s.openChannel c w) := by
  have ready : s.outletReady w.outlet = true := by
    unfold State.blockFor at h
    split at h
    · exact nomatch h
    · exact nomatch h
    · split at h
      · exact nomatch h
      · split at h
        · exact nomatch h
        · split at h
          · exact nomatch h
          · next r => simpa using r
  refine .trans (takeClaims_event s c w ready) (.trans (.trans ?_ (setChannel_event _ c _)) (queueExchange_event _ _))
  exact ⟨rfl, fun _ => rfl, fun _ _ => .inl rfl⟩

theorem recordBlock_event (s : State) (c : Channel) (r : BlockReason) : FeedEvent s (s.recordBlock c r) := by
  unfold State.recordBlock
  dsimp only
  split
  · exact .refl s
  · exact setChannel_event s c _

theorem firstTest_event (s : State) (c : Channel) : FeedEvent s (s.firstTest c) := by
  unfold State.firstTest
  split
  · split
    · next passes => exact openChannel_event s c _ passes
    · exact recordBlock_event s c _
  · exact .refl s

theorem loadAndTest_event (s : State) (c : Channel) (d : DescriptorIx) : FeedEvent s (s.loadAndTest c d) :=
  (setChannel_event s c _).trans (firstTest_event _ c)

theorem chooseNext_event (s : State) (c : Channel) : FeedEvent s (s.chooseNext c) := by
  have loads (x : ChannelContext) (d : DescriptorIx) : FeedEvent s ((s.setChannel c x).loadAndTest c d) :=
    (setChannel_event s c x).trans (loadAndTest_event _ c d)
  unfold State.chooseNext
  dsimp only
  split
  · exact loads _ _
  · split
    · exact loads _ _
    · split
      · exact loads _ _
      · exact setChannel_event s c _

theorem finishDescriptor_event (s : State) (c : Channel) : FeedEvent s (s.finishDescriptor c) := by
  have noted (p : Prop) [Decidable p] (d : DescriptorIx) :
      FeedEvent s (if p then s.withFeed { s.feed with note := some d } else s) := by
    split
    · exact ⟨rfl, fun _ => rfl, fun _ _ => .inl rfl⟩
    · exact .refl s
  have ends (p : Prop) [Decidable p] (u : State) :
      FeedEvent u (if p then u.enterPause c .after else u.chooseNext c) := by
    split
    · exact setChannel_event u c _
    · exact chooseNext_event u c
  unfold State.finishDescriptor
  split
  · exact chooseNext_event s c
  · next d _ =>
    dsimp only
    exact (noted ((s.descriptor d).mark = true) d).trans (ends _ _)

theorem resumeWait_event (s : State) (c : Channel) : FeedEvent s (s.resumeWait c) :=
  (setChannel_event s c _).trans (firstTest_event _ c)

theorem pauseToResume_event (s : State) (c : Channel) : FeedEvent s (s.pauseToResume c) := by
  unfold State.pauseToResume State.endPause
  split
  · dsimp only
    split
    · exact finishDescriptor_event s c
    · exact resumeWait_event s c
  · exact setChannel_event s c _

theorem deferralTest_event (s : State) (c : Channel) : FeedEvent s (s.deferralTest c) := by
  unfold State.deferralTest
  dsimp only
  split
  · split
    · exact (setChannel_event s c _).trans (chooseNext_event _ c)
    · exact .refl s
  · exact .refl s

theorem openTest_event (s : State) (c : Channel) : FeedEvent s (s.openTest c) := by
  unfold State.openTest
  dsimp only
  split
  · split
    · exact (finishDescriptor_event s c).trans (evaluateJam_event _)
    · split
      · next passes => exact (openChannel_event s c _ passes).trans (evaluateJam_event _)
      · exact ((recordBlock_event s c _).trans (deferralTest_event _ c)).trans (evaluateJam_event _)
  · exact .refl s

theorem askClose_event (s : State) (c : Channel) (k : CloseCause) : FeedEvent s (s.askClose c k) := by
  unfold State.askClose
  dsimp only
  split
  · refine .trans ?_ (evaluateJam_event _)
    split
    · exact (setChannel_event s c _).trans (queueExchange_event _ _)
    · exact setChannel_event s c _
  · exact .refl s

theorem fullTest_event (s : State) (c : Channel) : FeedEvent s (s.fullTest c) := by
  unfold State.fullTest
  dsimp only
  split
  · split
    · exact askClose_event s c _
    · exact .refl s
  · exact .refl s

/-! ## Placements and the ends of openings -/

theorem bothChannels_event (s : State) (f : Channel → State → State) (h : ∀ c u, FeedEvent u (f c u)) :
    FeedEvent s (s.bothChannels f) :=
  .trans (t := s.withFree (s.free + 1)) ⟨rfl, fun _ => rfl, fun _ _ => .inl rfl⟩ ((h _ _).trans (h _ _))

theorem releaseClaims_event (s : State) (c : Channel) (w : WorkingCopy) : FeedEvent s (s.releaseClaims c w) :=
  (dropClaims_event s c w).trans (openTest_event _ _)

theorem takePlacement_event (s : State) (k : SegmentIx) (v : Nat) (source : LayerSource) (d : Option DescriptorIx) :
    FeedEvent s (s.takePlacement k v source d) := by
  have frame := takePlacement_frame s k v source d
  generalize (s.takePlacement k v source d) = t at *
  unfold WallFrame at frame
  generalize t.walls = w, t.conditions = x, t.mode = m, t.transit = a at frame
  subst frame
  exact ⟨rfl, fun _ => rfl, fun _ _ => .inl rfl⟩

theorem segmentPlacedFor_event (k : SegmentIx) (maker : Option Channel) (c : Channel) (s : State) :
    FeedEvent s (State.segmentPlacedFor k maker c s) := by
  unfold State.segmentPlacedFor
  split
  · split
    · split
      · exact openTest_event s c
      · exact (openTest_event s c).trans (fullTest_event _ c)
    · exact .refl s
  · exact .refl s

theorem placeDelivered_event (s : State) (c : Channel) (w : WorkingCopy) : FeedEvent s (s.placeDelivered c w) := by
  unfold State.placeDelivered State.place
  dsimp only
  split
  · exact .refl s
  · split
    · exact (takePlacement_event s _ _ _ _).trans (bothChannels_event _ _ (segmentPlacedFor_event _ _))
    · exact takePlacement_event s _ _ _ _

theorem feedShort_event (s : State) (c : Channel) : FeedEvent s (s.feedShort c) :=
  ((setChannel_event s c _).trans (raise_event _ _ _)).trans (finishDescriptor_event _ c)

theorem afterOpening_event (s : State) (c : Channel) : FeedEvent s (s.afterOpening c) := by
  unfold State.afterOpening
  dsimp only
  split
  · exact setChannel_event s c _
  · exact setChannel_event s c _
  · exact finishDescriptor_event s c
  · exact feedShort_event s c
  · exact finishDescriptor_event s c
  · exact pauseToResume_event s c
  · exact pauseToResume_event s c
  · exact pauseToResume_event s c

theorem completeOpening_event (s : State) (c : Channel) (w : WorkingCopy) : FeedEvent s (s.completeOpening c w) :=
  ((((placeDelivered_event s c w).trans (releaseClaims_event _ c w)).trans (setChannel_event _ c _)).trans
    (afterOpening_event _ c)).trans (evaluateJam_event _)

theorem openingFault_event (s : State) (c : Channel) (w : WorkingCopy) : FeedEvent s (s.openingFault c w) :=
  ((((((placeDelivered_event s c w).trans (setChannel_event _ c _)).trans (withdrawExchanges_event _ c)).trans
    (releaseClaims_event _ c w)).trans (raise_event _ _ _)).trans (setChannel_event _ c _)).trans (evaluateJam_event _)

theorem judgeOutletReport_event (s : State) (c : Channel) (w : WorkingCopy) (ready ended fault : Bool) (d tag : Nat) :
    FeedEvent s (s.judgeOutletReport c w ready ended fault d tag) := by
  have counted := setChannel_event s c { s.channel c with delivered := d }
  unfold State.judgeOutletReport
  dsimp only
  split
  · exact openingFault_event s c w
  · split
    · exact .refl s
    · split
      · exact counted.trans (completeOpening_event _ c w)
      · split
        · split
          · exact counted.trans (fullTest_event _ c)
          · exact counted.trans (askClose_event _ c _)
        · exact counted

/-! ## An outlet's event -/

theorem judges_event {i : Slot} {opening : WorkingCopy → State → State} (h : ∀ w v, FeedEvent v (opening w v)) (v : State) :
    FeedEvent v (judges s i c opening v) := by
  unfold judges
  split
  · split
    · exact openTest_event v c
    · exact .refl v
  · split
    · exact h _ v
    · exact .refl v
  · split
    · exact h _ v
    · exact .refl v
  · exact .refl v

/-- A report that is no outlet's reaches no channel. -/
theorem outletReport_event (s : State) (i : Slot) (report : Report) : FeedEvent s (s.outletReport i report) := by
  refine bothChannels_event s _ fun c v => ?_
  cases report with
  | outlet ready ended fault d tag =>
    rw [outletReportFor_eq]
    exact judges_event (fun w v => judgeOutletReport_event v c w _ _ _ _ _) v
  | jack | sensor =>
    unfold State.outletReportFor
    dsimp only
    split
    · next h => exact nomatch h
    · exact .refl v

theorem outletStateFor_event (s : State) (i : Slot) (miss : Bool) (c : Channel) (v : State) :
    FeedEvent v (State.outletStateFor s i miss c v) := by
  rw [outletStateFor_eq]
  refine judges_event (fun w v => ?_) v
  split
  · exact judgeOutletReport_event v c w _ _ _ _ _
  · exact .refl v

theorem outletStateChanged_event (s : State) (i : Slot) (miss : Bool) : FeedEvent s (s.outletStateChanged i miss) :=
  bothChannels_event s _ (outletStateFor_event s i miss)

/-- At a change of state other than to LOST a channel that waits for the outlet tests, and no other acts. -/
theorem outletStateFor_live {i : Slot} {miss : Bool} {v : State} (live : (v.record i).state ≠ .lost) :
    State.outletStateFor s i miss c v = v ∨
    (s.channel c).state = .wait ∧ (∃ w, (s.channel c).working = some w ∧ w.outlet = i) ∧
      State.outletStateFor s i miss c v = v.openTest c := by
  have dead (w : WorkingCopy) : (if (v.record i).state = .lost ∧ miss = false then
      v.judgeOutletReport c w false false true 0 0 else v) = v := if_neg fun lost => live lost.1
  rw [outletStateFor_eq]
  unfold judges
  split
  · next w working state =>
    split
    · next here => exact .inr ⟨state, ⟨w, working, here⟩, rfl⟩
    · exact .inl rfl
  · split
    · exact .inl (dead _)
    · exact .inl rfl
  · split
    · exact .inl (dead _)
    · exact .inl rfl
  · exact .inl rfl

/-- A change of state other than to LOST leaves a channel that does not wait as it is. -/
theorem outletStateChanged_kept {i : Slot} {miss : Bool} {d : Channel} (live : (s.record i).state ≠ .lost)
    (h : (s.channel d).state ≠ .wait) : (s.outletStateChanged i miss).channel d = s.channel d := by
  have acts (c : Channel) {v : State} (alive : (v.record i).state ≠ .lost) :
      (State.outletStateFor s i miss c v).channel d = v.channel d := by
    rcases outletStateFor_live (s := s) (c := c) (miss := miss) alive with same | ⟨waits, -, tests⟩
    · rw [same]
    · rw [tests]
      by_cases mine : d = c
      · subst mine
        exact absurd waits h
      · have other : d = otherChannel c := by revert mine; cases c <;> cases d <;> simp [otherChannel]
        rw [other]
        exact (openTest_spares v c).channel
  obtain ⟨first, both⟩ : ∃ first, s.outletStateChanged i miss =
      State.outletStateFor s i miss (otherChannel first) (State.outletStateFor s i miss first (s.withFree (s.free + 1))) :=
    ⟨_, rfl⟩
  have begun : ((s.withFree (s.free + 1)).record i).state ≠ .lost := live
  have after : ((State.outletStateFor s i miss first (s.withFree (s.free + 1))).record i).state ≠ .lost := by
    rw [(outletStateFor_event s i miss first (s.withFree (s.free + 1))).record i]
    exact begun
  rw [both, acts _ after, acts _ begun]
  rfl

/-- With no channel waiting for the outlet such a change reaches no channel. -/
theorem outletStateChanged_nobody {i : Slot} {miss : Bool} (live : (s.record i).state ≠ .lost)
    (h : ∀ c w, (s.channel c).state = .wait → (s.channel c).working = some w → w.outlet ≠ i) :
    s.outletStateChanged i miss = s.withFree (s.free + 1) := by
  have rests (c : Channel) {v : State} (alive : (v.record i).state ≠ .lost) : State.outletStateFor s i miss c v = v := by
    rcases outletStateFor_live (s := s) (c := c) (miss := miss) alive with same | ⟨waits, ⟨w, working, here⟩, -⟩
    · exact same
    · exact absurd here (h c w waits working)
  obtain ⟨first, both⟩ : ∃ first, s.outletStateChanged i miss =
      State.outletStateFor s i miss (otherChannel first) (State.outletStateFor s i miss first (s.withFree (s.free + 1))) :=
    ⟨_, rfl⟩
  have begun : ((s.withFree (s.free + 1)).record i).state ≠ .lost := live
  rw [both, rests first begun, rests _ begun]

end Sys2Proof.Proofs
end


section
/-! PROOFS. Acknowledgements (O44) and what they share with silence (O46): an exchange's end, a slot's new record, and the
dispatch after a DEMAND. -/

namespace Sys2Proof.Proofs

open Sys2Proof Sys2Proof.Machine Sys2Proof.Laws

variable {s t : State} {i : Slot}

/-! ## The dispatch after a DEMAND (R23 to R25) -/

/-- The entries with the outcome of one slot. -/
def withOutcome (entries : List DispatchEntry) (i : Slot) (o : DemandOutcome) : List DispatchEntry :=
  entries.map fun e => if e.slot = i then { e with outcome := o } else e

theorem mem_withOutcome_slot {entries : List DispatchEntry} {o : DemandOutcome} {e : DispatchEntry}
    (h : e ∈ withOutcome entries i o) : ∃ x ∈ entries, x.slot = e.slot := by
  obtain ⟨x, mem, is⟩ := List.mem_map.1 h
  refine ⟨x, mem, ?_⟩
  rw [← is]
  split <;> rfl

theorem demandEnded_away {d : Dispatch} {o : DemandOutcome} (h : d.state ≠ .demanding ∨ d.cursor ≠ some i) :
    d.demandEnded i o = d := if_neg fun ⟨demanding, cursor⟩ => h.elim (· demanding) (· cursor)

/-- The cursor moves to the first entry behind the slot. -/
theorem demandEnded_next {d : Dispatch} {o : DemandOutcome} {n : DispatchEntry} {before after : List DispatchEntry}
    (demanding : d.state = .demanding) (cursor : d.cursor = some i) (entries : d.entries = before ++ n :: after)
    (behind : i < n.slot) (h : ∀ y ∈ before, y.slot ≤ i) :
    d.demandEnded i o = { d with entries := withOutcome d.entries i o, cursor := some n.slot } := by
  have kept : (if n.slot = i then { n with outcome := o } else n) = n := if_neg (ne_of_gt behind)
  have found : (withOutcome d.entries i o).find? (fun e => decide (i < e.slot)) = some n := by
    rw [entries]
    unfold withOutcome
    rw [List.map_append, List.map_cons, kept, List.find?_append,
      List.find?_eq_none.2 fun e mem => ?_, Option.none_or]
    · exact List.find?_cons_of_pos (p := fun e : DispatchEntry => decide (i < e.slot)) (decide_eq_true behind)
    obtain ⟨x, member, slot⟩ := mem_withOutcome_slot (o := o) mem
    rw [← slot]
    simpa using h x member
  unfold Dispatch.demandEnded
  rw [if_pos ⟨demanding, cursor⟩]
  change (match (withOutcome d.entries i o).find? (fun e => decide (i < e.slot)) with | some _ => _ | none => _) = _
  rw [found]
  rfl

/-- Behind the last entry the dispatch is ready to go, or IDLE if no DEMAND was acknowledged. -/
theorem demandEnded_last {d : Dispatch} {o : DemandOutcome} (demanding : d.state = .demanding) (cursor : d.cursor = some i)
    (h : ∀ e ∈ d.entries, e.slot ≤ i) : d.demandEnded i o =
      if ∃ e ∈ withOutcome d.entries i o, e.outcome = .acked then
        { d with state := .goReady, entries := withOutcome d.entries i o, cursor := none }
      else Dispatch.idle := by
  have found : (withOutcome d.entries i o).find? (fun e => decide (i < e.slot)) = none := by
    refine List.find?_eq_none.2 fun e mem => ?_
    obtain ⟨x, member, slot⟩ := mem_withOutcome_slot mem
    rw [← slot]
    simpa using h x member
  unfold Dispatch.demandEnded
  rw [if_pos ⟨demanding, cursor⟩]
  change (match (withOutcome d.entries i o).find? (fun e => decide (i < e.slot)) with | some _ => _ | none => _) = _
  rw [found]
  exact if_congr (by simp [withOutcome]) rfl rfl

/-! ## Sources of the node conditions (R10) -/

theorem lostJack_isSome (s : State) : s.lostJack.isSome = true ↔ ∃ j, (s.node j).enabled = true ∧ (s.node j).kind = .jack ∧
    ((s.record j).state = .lost ∨ (s.record j).state = .faulted) := by
  unfold State.lostJack allSlots
  rw [find?_finRange_isSome]
  simp [and_assoc]

theorem lostNode_isSome (s : State) : s.lostNode.isSome = true ↔ ∃ j, (s.node j).enabled = true ∧ (s.node j).kind ≠ .jack ∧
    (s.record j).state = .lost := by
  unfold State.lostNode allSlots
  rw [find?_finRange_isSome]
  simp [and_assoc]

/-- An evaluation of the two node conditions. -/
theorem evaluateNodes_cases (s : State) : let t := s.evaluateNodes
    t = ((s.withConditions t.conditions).withMode t.mode).withTransit t.transit ∧
    ((t.condition .jackLost).source = true ↔ ∃ j, (s.node j).enabled = true ∧ (s.node j).kind = .jack ∧
      ((s.record j).state = .lost ∨ (s.record j).state = .faulted)) ∧
    ((t.condition .nodeLost).source = true ↔ ∃ j, (s.node j).enabled = true ∧ (s.node j).kind ≠ .jack ∧
      (s.record j).state = .lost) ∧
    ∀ c : Cond, c ≠ .jackLost → c ≠ .nodeLost → t.condition c = s.condition c := by
  obtain ⟨frame, jack, node, others⟩ := evaluateBoth_cases s (c := .jackLost) (e := .nodeLost) s.lostJack.isSome
    s.lostNode.isSome (s.lostJack.map Fin.val) (s.lostNode.map Fin.val) (by decide) rfl rfl
  refine ⟨frame, ?_, ?_, others⟩
  · rw [← lostJack_isSome, ← jack]
    rfl
  · rw [← lostNode_isSome, ← node]
    rfl

/-- The details of the two node conditions are the lowest lost slots. -/
theorem evaluateNodes_eq {jack node : Option Slot}
    (lostJack : LowestOf (fun j => (s.node j).enabled = true ∧ (s.node j).kind = .jack ∧
      ((s.record j).state = .lost ∨ (s.record j).state = .faulted)) jack)
    (lostNode : LowestOf (fun j => (s.node j).enabled = true ∧ (s.node j).kind ≠ .jack ∧ (s.record j).state = .lost) node) :
    s.evaluateNodes = (s.evaluate .jackLost jack.isSome (jack.map Fin.val)).evaluate .nodeLost node.isSome
      (node.map Fin.val) := by
  have first : s.lostJack = jack := lowestOf_find _ _ (fun j => by simp [and_assoc]) _ lostJack
  have second : s.lostNode = node := lowestOf_find _ _ (fun j => by simp [and_assoc]) _ lostNode
  unfold State.evaluateNodes
  rw [first, second]

/-- An evaluation of the node conditions leaves what the conditions, the mode and its hand-offs do not hold. -/
theorem evaluateNodes_rest (s : State) : around s.evaluateNodes = around s ∧ s.evaluateNodes.feed = s.feed ∧
    s.evaluateNodes.records = s.records := by
  have frame := evaluateNodes_frame s
  generalize s.evaluateNodes = t at *
  generalize t.conditions = x, t.mode = m, t.transit = a at frame
  subst frame
  exact ⟨rfl, rfl, rfl⟩

/-! ## A slot's record after an exchange without a report (R4, R5) -/

/-- A new record goes to the sources, and to the monitors or the feed by the slot's kind, where the node state changes. -/
theorem updateState_eq (s : State) (i : Slot) (r : NodeRecord) (miss : Bool) : s.updateState i r miss =
    if r.state = (s.record i).state then s.setRecord i r
    else match (s.node i).kind with
      | .jack => (s.setRecord i r).evaluateNodes
      | .sensor => (s.setRecord i r).evaluateNodes.sensorStateChanged i r.state
      | .outlet => (s.setRecord i r).evaluateNodes.outletStateChanged i miss := by
  by_cases same : (s.record i).state = r.state
  · rw [if_pos same.symm]
    exact updateState_same s i r miss same
  · rw [if_neg (Ne.symm same)]
    unfold State.updateState State.updateRecord
    dsimp only
    rw [if_neg same, if_neg same]
    cases (s.node i).kind <;> rfl

/-- The record of a slot whose poll, OPEN or CLOSE exchange has ended. -/
def endedRecord (s : State) (i : Slot) : NodeRecord :=
  { s.record i with
    lastExchangeEnd := some s.now
    pollDue := if (s.outletClaim i).isSome then some (s.now + s.params.outletPollMs) else (s.record i).pollDue }

theorem endExchange_record (s : State) (i : Slot) : (s.endExchange i).record i = endedRecord s i :=
  table_read_write_same _ _ _

theorem endExchange_setRecord (s : State) (i : Slot) (r : NodeRecord) :
    (s.endExchange i).setRecord i r = (s.withRing none).setRecord i r :=
  congrArg (s.withRing none).withRecords (table_write_write _ _ _ _)

/-! ## Acknowledged records (R4) -/

theorem acked_state (r : NodeRecord) : r.acked.state = (match r.state with
    | .active => .active
    | .stale => .active
    | .lost => .active
    | .faulted => .faulted
    | .disabled => .disabled) := by
  unfold NodeRecord.acked
  cases r.state <;> rfl

theorem acked_changed (r : NodeRecord) : r.acked.state ≠ r.state ↔ r.state = .stale ∨ r.state = .lost := by
  rw [acked_state]
  cases r.state <;> simp

/-- An ACK on a record whose state it changes finds the slot ACTIVE. -/
theorem acked_active {r : NodeRecord} (h : r.state = .stale ∨ r.state = .lost) : r.acked.state = .active := by
  rw [acked_state]
  rcases h with h | h <;> rw [h]

theorem ackNode_same {r : NodeRecord} (record : s.record i = r) (h : ¬ (r.state = .stale ∨ r.state = .lost)) :
    s.ackNode i = s.setRecord i r.acked := by
  unfold State.ackNode
  rw [updateState_eq, record, if_pos (by_contra fun changed => h ((acked_changed r).1 changed))]

theorem ackNode_jack {r : NodeRecord} (record : s.record i = r) (h : r.state = .stale ∨ r.state = .lost)
    (kind : (s.node i).kind = .jack) : s.ackNode i = (s.setRecord i r.acked).evaluateNodes := by
  unfold State.ackNode
  rw [updateState_eq, record, if_neg ((acked_changed r).2 h), kind]

theorem ackNode_outlet {r : NodeRecord} (record : s.record i = r) (h : r.state = .stale ∨ r.state = .lost)
    (kind : (s.node i).kind = .outlet) :
    s.ackNode i = (s.setRecord i r.acked).evaluateNodes.outletStateChanged i false := by
  unfold State.ackNode
  rw [updateState_eq, record, if_neg ((acked_changed r).2 h), kind]

/-! ## The frames that a window takes -/

theorem demandAck_taken {x : Exchange} {address : Byte} (takes : s.Takes address x) (kind : x.kind = .demand i) :
    s.demandAck address [] = if x.discarded then s.freeRing else (s.freeRing.ackNode i).demandEnded i .acked := by
  unfold State.demandAck
  rw [(openWindow_iff s address x).2 takes]
  dsimp only
  rw [kind]

theorem openAck_taken {x : Exchange} {address : Byte} {c : Channel} {tag : Nat} (takes : s.Takes address x)
    (kind : x.kind = .openOutlet c i tag) :
    s.openAck address [] = if x.discarded then s.freeRing else ((s.endExchange i).ackNode i).openAcked c tag := by
  unfold State.openAck
  rw [(openWindow_iff s address x).2 takes]
  dsimp only
  rw [kind]

theorem closeAck_taken {x : Exchange} {address : Byte} {c : Channel} {tag : Nat} {stray : Bool} (takes : s.Takes address x)
    (kind : x.kind = .closeOutlet c i tag stray) :
    s.closeAck address [] = if x.discarded then s.freeRing else (s.endExchange i).ackNode i := by
  unfold State.closeAck
  rw [(openWindow_iff s address x).2 takes]
  dsimp only
  rw [kind]

theorem demandAck_untaken {address : Byte} {payload : List Byte}
    (h : ∀ x i, s.Takes address x → x.kind = .demand i → payload ≠ []) : s.demandAck address payload = s := by
  unfold State.demandAck
  cases w : s.openWindow address with
  | none => rfl
  | some x =>
    dsimp only
    split
    · next kind => exact absurd rfl (h x _ ((openWindow_iff s address x).1 w) kind)
    · rfl

theorem openAck_untaken {address : Byte} {payload : List Byte}
    (h : ∀ x c i tag, s.Takes address x → x.kind = .openOutlet c i tag → payload ≠ []) : s.openAck address payload = s := by
  unfold State.openAck
  cases w : s.openWindow address with
  | none => rfl
  | some x =>
    dsimp only
    split
    · next kind => exact absurd rfl (h x _ _ _ ((openWindow_iff s address x).1 w) kind)
    · rfl

theorem closeAck_untaken {address : Byte} {payload : List Byte}
    (h : ∀ x c i tag stray, s.Takes address x → x.kind = .closeOutlet c i tag stray → payload ≠ []) :
    s.closeAck address payload = s := by
  unfold State.closeAck
  cases w : s.openWindow address with
  | none => rfl
  | some x =>
    dsimp only
    split
    · next kind => exact absurd rfl (h x _ _ _ _ ((openWindow_iff s address x).1 w) kind)
    · rfl

end Sys2Proof.Proofs
end


section
/-! PROOFS. Acknowledgements, settled (O44). -/

namespace Sys2Proof.Proofs

open Sys2Proof Sys2Proof.Machine Sys2Proof.Laws

variable {s t : State} {i : Slot}

theorem demandEnded_dispatch (u : State) (o : DemandOutcome) (same : u.dispatch = s.dispatch) :
    u.demandEnded i o = u.withDispatch (s.dispatch.demandEnded i o) := by
  unfold State.demandEnded
  rw [same]

/-- An ACK that confirms an opening, on a state in which the channel is still as it was. -/
theorem openAcked_opened {c : Channel} {tag : Nat} {x : ChannelContext} (channel : s.channel c = x) (mine : x.tag = tag)
    (open_ : x.openConfirmed = false) (state : x.state = .opened) : s.openAcked c tag =
      s.setChannel c { x with openConfirmed := true, dwellEndsAt := some (s.now + s.params.dwellS * 1000) } := by
  unfold State.openAcked
  dsimp only
  rw [channel, if_neg (by simp [mine, open_]), state]

theorem openAcked_closing {c : Channel} {tag : Nat} {x : ChannelContext} {w : WorkingCopy} (channel : s.channel c = x)
    (mine : x.tag = tag) (open_ : x.openConfirmed = false) (state : x.state = .closing) (working : x.working = some w) :
    s.openAcked c tag = s.withFeed { s.feed.setChannel c { x with openConfirmed := true, closeSent := true } with
      waiting := s.feed.waiting ++ [{
        isOpen := false, channel := c, slot := w.outlet, tag := tag, litres := 0, stray := false, since := s.now }] } := by
  unfold State.openAcked
  dsimp only
  rw [channel, if_neg (by simp [mine, open_]), state, working, ← mine]
  cases c <;> rfl

/-- Settles O44: the three ACKs in their windows, the node conditions, and the frames that no window takes. -/
theorem acksEndExchanges : Obligations.AcksEndExchanges := by
  refine ⟨?_, fun s => evaluateNodes_cases s, fun s jack node => evaluateNodes_eq, ?_, ?_⟩
  · intro s x i ends address running ring phase inTime asked live r acked changed due y z
    have takes : s.Takes address x := ⟨ring, ⟨ends, phase, inTime⟩, asked⟩
    have freed : s.freeRing.record i = r := rfl
    have demanded (kind : x.kind = .demand i) : exec (.demandAck address []) s =
        .next ((s.freeRing.ackNode i).demandEnded i .acked) := by
      refine (exec_event running (fun t => t.demandAck address []) rfl).trans (congrArg _ ?_)
      rw [demandAck_taken takes kind, live]
      rfl
    have same : acked = r.acked := by
      unfold NodeRecord.acked
      show NodeRecord.mk _ _ _ _ _ _ _ = NodeRecord.mk _ _ _ _ _ _ _
      cases r.state <;> rfl
    have dispatch : y.evaluateNodes.dispatch = s.dispatch := congrArg Around.dispatch (evaluateNodes_rest y).1
    have quiet (h : ¬ changed) : s.freeRing.ackNode i = y := by
      rw [ackNode_same freed h, ← same]
      rfl
    have told (h : changed) (kind : (s.node i).kind = .jack) : s.freeRing.ackNode i = y.evaluateNodes := by
      rw [ackNode_jack freed h kind, ← same]
      rfl
    have back (jack : changed → (s.node i).kind = .jack) : (s.freeRing.ackNode i).dispatch = s.dispatch := by
      by_cases h : changed
      · rw [told h (jack h), dispatch]
      · rw [quiet h]
        rfl
    have ended : (s.endExchange i).record i = endedRecord s i := endExchange_record s i
    have record : (s.endExchange i).setRecord i (endedRecord s i).acked = z := by
      rw [endExchange_setRecord, show (endedRecord s i).acked =
        { acked with lastExchangeEnd := some s.now, pollDue := due } by rw [same]; rfl]
    have rests (h : ¬ changed) : (s.endExchange i).ackNode i = z := by
      rw [ackNode_same ended h, record]
    have changes (h : changed) (kind : (s.node i).kind = .outlet) :
        (s.endExchange i).ackNode i = z.evaluateNodes.outletStateChanged i false := by
      rw [ackNode_outlet ended h kind, record]
    have nodes := evaluateNodes_rest z
    have alive (h : changed) : (z.evaluateNodes.record i).state ≠ .lost := by
      have read : z.record i = _ := table_read_write_same _ _ _
      rw [State.record, nodes.2.2]
      show (z.record i).state ≠ .lost
      rw [read]
      show acked.state ≠ .lost
      rw [same, acked_active h]
      decide
    refine ⟨fun kind away jack => ⟨fun h => ?_, fun h => ?_⟩, fun kind demanding cursor jack => ?_, fun outlet => ?_⟩
    · rw [demanded kind, demandEnded_dispatch _ _ (back jack), demandEnded_away away, quiet h]
      rfl
    · rw [demanded kind, demandEnded_dispatch _ _ (back jack), demandEnded_away away, told h (jack h), ← dispatch]
      rfl
    · refine ⟨_, demanded kind, fun h => ?_, fun h => ?_, fun n after before entries behind earlier => ?_, fun mine last => ?_⟩
      · rw [demandEnded_dispatch _ _ (back jack), quiet h]
        rfl
      · rw [demandEnded_dispatch _ _ (back jack), told h (jack h)]
        rfl
      · rw [demandEnded_dispatch _ _ (back jack), demandEnded_next demanding cursor entries behind earlier]
        rfl
      · have acks : ∃ e ∈ withOutcome s.dispatch.entries i .acked, e.outcome = .acked := by
          obtain ⟨e, mem, slot⟩ := mine
          exact ⟨_, List.mem_map.2 ⟨e, mem, rfl⟩, by rw [if_pos slot]⟩
        rw [demandEnded_dispatch _ _ (back jack), demandEnded_last demanding cursor last, if_pos acks]
        rfl
    · have reached : around ((s.endExchange i).ackNode i) = around z := by
        by_cases h : changed
        · rw [changes h (outlet h), (outletStateChanged_event _ _ _).around, nodes.1]
        · rw [rests h]
      have now : ((s.endExchange i).ackNode i).now = s.now := congrArg Around.now reached
      have params : ((s.endExchange i).ackNode i).params = s.params := congrArg Around.params reached
      refine ⟨(s.endExchange i).ackNode i, rests, fun h => changes h (outlet h), fun c tag w kind mine open_ working => ?_,
        fun c tag stray kind => ?_, fun waits h => ?_⟩
      · have acks : exec (.openAck address []) s = .next (((s.endExchange i).ackNode i).openAcked c tag) := by
          refine (exec_event running (fun t => t.openAck address []) rfl).trans (congrArg _ ?_)
          rw [openAck_taken takes kind, live]
          rfl
        have spared (state : (s.channel c).state ≠ .wait) : ((s.endExchange i).ackNode i).channel c = s.channel c := by
          by_cases h : changed
          · rw [changes h (outlet h), outletStateChanged_kept (alive h)]
            · rw [State.channel, nodes.2.1]
              cases c <;> rfl
            · rw [State.channel, nodes.2.1]
              cases c <;> exact state
          · rw [rests h]
            cases c <;> rfl
        refine ⟨fun state => ?_, fun state => ?_⟩
        · rw [acks, openAcked_opened (spared (by rw [state]; decide)) mine open_ state, now, params]
        · rw [acks, openAcked_closing (spared (by rw [state]; decide)) mine open_ state working, now]
      · refine (exec_event running (fun t => t.closeAck address []) rfl).trans (congrArg _ ?_)
        rw [closeAck_taken takes kind, live]
        rfl
      · rw [changes h (outlet h), outletStateChanged_nobody (alive h)]
        · have free : z.evaluateNodes.free = s.free := by
            rw [evaluateNodes_frame]
            rfl
          rw [free]
        · intro c w state working
          rw [State.channel, nodes.2.1] at state working
          exact waits c w (by cases c <;> exact state) (by cases c <;> exact working)
  · intro s address payload running
    refine ⟨fun h => ?_, fun h => ?_, fun h => ?_⟩
    · rw [exec_event running (fun t => t.demandAck address payload) rfl, demandAck_untaken h]
    · rw [exec_event running (fun t => t.openAck address payload) rfl, openAck_untaken h]
    · rw [exec_event running (fun t => t.closeAck address payload) rfl, closeAck_untaken h]
  · intro s x address running takes void
    refine ⟨fun i kind => ?_, fun c i tag kind => ?_, fun c i tag stray kind => ?_⟩
    · rw [exec_event running (fun t => t.demandAck address []) rfl, demandAck_taken takes kind, void]
      rfl
    · rw [exec_event running (fun t => t.openAck address []) rfl, openAck_taken takes kind, void]
      rfl
    · rw [exec_event running (fun t => t.closeAck address []) rfl, closeAck_taken takes kind, void]
      rfl

end Sys2Proof.Proofs
end


section
/-! PROOFS. Silence (O46): the sweep's cursor, a missed slot's record, and what a missed OPEN or CLOSE does to its channel. -/

namespace Sys2Proof.Proofs

open Sys2Proof Sys2Proof.Machine Sys2Proof.Laws

variable {s t : State} {i j : Slot} {c : Channel} {w : WorkingCopy}

/-! ## The sweep's cursor (R13) -/

/-- In an ascending list the first member above a slot is the least one. -/
theorem nextPolled_least {polled : List Slot} (sorted : polled.Pairwise (· < ·)) (mem : j ∈ polled) (above : i < j)
    (least : ∀ k ∈ polled, i < k → j ≤ k) : nextPolled polled i = some j := by
  unfold nextPolled
  cases found : polled.find? fun k => decide (i < k) with
  | none => exact absurd (decide_eq_true above) (List.find?_eq_none.1 found j mem)
  | some k =>
    obtain ⟨higher, before, after, split, earlier⟩ := List.find?_eq_some_iff_append.1 found
    refine congrArg some ?_
    have here : k ∈ polled := List.mem_of_find?_eq_some found
    rw [split] at mem sorted
    rcases List.mem_append.1 mem with early | late
    · exact absurd (earlier j early) (by simp [above])
    · rcases List.mem_cons.1 late with same | later
      · exact same.symm
      · have up := (List.pairwise_cons.1 (List.pairwise_append.1 sorted).2.1).1 j later
        exact absurd (least k here (of_decide_eq_true higher)) (not_le.2 up)

theorem nextPolled_none {polled : List Slot} (h : ∀ k ∈ polled, k ≤ i) : nextPolled polled i = none :=
  List.find?_eq_none.2 fun k mem => by simpa using h k mem

/-! ## A slot's record without a report -/

/-- A judgement of monitors touches the monitors, and conditions with the mode they move. -/
theorem Judged.frame {F : MonitorIx → MonitorRecord → MonitorRecord} (h : Judged s i F t) :
    t = (((s.withMonitors t.monitors).withConditions t.conditions).withMode t.mode).withTransit t.transit := by
  by_cases none : ∀ m, (s.monitor m).enabled = true → (s.monitor m).sensor ≠ i
  · rw [h.none none]
    rfl
  · simp only [not_forall, not_not] at none
    obtain ⟨m, on, mine⟩ := none
    have frame := (evaluateMonitors_cases (s.withMonitors t.monitors)).1
    rw [← h.evaluated m on mine] at frame
    exact frame

theorem Judged.rest {F : MonitorIx → MonitorRecord → MonitorRecord} (h : Judged s i F t) :
    t.sweep = s.sweep ∧ t.dispatch = s.dispatch := by
  have frame := h.frame
  clear h
  generalize t.monitors = m, t.conditions = x, t.mode = a, t.transit = b at frame
  subst frame
  exact ⟨rfl, rfl⟩

/-- A new record without a report leaves the sweep and the dispatch. -/
theorem updateState_rest (s : State) (i : Slot) (r : NodeRecord) (miss : Bool) :
    (s.updateState i r miss).sweep = s.sweep ∧ (s.updateState i r miss).dispatch = s.dispatch := by
  have nodes := (evaluateNodes_rest (s.setRecord i r)).1
  rw [updateState_eq]
  split
  · exact ⟨rfl, rfl⟩
  · split
    · exact ⟨congrArg Around.sweep nodes, congrArg Around.dispatch nodes⟩
    · obtain ⟨sweep, dispatch⟩ := (sensorStateChanged_judged (s.setRecord i r).evaluateNodes i r.state).rest
      exact ⟨sweep.trans (congrArg Around.sweep nodes), dispatch.trans (congrArg Around.dispatch nodes)⟩
    · have event := (outletStateChanged_event (s.setRecord i r).evaluateNodes i miss).around
      rw [nodes] at event
      exact ⟨congrArg Around.sweep event, congrArg Around.dispatch event⟩

/-! ## A missed OPEN (R88) -/

/-- The CLOSE of an opening that belongs to no channel any more. -/
def strayClose (s : State) (c : Channel) (w : WorkingCopy) (tag : Nat) : FeedExchange :=
  { isOpen := false, channel := c, slot := w.outlet, tag := tag, litres := 0, stray := true, since := s.now }

/-- The claims have ended and a stray CLOSE waits. -/
def missReleased (s : State) (c : Channel) (w : WorkingCopy) (tag : Nat) : State :=
  (s.releaseClaims c w).withFeed { (s.releaseClaims c w).feed with
    waiting := (s.releaseClaims c w).feed.waiting ++ [strayClose s c w tag] }

theorem releaseClaims_context (s : State) (c : Channel) (w : WorkingCopy) :
    (s.releaseClaims c w).channel c = s.channel c ∧ (s.releaseClaims c w).now = s.now := by
  refine ⟨releaseClaims_channel s c w, ?_⟩
  exact congrArg Around.now (releaseClaims_event s c w).around

theorem openMissed_away {tag : Nat} (h : (s.channel c).tag ≠ tag ∨ (s.channel c).openConfirmed = true ∨
    ((s.channel c).state ≠ .opened ∧ (s.channel c).state ≠ .closing)) : s.openMissed c tag = s := by
  unfold State.openMissed
  dsimp only
  split
  · rfl
  · next mine =>
    obtain ⟨tag, open_⟩ := not_or.1 mine
    obtain ⟨opened, closing⟩ := (h.resolve_left tag).resolve_left open_
    split
    · next state _ => exact absurd state opened
    · next state _ => exact absurd state closing
    · rfl

/-- A missed OPEN of a channel in OPEN or CLOSING: the claims end, and the channel goes on by its state and cause. -/
theorem openMissed_eq {tag : Nat} (mine : (s.channel c).tag = tag) (open_ : (s.channel c).openConfirmed = false)
    (working : (s.channel c).working = some w) :
    ((s.channel c).state = .opened → s.openMissed c tag = ((missReleased s c w tag).resumeWait c).evaluateJam) ∧
    ((s.channel c).state = .closing → (s.channel c).closeCause = some .stop ∨ (s.channel c).closeCause = some .halt →
      s.openMissed c tag = ((missReleased s c w tag).setChannel c { s.channel c with state := .stopped }).evaluateJam) ∧
    ((s.channel c).state = .closing → (s.channel c).closeCause ≠ some .stop → (s.channel c).closeCause ≠ some .halt →
      s.openMissed c tag = ((missReleased s c w tag).finishDescriptor c).evaluateJam) := by
  obtain ⟨context, now⟩ := releaseClaims_context s c w
  have queued : (s.releaseClaims c w).queueExchange ((s.releaseClaims c w).closeOf c w true) = missReleased s c w tag := by
    unfold missReleased strayClose State.queueExchange State.closeOf
    rw [context, mine, now]
  have same : (missReleased s c w tag).channel c = s.channel c := by
    rw [← context]
    cases c <;> rfl
  have live : ¬ ((s.channel c).tag ≠ tag ∨ (s.channel c).openConfirmed = true) := by simp [mine, open_]
  unfold State.openMissed
  dsimp only
  rw [if_neg live, working]
  refine ⟨fun state => ?_, fun state cause => ?_, fun state stop halt => ?_⟩
  · rw [state]
    dsimp only
    rw [queued]
  · rw [state]
    dsimp only
    rw [queued, same]
    split
    · rw [working]
    · rw [working]
    · next stop halt => exact (cause.elim stop halt).elim
  · rw [state]
    dsimp only
    rw [queued, same]
    cases cause : (s.channel c).closeCause with
    | none => rfl
    | some k =>
      cases k with
      | stop => exact absurd cause stop
      | halt => exact absurd cause halt
      | void | dwell | full | notReady => rfl

/-- What the end of a missed opening's claims leaves, with the other channel at rest. -/
structure MissReleased (s : State) (c : Channel) (w : WorkingCopy) (tag : Nat) (u : State) : Prop where
  wall : ∀ k, u.wall k = if k = w.segment ∧ (s.wall k).claim = some c then { s.wall k with claim := none } else s.wall k
  claim : ∀ i, u.outletClaim i = if i = w.outlet ∧ s.outletClaim w.outlet = some c then none else s.outletClaim i
  record : ∀ i, u.record i = if i = w.outlet ∧ s.outletClaim w.outlet = some c then { s.record i with pollDue := none }
    else s.record i
  waiting : u.feed.waiting = s.feed.waiting ++ [strayClose s c w tag]
  other : u.channel (otherChannel c) = s.channel (otherChannel c)

theorem missReleased_alone {tag : Nat} (other : (s.channel (otherChannel c)).working = none) :
    MissReleased s c w tag (missReleased s c w tag) ∧ (missReleased s c w tag).channel c = s.channel c ∧
    missReleased s c w tag = ((s.withFeed (missReleased s c w tag).feed).withWalls (missReleased s c w tag).walls).withRecords
      (missReleased s c w tag).records := by
  have alone := releaseClaims_alone (c := c) (w := w) other
  have feed : (s.dropClaims c w).feed.waiting = s.feed.waiting := by rw [dropClaims_feed]
  have channel (d : Channel) : (missReleased s c w tag).channel d = s.channel d := by
    rw [← dropClaims_channel s c d w]
    unfold missReleased
    rw [alone]
    cases d <;> rfl
  refine ⟨⟨fun k => ?_, fun i => ?_, fun i => ?_, ?_, channel _⟩, channel c, ?_⟩
  · rw [← dropClaims_wall s c w k, ← alone]
    rfl
  · have claim := dropClaims_outletClaim s c w i
    have test : (i = w.outlet ∧ s.outletClaim i = some c) ↔ (i = w.outlet ∧ s.outletClaim w.outlet = some c) :=
      and_congr_right fun same => by rw [same]
    rw [if_congr test rfl rfl] at claim
    rw [← claim, ← alone]
    rfl
  · rw [← dropClaims_record s c w i, ← alone]
    rfl
  · unfold missReleased
    rw [alone, ← feed]
    rfl
  · have frame := dropClaims_frame s c w
    unfold missReleased
    rw [alone]
    dsimp only at frame
    generalize s.dropClaims c w = u at *
    generalize strayClose s c w tag = x
    generalize u.feed = f, u.walls = v, u.records = r at frame
    subst frame
    rfl

theorem MissReleased.setChannel {tag : Nat} (h : MissReleased s c w tag t) (x : ChannelContext) :
    MissReleased s c w tag (t.setChannel c x) :=
  ⟨h.wall, fun i => by rw [← h.claim]; cases c <;> rfl, h.record, by rw [← h.waiting]; cases c <;> rfl,
    (channel_setChannel_other t c x).trans h.other⟩

theorem MissReleased.evaluateJam {tag : Nat} (h : MissReleased s c w tag t) : MissReleased s c w tag t.evaluateJam := by
  refine ⟨fun k => ?_, fun i => ?_, fun i => ?_, ?_, ?_⟩
  · rw [← h.wall, wall_congr (evaluateJam_walls t) k]
  · rw [← h.claim, State.outletClaim, evaluateJam_feed]
    rfl
  · rw [← h.record, State.record, evaluateJam_records]
    rfl
  · rw [evaluateJam_feed, h.waiting]
  · rw [evaluateJam_channel, h.other]

/-- The reason under which a channel waits again whose outlet is not ACTIVE. -/
theorem blockFor_missed {tag : Nat} (other : (s.channel (otherChannel c)).working = none)
    (lost : (s.record w.outlet).state ≠ .active) : (missReleased s c w tag).blockFor c w = (match s.acceptance w.segment with
      | .noReference => .noRef
      | .full => .segmentFull
      | .accepts => if (s.wall w.segment).claim = some (otherChannel c) then .segmentBusy
        else if s.outletClaim w.outlet = some (otherChannel c) then .outletBusy else .notReady) := by
  obtain ⟨released, -, frame⟩ := missReleased_alone (s := s) (w := w) (tag := tag) other
  have ne : some c ≠ some (otherChannel c) := by cases c <;> decide
  have top (k : SegmentIx) : ((missReleased s c w tag).wall k).top = (s.wall k).top := by
    rw [released.wall]
    split <;> rfl
  have acceptance : (missReleased s c w tag).acceptance w.segment = s.acceptance w.segment := by
    unfold State.acceptance
    rw [top, frame]
    rfl
  have segment : ((missReleased s c w tag).wall w.segment).claim = some (otherChannel c) ↔
      (s.wall w.segment).claim = some (otherChannel c) := by
    rw [released.wall]
    split
    · next held => exact iff_of_false nofun fun h => ne (held.2.symm.trans h)
    · exact Iff.rfl
  have outlet : (missReleased s c w tag).outletClaim w.outlet = some (otherChannel c) ↔
      s.outletClaim w.outlet = some (otherChannel c) := by
    rw [released.claim]
    split
    · next held => exact iff_of_false nofun fun h => ne (held.2.symm.trans h)
    · exact Iff.rfl
  have unready : (missReleased s c w tag).outletReady w.outlet = false := by
    have state : ((missReleased s c w tag).record w.outlet).state ≠ .active := by
      rw [released.record]
      split <;> exact lost
    by_contra ready
    exact state ((outletReady_iff _ _).1 (by simpa using ready)).1
  unfold State.blockFor
  rw [acceptance]
  cases s.acceptance w.segment with
  | noReference | full => rfl
  | accepts => exact if_congr segment rfl (if_congr outlet rfl (by rw [unready]; rfl))

/-! ## A missed CLOSE (R92) -/

theorem closeMissed_again {tag : Nat} {stray : Bool} (own : stray = false) (state : (s.channel c).state = .closing)
    (mine : (s.channel c).tag = tag) (working : (s.channel c).working = some w) : s.closeMissed c tag stray =
      s.withFeed { s.feed with waiting := s.feed.waiting ++ [{
        isOpen := false, channel := c, slot := w.outlet, tag := tag, litres := 0, stray := false, since := s.now }] } := by
  unfold State.closeMissed State.queueExchange State.closeOf
  dsimp only
  rw [state, working, mine, own]
  exact if_pos ⟨rfl, rfl⟩

theorem closeMissed_away {tag : Nat} {stray : Bool}
    (h : stray = true ∨ (s.channel c).state ≠ .closing ∨ (s.channel c).tag ≠ tag) : s.closeMissed c tag stray = s := by
  unfold State.closeMissed
  dsimp only
  split
  · next state _ =>
    refine if_neg fun ⟨own, mine⟩ => ?_
    rcases h with away | other | tag
    · rw [away] at own
      exact nomatch own
    · exact other state
    · exact tag mine
  · rfl

end Sys2Proof.Proofs
end


section
/-! PROOFS. Silence, settled (O46). -/

namespace Sys2Proof.Proofs

open Sys2Proof Sys2Proof.Machine Sys2Proof.Laws

variable {s t : State} {i : Slot} {c : Channel} {w : WorkingCopy}

/-- The exchange on the ring is in its window, which has ended. -/
theorem replyWindowExpiry_due {x : Exchange} {ends : Nat} (ring : s.ring = some x) (phase : x.phase = .window ends)
    (past : ends ≤ s.now) : s.replyWindowExpiry =
      if x.discarded then s.freeRing
      else if x.retry then s.exchangeMissed x.kind
      else (s.withRing (some { x with retry := true, phase := .sending })).withPower { s.power with ringDriver := true } := by
  unfold State.replyWindowExpiry
  rw [ring]
  dsimp only
  rw [phase]
  exact if_pos past

theorem replyWindowExpiry_early (h : ∀ x ends, s.ring = some x → x.phase = .window ends → s.now < ends) :
    s.replyWindowExpiry = s := by
  unfold State.replyWindowExpiry
  split
  · next x ring =>
    split
    · next ends phase => exact if_neg (Nat.not_le.2 (h x ends ring phase))
    · rfl
  · rfl

/-- A miss does not look at the moment of the exchange's end or at the due poll. -/
theorem missed_behind (r : NodeRecord) (limit : Nat) (ended due : Option Nat) :
    NodeRecord.missed { r with lastExchangeEnd := ended, pollDue := due } limit =
      { r.missed limit with lastExchangeEnd := ended, pollDue := due } := by
  unfold NodeRecord.missed
  dsimp only
  split <;> rfl

/-- Settles O46: early and late windows, the retry, and the miss of each kind of exchange. -/
theorem silenceIsRetriedThenMissed : Obligations.SilenceIsRetriedThenMissed := by
  refine ⟨fun s running early => ?_, ?_, ?_, ?_, ?_⟩
  · rw [exec_event running State.replyWindowExpiry rfl, replyWindowExpiry_early early]
  · intro s x ends running ring phase past fires missed told ended
    have due := replyWindowExpiry_due ring phase past
    have taken : exec .replyWindowExpiry s = .next s.replyWindowExpiry := exec_event running State.replyWindowExpiry rfl
    have freed (i : Slot) (m : Bool) : s.freeRing.missNode i m =
        told ((s.withRing none).setRecord i (missed i)) i m := by
      show s.freeRing.updateState i ((s.record i).missed s.params.missLimit) m = _
      rw [updateState_eq]
      rfl
    have exchanged (i : Slot) (m : Bool) : (s.endExchange i).missNode i m = ended i m := by
      have record : (endedRecord s i).missed s.params.missLimit = { missed i with
          lastExchangeEnd := some s.now
          pollDue := if (s.outletClaim i).isSome then some (s.now + s.params.outletPollMs) else (s.record i).pollDue } :=
        missed_behind _ _ _ _
      show (s.endExchange i).updateState i (((s.endExchange i).record i).missed s.params.missLimit) m = _
      rw [updateState_eq, endExchange_record, record, endExchange_setRecord]
      rfl
    have sweeps (i : Slot) (m : Bool) : (ended i m).sweep = s.sweep :=
      (congrArg State.sweep (exchanged i m)).symm.trans (updateState_rest _ _ _ _).1
    have dispatch (i : Slot) (m : Bool) : (told ((s.withRing none).setRecord i (missed i)) i m).dispatch = s.dispatch :=
      (congrArg State.dispatch (freed i m)).symm.trans (updateState_rest _ _ _ _).2
    have demanded (i : Slot) : (s.freeRing.missNode i false).demandEnded i .unconfirmed =
        (told ((s.withRing none).setRecord i (missed i)) i false).withDispatch (s.dispatch.demandEnded i .unconfirmed) := by
      rw [freed, demandEnded_dispatch _ _ (dispatch i false)]
    clear_value told ended
    refine ⟨fun void => ?_, fun live retry => ?_, fun live retry => ?_⟩
    · show exec .replyWindowExpiry s = _
      rw [taken, due, void]
      rfl
    · show exec .replyWindowExpiry s = _
      rw [taken, due, live, retry]
      rfl
    · have fired {u : State} (kind : s.exchangeMissed x.kind = u) : fires u := by
        show exec .replyWindowExpiry s = _
        rw [taken, due, live, retry, ← kind]
        rfl
      refine ⟨fun i kind => fired ?_, fun i kind sorted => ⟨fun j mem above least => fired ?_, fun last => fired ?_⟩,
        fun i kind away => fired ?_, fun i kind demanding cursor => ?_, fun c i tag kind => fired ?_,
        fun c i tag stray kind => fired ?_, fun i target tag y kind slot => fired ?_⟩
      · rw [kind, ← exchanged]
        rfl
      · rw [kind]
        show ((s.endExchange i).missNode i false).advanceSweep i = _
        rw [exchanged, advanceSweep_next _ _ j (by rw [sweeps]; exact nextPolled_least sorted mem above least), sweeps]
      · rw [kind]
        show ((s.endExchange i).missNode i false).advanceSweep i = _
        rw [exchanged, State.advanceSweep, sweeps, nextPolled_none last]
      · rw [kind]
        show (s.freeRing.missNode i false).demandEnded i .unconfirmed = _
        rw [demanded, demandEnded_away away, ← dispatch i false]
        rfl
      · intro entries u
        have missed : s.exchangeMissed x.kind = u.withDispatch (s.dispatch.demandEnded i .unconfirmed) := by
          rw [kind]
          exact demanded i
        have outcome (e : DispatchEntry) : (if e.slot = i then { e with outcome := .unconfirmed } else e).outcome = .acked ↔
            e.slot ≠ i ∧ e.outcome = .acked := by
          split
          · next mine => simp [mine]
          · next other => simp [other]
        have acks : (∃ e ∈ withOutcome s.dispatch.entries i .unconfirmed, e.outcome = .acked) ↔
            ∃ e ∈ s.dispatch.entries, e.slot ≠ i ∧ e.outcome = .acked := by
          simp only [withOutcome, List.mem_map, exists_exists_and_eq_and, outcome]
        refine ⟨fun n after before split behind earlier => fired ?_, fun last any => fired ?_, fun last none_ => fired ?_⟩
        · rw [missed, demandEnded_next demanding cursor split behind earlier]
          rfl
        · rw [missed, demandEnded_last demanding cursor last, if_pos (acks.2 any)]
          rfl
        · rw [missed, demandEnded_last demanding cursor last, if_neg fun any => ?_]
          · rfl
          · obtain ⟨e, mem, other, acked⟩ := acks.1 any
            exact (none_ e mem).elim other (· acked)
      · rw [kind, ← exchanged]
        rfl
      · rw [kind, ← exchanged]
        rfl
      · rw [kind]
        show s.freeRing.endRelay i none = _
        unfold State.endRelay
        have same : s.freeRing.relaySlot i = some y := slot
        rw [same]
        rfl
  · intro s c tag x t
    refine ⟨fun away => openMissed_away away, fun w mine open_ working other => ?_⟩
    intro held stray released
    obtain ⟨base, own, frame⟩ := missReleased_alone (s := s) (c := c) (w := w) (tag := tag) other
    have ends {u : State} (h : MissReleased s c w tag u) : released u := by
      refine ⟨h.wall, fun i => ?_, fun i => ?_, h.waiting, h.other⟩
      · exact h.claim i
      · exact h.record i
    obtain ⟨opened, stops, finishes⟩ := openMissed_eq mine open_ working
    refine ⟨fun state lost => ?_, fun state cause => ?_, fun state stop halt => ?_⟩
    · have reason := blockFor_missed (tag := tag) other lost
      have blocked : (missReleased s c w tag).blockFor c w ≠ .none := by
        rw [reason]
        split
        · decide
        · decide
        · split
          · decide
          · split <;> decide
      have waits := (resumeWait_cases (s := missReleased s c w tag) ((congrArg ChannelContext.working own).trans working)).2
        blocked
      have now : (missReleased s c w tag).now = s.now := by rw [frame]; rfl
      have params : (missReleased s c w tag).params = s.params := by rw [frame]; rfl
      rw [own, now, params, reason] at waits
      have met : t = ((missReleased s c w tag).setChannel c _).evaluateJam := (opened state).trans (congrArg _ waits)
      clear_value t
      refine ⟨?_, ?_, fun y ne => ?_, ?_⟩
      · rw [met]
        exact ends (base.setChannel _).evaluateJam
      · rw [met, evaluateJam_source, meetsJam_evaluateJam, meetsJam_evaluateJam]
      · rw [met, (evaluateJam_step _ c).conditions y ne, frame]
        rfl
      · rw [met, evaluateJam_channel, channel_setChannel_same]
        rfl
    · have met := stops state cause
      refine ⟨?_, ?_⟩
      · show released (s.openMissed c tag)
        rw [met]
        exact ends (base.setChannel _).evaluateJam
      · show (s.openMissed c tag).channel c = _
        rw [met, evaluateJam_channel, channel_setChannel_same]
    · exact ⟨missReleased s c w tag, ends base, own, frame, finishes state stop halt⟩
  · intro s c tag w x r u mine open_ working
    have same : u = missReleased s c w tag := by
      have now := (releaseClaims_context s c w).2
      show _ = State.withFeed _ _
      rfl
    rw [same]
    exact openMissed_eq mine open_ working
  · intro s c tag stray x
    exact ⟨fun w own state mine working => closeMissed_again own state mine working, closeMissed_away⟩

end Sys2Proof.Proofs
end


section
/-! PROOFS. Reports (O41): what the block of each kind does with one, and what it leaves. -/

namespace Sys2Proof.Proofs

open Sys2Proof Sys2Proof.Machine Sys2Proof.Laws

variable {s t u : State} {i : Slot}

/-! ## Frames of the blocks that a report reaches -/

theorem stopChannel_event (s : State) (c : Channel) (k : CloseCause) : FeedEvent s (s.stopChannel c k) := by
  unfold State.stopChannel
  dsimp only
  refine .trans ?_ (evaluateJam_event _)
  split
  · exact askClose_event s c k
  · exact setChannel_event s c _
  · exact setChannel_event s c _
  · exact setChannel_event s c _
  · exact .refl s
  · exact .refl s
  · exact .refl s

theorem haltFeed_event (s : State) (before : RiseMode) : FeedEvent s (s.haltFeed before) := by
  unfold State.haltFeed
  split
  · exact bothChannels_event s _ fun c u => stopChannel_event u c .halt
  · exact .refl s

/-- A HOLD- or NOTE-class source takes no mode out of HALT and none into it. -/
theorem evaluate_in_halt {c : Cond} (a : Bool) (d : Option Nat) (cls : c.cls ≠ .halt) (h : s.mode = .halt) :
    (s.evaluate c a d).mode = .halt := by
  unfold State.evaluate
  split
  · refine ((raise_cases s c d).2.2 (fun ⟨_, k, _⟩ => cls k) fun ⟨_, _, m⟩ => ?_).1.trans h
    rcases m with m | m <;> exact nomatch h.symm.trans m
  · refine ((clear_cases s c).2 fun ⟨_, _, m, _⟩ => ?_).1.trans h
    exact nomatch h.symm.trans m
  · exact h
  · exact h

theorem evaluateNodes_in_halt (h : s.mode = .halt) : s.evaluateNodes.mode = .halt :=
  evaluate_in_halt _ _ (by decide) (evaluate_in_halt _ _ (by decide) h)

/-- What the checks of a stroke leave beside records, conditions and mode. -/
theorem CheckFrame.rest (h : CheckFrame s i u) : around u = around s ∧ u.feed = s.feed ∧ u.walls = s.walls := by
  obtain ⟨frame, -, -, -⟩ := h
  generalize u.records = r, u.conditions = x, u.mode = m, u.transit = a at frame
  subst frame
  exact ⟨rfl, rfl, rfl⟩

/-- Stroke verification: records but for the slot's short counter, the other expectations, the wall and, but where the mode
enters HALT, the feed stay. -/
theorem verifyStroke_rest (s : State) (i : Slot) (height : Nat) (previous : Option Nat) :
    let v := s.verifyStroke i height previous
    around v = { around s with expectations := v.expectations } ∧ v.expectations = s.expectations.write i none ∧
    v.walls = s.walls ∧ (∀ j, j ≠ i → v.record j = s.record j) ∧
    v.record i = { s.record i with shortCounter := (v.record i).shortCounter } ∧
    (s.mode = .halt ∨ v.mode ≠ .halt → v.feed = s.feed) := by
  have checked (u : State) (check : CheckFrame s i u) : let v := (u.setExpectation i none).haltFeed s.mode
      around v = { around s with expectations := v.expectations } ∧ v.expectations = s.expectations.write i none ∧
      v.walls = s.walls ∧ (∀ j, j ≠ i → v.record j = s.record j) ∧
      v.record i = { s.record i with shortCounter := (v.record i).shortCounter } ∧
      (s.mode = .halt ∨ v.mode ≠ .halt → v.feed = s.feed) := by
    obtain ⟨same, feed, walls⟩ := check.rest
    have event := (haltFeed_event (u.setExpectation i none) s.mode).around
    have expectations : u.expectations = s.expectations := congrArg Around.expectations same
    have cleared : ((u.setExpectation i none).haltFeed s.mode).expectations = s.expectations.write i none := by
      rw [haltFeed_expectations, ← expectations]
      rfl
    have record (j : Slot) : ((u.setExpectation i none).haltFeed s.mode).record j = u.record j :=
      congrArg (·.read j) (haltFeed_records _ _)
    refine ⟨?_, cleared, (haltFeed_walls _ _).trans walls, fun j ne => (record j).trans (check.others j ne), ?_, fun h => ?_⟩
    · rw [event, cleared, ← expectations]
      show { around u with expectations := u.expectations.write i none } = _
      rw [same]
    · rw [record]
      exact check.counter
    · rw [haltFeed_mode] at h
      rw [haltFeed_kept _ _ h.symm]
      exact feed
  cases previous with
  | none => exact checked s ⟨rfl, rfl, fun _ _ => rfl, rfl⟩
  | some p =>
    rw [verifyStroke_eq]
    exact checked _ (strokeChecked_frame s i _ _ _)

/-- A judgement of monitors leaves every block but theirs. -/
theorem Judged.around {F : MonitorIx → MonitorRecord → MonitorRecord} (h : Judged s i F t) :
    around t = { around s with monitors := t.monitors } ∧ t.records = s.records ∧ t.walls = s.walls ∧ t.feed = s.feed := by
  have frame := h.frame
  clear h
  generalize t.monitors = m, t.conditions = x, t.mode = a, t.transit = b at frame
  subst frame
  exact ⟨rfl, rfl, rfl, rfl⟩

/-! ## A report at the block of its kind (R9) -/

/-- What a report at the block of its kind leaves and what it sets. -/
structure Handed (s : State) (i : Slot) (kind : NodeKind) (report : Report) (v : State) : Prop where
  around : around v = { around s with expectations := v.expectations, monitors := v.monitors }
  others : ∀ j, j ≠ i → v.record j = { s.record j with pollDue := (v.record j).pollDue }
  own : v.record i = { s.record i with
    shortCounter := (v.record i).shortCounter, previousHeight := (v.record i).previousHeight, pollDue := (v.record i).pollDue }
  jack : ∀ height tag fault, report = .jack height tag fault →
    (v.record i).previousHeight = some height ∧ v.expectation i = none
  previous : kind ≠ .jack → (v.record i).previousHeight = (s.record i).previousHeight
  expectations : ∀ j, j ≠ i → v.expectation j = s.expectation j
  walls : kind ≠ .outlet → v.walls = s.walls
  feed : kind ≠ .outlet → kind = .sensor ∨ s.mode = .halt ∨ v.mode ≠ .halt → v.feed = s.feed
  monitors : kind ≠ .sensor → v.monitors = s.monitors

theorem takeJackHeight_handed (s : State) (i : Slot) (height : Nat) (previous : Option Nat) {tag : Nat} {fault : Bool} :
    Handed s i .jack (.jack height tag fault) (s.takeJackHeight i height previous) := by
  obtain ⟨rest, cleared, walls, others, own, feed⟩ := verifyStroke_rest s i height previous
  unfold State.takeJackHeight
  dsimp only
  generalize s.verifyStroke i height previous = v at *
  have record (j : Slot) : (v.setRecord i { v.record i with previousHeight := some height }).record j =
      if j = i then { v.record i with previousHeight := some height } else v.record j := table_read_write _ _ _ _
  have monitors : v.monitors = s.monitors := congrArg Around.monitors rest
  refine ⟨?_, fun j ne => ?_, ?_, fun h t f same => ⟨?_, ?_⟩, fun no => absurd rfl no, fun j ne => ?_, fun _ => walls,
    fun _ h => feed (h.resolve_left nofun), fun _ => monitors⟩
  · have monitored : Proofs.around v = { Proofs.around s with expectations := v.expectations, monitors := v.monitors } := by
      rw [rest, monitors]
      rfl
    exact monitored
  · rw [record, if_neg ne, others j ne]
  · rw [record, if_pos rfl]
    show _ = NodeRecord.mk _ _ _ _ _ _ _
    rw [own]
  · cases same
    rw [record, if_pos rfl]
  · show v.expectations.read i = none
    rw [cleared]
    exact table_read_write_same _ _ _
  · show v.expectations.read j = _
    rw [cleared]
    exact table_read_write_other _ _ _ _ ne

theorem takeSensorValue_handed (s : State) (i : Slot) (value : Int) (old new : NodeState) {fault : Bool} :
    Handed s i .sensor (.sensor value fault) (s.takeSensorValue i value old new) := by
  have rest : Proofs.around (s.takeSensorValue i value old new) =
      { Proofs.around s with monitors := (s.takeSensorValue i value old new).monitors } ∧
      (s.takeSensorValue i value old new).records = s.records ∧ (s.takeSensorValue i value old new).walls = s.walls ∧
      (s.takeSensorValue i value old new).feed = s.feed := by
    have told : Proofs.around (if old = new then s else s.sensorStateChanged i new) =
        { Proofs.around s with monitors := (if old = new then s else s.sensorStateChanged i new).monitors } ∧
        (if old = new then s else s.sensorStateChanged i new).records = s.records ∧
        (if old = new then s else s.sensorStateChanged i new).walls = s.walls ∧
        (if old = new then s else s.sensorStateChanged i new).feed = s.feed := by
      split
      · exact ⟨rfl, rfl, rfl, rfl⟩
      · exact (sensorStateChanged_judged s i new).around
    unfold State.takeSensorValue
    dsimp only
    generalize (if old = new then s else s.sensorStateChanged i new) = u at *
    split
    · obtain ⟨same, records, walls, feed⟩ := (judgeValue_judged u i value).around
      obtain ⟨same', records', walls', feed'⟩ := told
      exact ⟨by rw [same, same'], records.trans records', walls.trans walls', feed.trans feed'⟩
    · exact told
  generalize s.takeSensorValue i value old new = v at *
  obtain ⟨same, records, walls, feed⟩ := rest
  have record (j : Slot) : v.record j = s.record j := congrArg (·.read j) records
  have expectations : v.expectations = s.expectations := congrArg Around.expectations same
  refine ⟨?_, fun j _ => by rw [record], by rw [record], nofun, fun _ => by rw [record], fun j _ => ?_, fun _ => walls,
    fun _ _ => feed, fun no => absurd rfl no⟩
  · rw [same, expectations]
    rfl
  · exact congrArg (·.read j) expectations

theorem outletReport_handed (s : State) (i : Slot) (report : Report) (outlet : ∀ h t f, report ≠ .jack h t f) :
    Handed s i .outlet report (s.outletReport i report) := by
  have event := outletReport_event s i report
  generalize s.outletReport i report = v at *
  have expectations : v.expectations = s.expectations := congrArg Around.expectations event.around
  have monitors : v.monitors = s.monitors := congrArg Around.monitors event.around
  refine ⟨?_, fun j _ => event.record j, ?_, fun h t f is => absurd is (outlet h t f), fun _ => ?_, fun j _ => ?_,
    fun no => absurd rfl no, fun no => absurd rfl no, fun _ => monitors⟩
  · rw [event.around, expectations, monitors]
    rfl
  · rw [event.record i]
  · rw [event.record i]
  · exact congrArg (·.read j) expectations

theorem handReport_handed (s : State) (i : Slot) {kind : NodeKind} {report : Report} {payload : List Byte}
    (old new : NodeState) (previous : Option Nat) (spelled : report.SpelledBy kind payload) :
    Handed s i kind report (s.handReport i report old new previous) := by
  cases report with
  | jack height tag fault =>
    obtain rfl := spelled.1
    exact takeJackHeight_handed s i height previous
  | sensor value fault =>
    obtain rfl := spelled.1
    exact takeSensorValue_handed s i value old new
  | outlet ready ended fault d tag =>
    obtain rfl := spelled.1
    exact outletReport_handed s i _ nofun

/-! ## The agents (R182) -/

/-- An offer to the agents leaves what is not theirs. -/
theorem offerReport_rest (s : State) (i : Slot) (kind : NodeKind) (previous : Option Nat) (report : Report) :
    let v := s.offerReport i kind previous report
    around v = { around s with agents := v.agents, console := v.console } ∧ v.records = s.records ∧ v.walls = s.walls ∧
    v.feed = s.feed ∧ v.mode = s.mode ∧
    v.console = { s.console with forward := v.console.forward, forwardHeld := v.console.forwardHeld } := by
  have frame := offerReport_frame s i kind previous report
  dsimp only
  generalize s.offerReport i kind previous report = v at *
  generalize v.console.forward = f, v.console.forwardHeld = h, v.agents = a at frame
  subst frame
  exact ⟨rfl, rfl, rfl, rfl, rfl, rfl⟩

end Sys2Proof.Proofs
end


section
/-! PROOFS. Reports, settled (O41). -/

namespace Sys2Proof.Proofs

open Sys2Proof Sys2Proof.Machine Sys2Proof.Laws

variable {s t u : State} {i : Slot}

/-! ## The window that takes a report -/

theorem ringReport_outlet {x : Exchange} {address : Byte} {payload : List Byte} {report : Report}
    (takes : s.Takes address x) (kind : x.kind = .outletPoll i) (spelled : report.SpelledBy (s.node i).kind payload) :
    s.ringReport address payload = if x.discarded then s.freeRing else (s.endExchange i).takeReport i report := by
  unfold State.ringReport
  rw [(openWindow_iff s address x).2 takes]
  dsimp only
  rw [kind]
  dsimp only
  rw [(parseReport_iff _ _ _).2 spelled]

theorem ringReport_sweep {x : Exchange} {address : Byte} {payload : List Byte} {report : Report}
    (takes : s.Takes address x) (kind : x.kind = .sweepPoll i) (spelled : report.SpelledBy (s.node i).kind payload) :
    s.ringReport address payload = if x.discarded then s.freeRing
      else (((s.endExchange i).takeReport i report).addToReplies i).advanceSweep i := by
  unfold State.ringReport
  rw [(openWindow_iff s address x).2 takes]
  dsimp only
  rw [kind]
  dsimp only
  rw [(parseReport_iff _ _ _).2 spelled]

theorem ringReport_untaken {address : Byte} {payload : List Byte}
    (h : ∀ x i, s.Takes address x → x.kind = .outletPoll i ∨ x.kind = .sweepPoll i →
      ∀ report : Report, ¬ report.SpelledBy (s.node i).kind payload) : s.ringReport address payload = s := by
  have unparsed (x : Exchange) (i : Slot) (takes : s.openWindow address = some x)
      (kind : x.kind = .outletPoll i ∨ x.kind = .sweepPoll i) : parseReport (s.node i).kind payload = none := by
    cases parsed : parseReport (s.node i).kind payload with
    | none => rfl
    | some report => exact absurd ((parseReport_iff _ _ _).1 parsed) (h x i ((openWindow_iff s address x).1 takes) kind report)
  unfold State.ringReport
  cases w : s.openWindow address with
  | none => rfl
  | some x =>
    dsimp only
    cases kind : x.kind with
    | sweepPoll i =>
      dsimp only
      rw [unparsed x i w (.inr kind)]
    | outletPoll i =>
      dsimp only
      rw [unparsed x i w (.inl kind)]
    | demand | go | openOutlet | closeOutlet | relay => rfl

/-! ## The record and what follows it -/

/-- The record of a slot after a report at the end of its poll (R3, R19). -/
def reportedRecord (s : State) (i : Slot) (report : Report) : NodeRecord :=
  { s.record i with
    missCount := 0, lastReport := some report, state := if report.fault then .faulted else .active
    previousHeight := if (s.record i).state = .lost then none else (s.record i).previousHeight
    lastExchangeEnd := some s.now
    pollDue := if (s.outletClaim i).isSome then some (s.now + s.params.outletPollMs) else (s.record i).pollDue }

/-- The state with the report's record, in which a change of the node state has been evaluated (R10). -/
def recorded (s : State) (i : Slot) (report : Report) : State :=
  if (s.record i).state = (reportedRecord s i report).state then (s.withRing none).setRecord i (reportedRecord s i report)
  else ((s.withRing none).setRecord i (reportedRecord s i report)).evaluateNodes

theorem takeReport_eq (s : State) (i : Slot) (report : Report) : (s.endExchange i).takeReport i report =
    ((recorded s i report).handReport i report (s.record i).state (reportedRecord s i report).state
      (reportedRecord s i report).previousHeight).offerReport i (s.node i).kind (reportedRecord s i report).previousHeight
      report := by
  have record : ((s.endExchange i).record i).reported report = reportedRecord s i report := by
    rw [endExchange_record]
    rfl
  have state : ((s.endExchange i).record i).state = (s.record i).state := by
    rw [endExchange_record]
    rfl
  unfold State.takeReport
  dsimp only
  rw [record, state]
  unfold State.updateRecord
  dsimp only
  rw [endExchange_setRecord, state]
  rfl

theorem recorded_rest (s : State) (i : Slot) (report : Report) : let v := recorded s i report
    around v = { around s with ring := none } ∧ v.feed = s.feed ∧ v.walls = s.walls ∧ (s.mode = .halt → v.mode = .halt) ∧
    ∀ j, v.record j = if j = i then reportedRecord s i report else s.record j := by
  have read (j : Slot) : ((s.withRing none).setRecord i (reportedRecord s i report)).record j =
      if j = i then reportedRecord s i report else s.record j := table_read_write _ _ _ _
  intro v
  by_cases same : (s.record i).state = (reportedRecord s i report).state
  · have is : v = (s.withRing none).setRecord i (reportedRecord s i report) := if_pos same
    rw [is]
    exact ⟨rfl, rfl, rfl, id, read⟩
  · have is : v = ((s.withRing none).setRecord i (reportedRecord s i report)).evaluateNodes := if_neg same
    obtain ⟨rest, feed, records⟩ := evaluateNodes_rest ((s.withRing none).setRecord i (reportedRecord s i report))
    have walls : v.walls = s.walls := by
      rw [is, evaluateNodes_frame]
      rfl
    rw [← is] at rest feed records
    refine ⟨rest, feed, walls, fun h => is ▸ evaluateNodes_in_halt h, fun j => ?_⟩
    rw [← read]
    exact congrArg (·.read j) records

/-- What a report leaves and sets once its block and the agents have taken it. -/
structure Reported (s : State) (i : Slot) (report : Report) (v : State) : Prop where
  around : around v = { around s with
    ring := none, expectations := v.expectations, monitors := v.monitors, agents := v.agents, console := v.console }
  console : v.console = { s.console with forward := v.console.forward, forwardHeld := v.console.forwardHeld }
  own : v.record i = { reportedRecord s i report with
    shortCounter := (v.record i).shortCounter, previousHeight := (v.record i).previousHeight, pollDue := (v.record i).pollDue }
  others : ∀ j, j ≠ i → v.record j = { s.record j with pollDue := (v.record j).pollDue }
  jack : ∀ height tag fault, report = .jack height tag fault →
    (v.record i).previousHeight = some height ∧ v.expectation i = none
  previous : (s.node i).kind ≠ .jack → (v.record i).previousHeight = (reportedRecord s i report).previousHeight
  expectations : ∀ j, j ≠ i → v.expectation j = s.expectation j
  feed : (s.node i).kind ≠ .outlet → v.walls = s.walls ∧
    ((s.node i).kind = .sensor ∨ s.mode = .halt ∨ v.mode ≠ .halt → v.feed = s.feed)
  monitors : (s.node i).kind ≠ .sensor → v.monitors = s.monitors

theorem takeReport_reported {report : Report} {payload : List Byte} (spelled : report.SpelledBy (s.node i).kind payload) :
    Reported s i report ((s.endExchange i).takeReport i report) := by
  rw [takeReport_eq]
  obtain ⟨rest, feed, walls, halt, record⟩ := recorded_rest s i report
  have handed := handReport_handed (recorded s i report) i (s.record i).state (reportedRecord s i report).state
    (reportedRecord s i report).previousHeight spelled
  generalize recorded s i report = judged at *
  generalize judged.handReport i report (s.record i).state (reportedRecord s i report).state
    (reportedRecord s i report).previousHeight = u at *
  obtain ⟨offered, records, walls', feed', mode, console⟩ := offerReport_rest u i (s.node i).kind
    (reportedRecord s i report).previousHeight report
  generalize u.offerReport i (s.node i).kind (reportedRecord s i report).previousHeight report = v at *
  have recordV (j : Slot) : v.record j = u.record j := congrArg (·.read j) records
  have expectations : v.expectations = u.expectations := congrArg Around.expectations offered
  have monitors : v.monitors = u.monitors := congrArg Around.monitors offered
  have consoleU : u.console = s.console := (congrArg Around.console handed.around).trans (congrArg Around.console rest)
  have expectation (j : Slot) : v.expectation j = u.expectation j := congrArg (·.read j) expectations
  refine ⟨?_, ?_, ?_, fun j ne => ?_, fun h t f is => ?_, fun no => ?_, fun j ne => ?_, fun no => ⟨?_, fun h => ?_⟩, fun no => ?_⟩
  · rw [offered, handed.around, rest, expectations, monitors]
  · rw [console, consoleU]
  · rw [recordV, handed.own, record, if_pos rfl]
  · rw [recordV, handed.others j ne, record, if_neg ne]
  · rw [recordV, expectation]
    exact handed.jack h t f is
  · rw [recordV, handed.previous no, record, if_pos rfl]
  · rw [expectation, handed.expectations j ne]
    exact congrArg (fun x => Table.read (Around.expectations x) j) rest
  · rw [walls', handed.walls no, walls]
  · rw [feed', handed.feed no (h.imp_right fun k => k.imp halt fun n => mode ▸ n), feed]
  · rw [monitors, handed.monitors no]
    exact congrArg Around.monitors rest

/-- Settles O41: the record, the block of the kind, the agents and the sweep, and the frames that no window takes. -/
theorem reportUpdatesTheRecord : Obligations.ReportUpdatesTheRecord := by
  refine ⟨?_, fun s address payload running h => ?_, ?_⟩
  · intro s x i ends address payload report running ring phase inTime asked live spelled poll state previous kept judged handed
      v w
    have takes : s.Takes address x := ⟨ring, ⟨ends, phase, inTime⟩, asked⟩
    have taken : exec (.ringReport address payload) s = .next (s.ringReport address payload) :=
      exec_event running (fun t => t.ringReport address payload) rfl
    have hands : (recorded s i report).handReport i report (s.record i).state (reportedRecord s i report).state
        (reportedRecord s i report).previousHeight = handed := by
      cases report <;> rfl
    have is : (s.endExchange i).takeReport i report = v := by
      rw [takeReport_eq, hands]
      rfl
    have reported := takeReport_reported spelled
    rw [is] at reported
    have evaluated (changed : (s.record i).state ≠ state) : judged = kept.evaluateNodes := if_neg changed
    have nodes := evaluateNodes_cases kept
    have rest := evaluateNodes_rest kept
    clear_value v
    obtain ⟨rest', console, own, others, jack, prev, expectations, feed, monitors⟩ := reported
    have sweep : v.sweep = s.sweep := congrArg Around.sweep rest'
    have joined : v.addToReplies i = w := by
      unfold State.addToReplies
      rw [sweep]
      exact congrArg v.withSweep (by simp)
    refine ⟨fun kind => ?_, fun kind sorted => ⟨fun j mem above least => ?_, fun last => ?_⟩,
      ⟨congrArg Around.ring rest', ?_, ?_, ?_, ?_, sweep⟩, jack, fun no => prev no, others, fun changed => ?_, ?_, console,
      expectations, feed, monitors⟩
    · rw [taken, ringReport_outlet takes kind spelled, live, is]
      rfl
    · have next : nextPolled w.sweep.polled i = some j := nextPolled_least sorted mem above least
      rw [taken, ringReport_sweep takes kind spelled, live, is, joined, advanceSweep_next _ _ _ next]
      rfl
    · have next : nextPolled w.sweep.polled i = none := nextPolled_none last
      rw [taken, ringReport_sweep takes kind spelled, live, is, joined, State.advanceSweep, next]
      rfl
    · rw [own]
      rfl
    · rw [own]
      rfl
    · rw [own]
      rfl
    · rw [own]
      rfl
    · rw [evaluated changed]
      obtain ⟨-, jackLost, nodeLost, -⟩ := nodes
      have same (j : Slot) : kept.evaluateNodes.record j = kept.record j := congrArg (·.read j) rest.2.2
      refine ⟨jackLost.trans (exists_congr fun j => ?_), nodeLost.trans (exists_congr fun j => ?_)⟩
      · rw [same]
        rfl
      · rw [same]
        rfl
    · exact ⟨congrArg Around.power rest', congrArg Around.nodes rest', congrArg Around.dispatch rest',
        congrArg Around.level rest', congrArg Around.segments rest', congrArg Around.pourClock rest',
        congrArg Around.markers rest', congrArg Around.command rest', congrArg Around.params rest',
        congrArg Around.relays rest', congrArg Around.jobs rest', congrArg Around.descriptors rest'⟩
  · rw [exec_event running (fun t => t.ringReport address payload) rfl, ringReport_untaken h]
  · intro s x i address payload report running takes void kind spelled
    rw [exec_event running (fun t => t.ringReport address payload) rfl]
    rcases kind with kind | kind
    · rw [ringReport_outlet takes kind spelled, void]
      rfl
    · rw [ringReport_sweep takes kind spelled, void]
      rfl

end Sys2Proof.Proofs
end


section
/-! PROOFS. The application of a commit (O22), part 1: the tables with every staged edit in place. -/

namespace Sys2Proof.Proofs

open Sys2Proof Sys2Proof.Machine Sys2Proof.Laws

variable {s t : State}

/-! ## A run of edits -/

/-- A part of the tables that no edit of a list touches. -/
theorem foldl_applyEdit_kept {α : Type} (r : State → α) :
    ∀ (edits : List Edit) (u : State), (∀ e ∈ edits, ∀ v : State, r (v.applyEdit e) = r v) →
      r (edits.foldl State.applyEdit u) = r u
  | [], _, _ => rfl
  | e :: es, u, h => (foldl_applyEdit_kept r es (u.applyEdit e) fun x mem => h x (List.mem_cons_of_mem _ mem)).trans
      (h e List.mem_cons_self u)

/-- A part of the tables that one edit of a list writes, and no edit with another key. -/
theorem foldl_applyEdit_written {α : Type} (r : State → α) {e : Edit} {a : α} (writes : ∀ v : State, r (v.applyEdit e) = a)
    (others : ∀ x : Edit, x.key ≠ e.key → ∀ v : State, r (v.applyEdit x) = r v) :
    ∀ (edits : List Edit) (u : State), edits.Pairwise (fun x y => x.key ≠ y.key) → e ∈ edits →
      r (edits.foldl State.applyEdit u) = a := by
  intro edits
  induction edits with
  | nil => exact fun _ _ mem => nomatch mem
  | cons x xs ih =>
    intro u distinct mem
    obtain ⟨first, rest⟩ := List.pairwise_cons.1 distinct
    rw [List.foldl_cons]
    rcases List.mem_cons.1 mem with same | later
    · rw [← same, foldl_applyEdit_kept r xs (u.applyEdit e) fun y member => others y (Ne.symm (same ▸ first y member))]
      exact writes u
    · exact ih (u.applyEdit x) rest later

/-! ## What an edit writes -/

theorem applyEdit_node (v : State) (x : Edit) (i : Slot) :
    (∀ e, x = .node i e → (v.applyEdit x).node i = e) ∧ ((∀ e, x ≠ .node i e) → (v.applyEdit x).node i = v.node i) := by
  cases x with
  | node j e =>
    refine ⟨fun e' is => ?_, fun no => ?_⟩
    · cases is
      exact table_read_write_same _ _ _
    · exact table_read_write_other _ _ _ _ fun same => no e (by rw [same])
  | segment | descriptor | monitor | marker | agent | parameter => exact ⟨nofun, fun _ => rfl⟩

theorem applyEdit_segment (v : State) (x : Edit) (i : SegmentIx) :
    (∀ e, x = .segment i e → (v.applyEdit x).segment i = e) ∧
    ((∀ e, x ≠ .segment i e) → (v.applyEdit x).segment i = v.segment i) := by
  cases x with
  | segment j e =>
    refine ⟨fun e' is => ?_, fun no => ?_⟩
    · cases is
      exact table_read_write_same _ _ _
    · exact table_read_write_other _ _ _ _ fun same => no e (by rw [same])
  | node | descriptor | monitor | marker | agent | parameter => exact ⟨nofun, fun _ => rfl⟩

theorem applyEdit_descriptor (v : State) (x : Edit) (i : DescriptorIx) :
    (∀ e, x = .descriptor i e → (v.applyEdit x).descriptor i = e) ∧
    ((∀ e, x ≠ .descriptor i e) → (v.applyEdit x).descriptor i = v.descriptor i) := by
  cases x with
  | descriptor j e =>
    refine ⟨fun e' is => ?_, fun no => ?_⟩
    · cases is
      exact table_read_write_same _ _ _
    · exact table_read_write_other _ _ _ _ fun same => no e (by rw [same])
  | node | segment | monitor | marker | agent | parameter => exact ⟨nofun, fun _ => rfl⟩

theorem applyEdit_monitor (v : State) (x : Edit) (i : MonitorIx) :
    (∀ e, x = .monitor i e → (v.applyEdit x).monitor i = e) ∧
    ((∀ e, x ≠ .monitor i e) → (v.applyEdit x).monitor i = v.monitor i) := by
  cases x with
  | monitor j e =>
    refine ⟨fun e' is => ?_, fun no => ?_⟩
    · cases is
      exact table_read_write_same _ _ _
    · exact table_read_write_other _ _ _ _ fun same => no e (by rw [same])
  | node | segment | descriptor | marker | agent | parameter => exact ⟨nofun, fun _ => rfl⟩

theorem applyEdit_marker (v : State) (x : Edit) (i : MarkerIx) :
    (∀ e, x = .marker i e → (v.applyEdit x).marker i = e) ∧
    ((∀ e, x ≠ .marker i e) → (v.applyEdit x).marker i = v.marker i) := by
  cases x with
  | marker j e =>
    refine ⟨fun e' is => ?_, fun no => ?_⟩
    · cases is
      exact table_read_write_same _ _ _
    · exact table_read_write_other _ _ _ _ fun same => no e (by rw [same])
  | node | segment | descriptor | monitor | agent | parameter => exact ⟨nofun, fun _ => rfl⟩

theorem applyEdit_agent (v : State) (x : Edit) (i : AgentIx) :
    (∀ e, x = .agent i e → (v.applyEdit x).agents.entries.read i = e) ∧
    ((∀ e, x ≠ .agent i e) → (v.applyEdit x).agents.entries.read i = v.agents.entries.read i) := by
  cases x with
  | agent j e =>
    refine ⟨fun e' is => ?_, fun no => ?_⟩
    · cases is
      exact table_read_write_same _ _ _
    · exact table_read_write_other _ _ _ _ fun same => no e (by rw [same])
  | node | segment | descriptor | monitor | marker | parameter => exact ⟨nofun, fun _ => rfl⟩

theorem applyEdit_parameter (v : State) (x : Edit) (i : ParamIx) :
    (∀ e, x = .parameter i e → (v.applyEdit x).params.value i = e) ∧
    ((∀ e, x ≠ .parameter i e) → (v.applyEdit x).params.value i = v.params.value i) := by
  cases x with
  | parameter j e =>
    refine ⟨fun e' is => ?_, fun no => ?_⟩
    · cases is
      exact table_read_write_same _ _ _
    · exact table_read_write_other _ _ _ _ fun same => no e (by rw [same])
  | node | segment | descriptor | monitor | marker | agent => exact ⟨nofun, fun _ => rfl⟩

/-- What a run of edits leaves of an entry that the edits name by `mk`. -/
theorem prospective_entry {α : Type} (s : State) (inv : s.StagedInv) (r : State → α) (mk : α → Edit)
    (keyed : ∀ (x : Edit) (e : α), x = mk e → ∀ e', (mk e').key = x.key)
    (spec : ∀ (v : State) (x : Edit), (∀ e, x = mk e → r (v.applyEdit x) = e) ∧ ((∀ e, x ≠ mk e) → r (v.applyEdit x) = r v)) :
    (∀ e, mk e ∈ s.command.staged → r s.prospective = e) ∧
    ((∀ e, mk e ∉ s.command.staged) → r s.prospective = r s) := by
  refine ⟨fun e mem => ?_, fun none => ?_⟩
  · refine foldl_applyEdit_written r (fun v => (spec v (mk e)).1 e rfl) (fun x other v => (spec v x).2 fun e' is => ?_) _ _
      inv.2 mem
    exact other (keyed x e' is e).symm
  · exact foldl_applyEdit_kept r _ _ fun x mem v => (spec v x).2 fun e is => none e (is ▸ mem)

/-! ## What no edit touches -/

/-- What stands of a state beside its tables and parameters. -/
structure Live where
  power : Power
  now : Nat
  free : Nat
  pending : List Instr
  records : Table NodeRecord 128
  expectations : Table (Option Expectation) 128
  sweep : Sweep
  ring : Option Exchange
  dispatch : Dispatch
  mode : RiseMode
  level : LevelUnit
  walls : Table SegmentLive 32
  pourClock : Nat
  placementSeen : Option CycleResult
  channelA : ChannelContext
  channelB : ChannelContext
  outletClaims : Table (Option Channel) 128
  tagCounter : Nat
  note : Option DescriptorIx
  waiting : List FeedExchange
  seen : Option CycleResult
  conditions : Conditions
  monitors : Table MonitorRecord 8
  spent : Table Bool 24
  latest : Option MarkerIx
  command : CommandUnit
  counters : Table Nat 16
  drops : Table Nat 16
  console : Console
  relays : Relays
  transit : Transit
  jobs : List BeaconJob

def live (s : State) : Live :=
  { power := s.power, now := s.now, free := s.free, pending := s.pending, records := s.records, expectations := s.expectations
    sweep := s.sweep, ring := s.ring, dispatch := s.dispatch, mode := s.mode, level := s.level, walls := s.walls
    pourClock := s.pourClock, placementSeen := s.placementSeen, channelA := s.feed.channelA, channelB := s.feed.channelB
    outletClaims := s.feed.outletClaims, tagCounter := s.feed.tagCounter, note := s.feed.note, waiting := s.feed.waiting
    seen := s.feed.seen, conditions := s.conditions, monitors := s.monitors.records, spent := s.markers.spent
    latest := s.markers.latest, command := s.command, counters := s.agents.counters, drops := s.agents.drops
    console := s.console, relays := s.relays, transit := s.transit, jobs := s.jobs }

theorem prospective_live (s : State) : live s.prospective = live s :=
  foldl_applyEdit_kept live _ _ fun x _ v => by cases x <;> rfl

end Sys2Proof.Proofs
end


section
/-! PROOFS. The application of a commit (O22), part 2: what each block does with the new tables, in the model's order. -/

namespace Sys2Proof.Proofs

open Sys2Proof Sys2Proof.Machine Sys2Proof.Laws

variable {s t : State}

/-! ## The feed at a commit (R104 to R106) -/

theorem outletRemoved_event (s : State) (c : Channel) (w : WorkingCopy) : FeedEvent s (s.outletRemoved c w) := by
  have released := (withdrawExchanges_event s c).trans (releaseClaims_event _ c w)
  unfold State.outletRemoved
  dsimp only
  split
  · exact released.trans (setChannel_event _ c _)
  · exact released.trans (setChannel_event _ c _)
  · exact (released.trans (setChannel_event _ c _)).trans (finishDescriptor_event _ c)

theorem commitChannelFor_event (before : State) (nodes : Table NodeEntry 128) (segments : Table SegmentEntry 32) (c : Channel)
    (s : State) : FeedEvent s (State.commitChannelFor before nodes segments c s) := by
  unfold State.commitChannelFor
  dsimp only
  split
  · exact .refl s
  · split
    · exact openTest_event s c
    · split
      · exact outletRemoved_event s c _
      · split
        · exact askClose_event s c _
        · exact .refl s
    · split
      · exact outletRemoved_event s c _
      · exact .refl s
    · exact .refl s

/-- The contexts first, then both channels, then the waiting exchanges of slots that the tables keep. -/
theorem commitFeed_steps (s : State) (nodes : Table NodeEntry 128) (segments : Table SegmentEntry 32) :
    ∃ f, f.descriptors = s.feed.descriptors ∧ ∃ u,
      u = (s.withFeed f).bothChannels (State.commitChannelFor (s.withFeed f) nodes segments) ∧
      s.commitFeed nodes segments = (u.withFeed { u.feed with
        waiting := u.feed.waiting.filter fun x => (u.node x.slot).enabled }).evaluateJam :=
  ⟨{ s.feed with channelA := s.commitContext nodes segments s.feed.channelA
                 channelB := s.commitContext nodes segments s.feed.channelB }, rfl, _, rfl, rfl⟩

theorem withFeed_event (s : State) (f : Feed) (h : f.descriptors = s.feed.descriptors) : FeedEvent s (s.withFeed f) := by
  refine ⟨?_, fun _ => rfl, fun _ _ => .inl rfl⟩
  unfold Proofs.around
  rw [← h]
  rfl

theorem commitFeed_event (s : State) (nodes : Table NodeEntry 128) (segments : Table SegmentEntry 32) :
    FeedEvent s (s.commitFeed nodes segments) := by
  obtain ⟨f, descriptors, u, both, acts⟩ := commitFeed_steps s nodes segments
  have event := bothChannels_event (s.withFeed f) (State.commitChannelFor (s.withFeed f) nodes segments) fun c v =>
    commitChannelFor_event _ nodes segments c v
  rw [← both] at event
  rw [acts]
  exact (((withFeed_event s f descriptors).trans event).trans (withFeed_event u { u.feed with
    waiting := u.feed.waiting.filter fun x => (u.node x.slot).enabled } rfl)).trans (evaluateJam_event _)

theorem withFeed_engine (s : State) (f : Feed) : EngineStep s (s.withFeed f) := ⟨rfl, fun _ _ => rfl, rfl, fun _ => rfl⟩

theorem withFeed_counted_engine (s : State) (f : Feed) :
    EngineStep (s.withFree (s.free + 1)) ((s.withFeed f).withFree ((s.withFeed f).free + 1)) :=
  withFeed_engine (s.withFree (s.free + 1)) f

theorem commitFeed_engine (s : State) (nodes : Table NodeEntry 128) (segments : Table SegmentEntry 32) :
    EngineStep (s.withFree (s.free + 1)) (s.commitFeed nodes segments) := by
  obtain ⟨f, -, u, both, acts⟩ := commitFeed_steps s nodes segments
  have step := bothChannels_step (s.withFeed f) (State.commitChannelFor (s.withFeed f) nodes segments) fun c v =>
    commitChannelFor_step _ nodes segments c v
  rw [← both] at step
  rw [acts]
  exact (((withFeed_counted_engine s f).trans step).trans (withFeed_engine u _)).trans (evaluateJam_step _ .a).engine

/-! ## The blocks before the feed -/

theorem commitRecords_record (p : State) (old : Table NodeEntry 128) (i : Slot) :
    (p.commitRecords old).record i = (p.record i).committed (nodeChange (old.read i) (p.node i)) := table_read_tabulate _ i

theorem commitRecords_expectation (p : State) (old : Table NodeEntry 128) (i : Slot) :
    (p.commitRecords old).expectation i = if nodeChange (old.read i) (p.node i) = .kept then p.expectation i else none :=
  table_read_tabulate _ i

theorem commitRecords_rest (p : State) (old : Table NodeEntry 128) : let t := p.commitRecords old
    around t = { around p with expectations := t.expectations } ∧ t.walls = p.walls ∧ t.free = p.free ∧
    t.conditions = p.conditions ∧ t.mode = p.mode ∧ t.feed = p.feed := by
  obtain ⟨r, x, h⟩ : ∃ r x, p.commitRecords old = (p.withRecords r).withExpectations x := ⟨_, _, rfl⟩
  dsimp only
  rw [h]
  exact ⟨rfl, rfl, rfl, rfl, rfl, rfl⟩

/-- An evaluation of a condition that halts no rise neither enters nor leaves IDLE and HALT. -/
theorem evaluate_rests {c : Cond} (a : Bool) (d : Option Nat) (cls : c.cls ≠ .halt) :
    ((s.evaluate c a d).mode = .idle ∨ (s.evaluate c a d).mode = .halt) ↔ (s.mode = .idle ∨ s.mode = .halt) := by
  unfold State.evaluate
  split
  · obtain ⟨-, holds, stays⟩ := raise_cases s c d
    by_cases h : (s.condition c).state = .idle ∧ c.cls = .hold ∧ (s.mode = .climb ∨ s.mode = .trim)
    · rw [(holds h).1]
      rcases h.2.2 with mode | mode <;> rw [mode] <;> decide
    · rw [(stays (fun ⟨_, k, _⟩ => cls k) h).1]
  · obtain ⟨ends, stays⟩ := clear_cases s c
    by_cases h : (s.condition c).state = .standing ∧ HoldEnds s c
    · rw [(ends h).1, h.2.2.1]
      unfold State.resumeMode
      split
      · split <;> decide
      · decide
    · rw [(stays h).1]
  · exact Iff.rfl
  · exact Iff.rfl

/-- What the evaluations of node and short sources leave. -/
theorem evaluateShort_rest (s : State) : around s.evaluateShort = around s ∧ s.evaluateShort.feed = s.feed ∧
    s.evaluateShort.records = s.records ∧ s.evaluateShort.walls = s.walls ∧ s.evaluateShort.free = s.free := by
  have frame := evaluate_frame s .jackShort s.shortJack.isSome (s.shortJack.map Fin.val)
  change s.evaluateShort = ((s.withConditions s.evaluateShort.conditions).withMode s.evaluateShort.mode).withTransit
    s.evaluateShort.transit at frame
  generalize s.evaluateShort = t at *
  generalize t.conditions = x, t.mode = m, t.transit = a at frame
  subst frame
  exact ⟨rfl, rfl, rfl, rfl, rfl⟩

theorem evaluateNodes_rest' (s : State) : s.evaluateNodes.walls = s.walls ∧ s.evaluateNodes.free = s.free := by
  have frame := evaluateNodes_frame s
  generalize s.evaluateNodes = t at *
  generalize t.conditions = x, t.mode = m, t.transit = a at frame
  subst frame
  exact ⟨rfl, rfl⟩

/-- What the sources of a commit say, and what they leave. -/
structure Sources (a c : State) : Prop where
  around : around c = around a
  feed : c.feed = a.feed
  records : c.records = a.records
  walls : c.walls = a.walls
  free : c.free = a.free
  jack : (c.condition .jackLost).source = true ↔ ∃ j, (a.node j).enabled = true ∧ (a.node j).kind = .jack ∧
    ((a.record j).state = .lost ∨ (a.record j).state = .faulted)
  node : (c.condition .nodeLost).source = true ↔ ∃ j, (a.node j).enabled = true ∧ (a.node j).kind ≠ .jack ∧
    (a.record j).state = .lost
  short : (c.condition .jackShort).source = true ↔ ∃ j, (a.node j).enabled = true ∧ (a.node j).kind = .jack ∧
    a.params.shortLimit ≤ (a.record j).shortCounter
  others : ∀ k : Cond, k ≠ .jackLost → k ≠ .nodeLost → k ≠ .jackShort → c.condition k = a.condition k
  masked : c.conditions.masked = a.conditions.masked
  rests : (c.mode = .idle ∨ c.mode = .halt) ↔ (a.mode = .idle ∨ a.mode = .halt)

theorem sources_evaluated (a : State) : Sources a a.evaluateNodes.evaluateShort := by
  obtain ⟨around, feed, records, walls, free⟩ := evaluateShort_rest a.evaluateNodes
  obtain ⟨around', feed', records'⟩ := evaluateNodes_rest a
  obtain ⟨walls', free'⟩ := evaluateNodes_rest' a
  obtain ⟨-, jack, node, others⟩ := evaluateNodes_cases a
  obtain ⟨short, -⟩ := evaluateShort_cases a.evaluateNodes
  have kept (k : Cond) (ne : k ≠ .jackShort) : a.evaluateNodes.evaluateShort.condition k = a.evaluateNodes.condition k :=
    evaluate_other _ _ _ ne
  have nodes : a.evaluateNodes.nodes = a.nodes := congrArg Around.nodes around'
  have params : a.evaluateNodes.params = a.params := congrArg Around.params around'
  have record (j : Slot) : a.evaluateNodes.record j = a.record j := congrArg (·.read j) records'
  refine ⟨around.trans around', feed.trans feed', records.trans records', walls.trans walls', free.trans free', ?_, ?_, ?_,
    fun k jack node short => (kept k short).trans (others k jack node), ?_, ?_⟩
  · rw [kept _ (by decide)]
    exact jack
  · rw [kept _ (by decide)]
    exact node
  · refine short.trans (exists_congr fun j => ?_)
    unfold IsShort State.node
    rw [nodes, params, record]
  · exact (evaluate_masked _ _ _ _).trans ((evaluate_masked _ _ _ _).trans (evaluate_masked _ _ _ _))
  · exact (evaluate_rests _ _ (by decide)).trans ((evaluate_rests _ _ (by decide)).trans (evaluate_rests _ _ (by decide)))

/-- The due time at a commit (R16). -/
theorem commitDue_cases (s : State) (old : Params) : let t := s.commitDue old
    t = s.withSweep { s.sweep with dueAt := t.sweep.dueAt } ∧
    (s.params.cycleMs = old.cycleMs → s.params.idleMs = old.idleMs → t.sweep.dueAt = s.sweep.dueAt) ∧
    (∀ start, s.params.cycleMs ≠ old.cycleMs ∨ s.params.idleMs ≠ old.idleMs → s.sweep.startedAt = some start →
      t.sweep.dueAt = max s.now (start +
        if s.mode = .idle ∨ s.mode = .halt then s.params.idleMs else s.params.cycleMs)) := by
  intro t
  by_cases same : s.params.cycleMs = old.cycleMs ∧ s.params.idleMs = old.idleMs
  · have is : t = s := if_pos same
    rw [is]
    exact ⟨rfl, fun _ _ => rfl, fun _ changed => absurd same (by
      rintro ⟨cycle, idle⟩
      exact changed.elim (· cycle) (· idle))⟩
  · have is : t = s.recomputeDue := if_neg same
    refine ⟨?_, fun cycle idle => absurd ⟨cycle, idle⟩ same, fun start _ started => ?_⟩
    · rw [is]
      unfold State.recomputeDue
      split <;> rfl
    · rw [is]
      unfold State.recomputeDue
      rw [started, ← sweepPeriod_eq]
      rfl

/-! ## The blocks behind the feed -/

/-- A monitor's record after a commit: by the change of its entry, then by the test of its sensor. -/
def committedMonitor (s : State) (old : Table MonitorEntry 8) (m : MonitorIx) : MonitorRecord :=
  let e := s.monitor m
  let r := (s.monitorRecord m).committed (old.read m) e
  if e.enabled then
    match s.sensorTest e.sensor with
    | some c => r.trippedFor c
    | none => r
  else r

/-- The state with those records, which the evaluation of the monitor sources finds. -/
def monitorsCommitted (s : State) (old : Table MonitorEntry 8) : State :=
  s.withMonitors { s.monitors with records := Table.tabulate (committedMonitor s old) }

theorem commitMonitors_eq (s : State) (old : Table MonitorEntry 8) :
    s.commitMonitors old = (monitorsCommitted s old).evaluateMonitors := rfl

/-- What the monitors of a commit have after it, and what they leave. -/
theorem commitMonitors_cases (s : State) (old : Table MonitorEntry 8) : let t := s.commitMonitors old
    t = (((s.withMonitors t.monitors).withConditions t.conditions).withMode t.mode).withTransit t.transit ∧
    t.monitors.entries = s.monitors.entries ∧ (∀ m, t.monitorRecord m = committedMonitor s old m) ∧
    ((t.condition .monitorHold).source = true ↔
      ∃ n, (t.monitor n).enabled = true ∧ (t.monitor n).cls = .hold ∧ (t.monitorRecord n).tripped = true) ∧
    ((t.condition .monitorNote).source = true ↔
      ∃ n, (t.monitor n).enabled = true ∧ (t.monitor n).cls = .note ∧ (t.monitorRecord n).tripped = true) ∧
    (∀ k : Cond, k ≠ .monitorHold → k ≠ .monitorNote → t.condition k = s.condition k) ∧
    t.conditions.masked = s.conditions.masked := by
  intro t
  obtain ⟨frame, hold, note, others⟩ := evaluateMonitors_cases (monitorsCommitted s old)
  have monitors := evaluateMonitors_monitors (monitorsCommitted s old)
  have masked : (monitorsCommitted s old).evaluateMonitors.conditions.masked = s.conditions.masked :=
    (evaluate_masked _ _ _ _).trans (evaluate_masked _ _ _ _)
  rw [← commitMonitors_eq] at frame hold note others monitors masked
  change t = _ at frame
  have entry (m : MonitorIx) : t.monitor m = (monitorsCommitted s old).monitor m := congrArg (fun x => x.entries.read m) monitors
  have record (m : MonitorIx) : t.monitorRecord m = (monitorsCommitted s old).monitorRecord m :=
    congrArg (fun x => x.records.read m) monitors
  refine ⟨?_, show t.monitors.entries = (monitorsCommitted s old).monitors.entries from congrArg Monitors.entries monitors,
    fun m => (record m).trans (table_read_tabulate _ m), ?_, ?_, others, masked⟩
  · have same : t.monitors = (monitorsCommitted s old).monitors := monitors
    rw [same]
    exact frame
  · simp only [entry, record]
    rw [← trippedMonitor_isSome, ← hold]
  · simp only [entry, record]
    rw [← trippedMonitor_isSome, ← note]

/-- The spent flags that a commit leaves (R155). -/
def committedSpent (g : State) (edits : List Edit) : Table Bool 24 :=
  Table.tabulate fun i => g.markers.spent.read i && !edits.any (Edit.writesMarker i)

/-- The counters that a commit leaves (R181). -/
def committedCounters (g : State) (edits : List Edit) : Table Nat 16 :=
  Table.tabulate fun i => if edits.any (Edit.writesAgent i) then 0 else g.agents.counters.read i

/-- A relay that fails at a commit: its slot is disabled, or is now a jack in CLIMB or TRIM (R189). -/
def failsAtCommit (g : State) (nodes : Table NodeEntry 128) (x : RelaySlot) : Bool :=
  !(g.node x.target).enabled ||
    (g.mode.climbing && g.isJack x.target && !((nodes.read x.target).enabled && decide ((nodes.read x.target).kind = .jack)))

/-- The relay slots that a commit leaves. -/
def committedSlots (g : State) (nodes : Table NodeEntry 128) : Table (Option RelaySlot) 4 :=
  Table.tabulate fun i => (g.relaySlot i).map fun x =>
    if x.state = .queued ∧ failsAtCommit g nodes x then x.fail g.now else x

theorem commitMarkers_eq (g : State) (edits : List Edit) :
    g.commitMarkers edits = g.withMarkers { g.markers with spent := committedSpent g edits } := rfl

theorem commitRate_eq (g : State) : g.commitRate = g.withParams (g.params.set 11 (min g.params.rateReq g.params.rateMax)) :=
  rfl

theorem commitAgents_eq (g : State) (edits : List Edit) :
    g.commitAgents edits = g.withAgents { g.agents with counters := committedCounters g edits } := rfl

theorem commitRelays_eq (g : State) (nodes : Table NodeEntry 128) :
    g.commitRelays nodes = g.withRelays { g.relays with slots := committedSlots g nodes } := rfl

theorem commitDone_eq (g : State) : g.commitDone =
    (g.withCommand { g.command with staged := [], commitPending := false, commitSeq := none }).withConsole
      (g.answered (.commitDone (g.command.commitSeq.getD 0) g.command.staged.length
        ((g.level.cycleNumber + 1) % (Config.max32 + 1)))) := rfl

theorem committedCounters_markers (g : State) (x : Markers) (edits : List Edit) :
    committedCounters (g.withMarkers x) edits = committedCounters g edits := rfl

theorem committedCounters_params (g : State) (x : Params) (edits : List Edit) :
    committedCounters (g.withParams x) edits = committedCounters g edits := rfl

theorem committedSlots_markers (g : State) (x : Markers) (nodes : Table NodeEntry 128) :
    committedSlots (g.withMarkers x) nodes = committedSlots g nodes := rfl

theorem committedSlots_params (g : State) (x : Params) (nodes : Table NodeEntry 128) :
    committedSlots (g.withParams x) nodes = committedSlots g nodes := rfl

theorem committedSlots_agents (g : State) (x : Agents) (nodes : Table NodeEntry 128) :
    committedSlots (g.withAgents x) nodes = committedSlots g nodes := rfl

/-- The blocks behind the monitors of a commit, and its end. -/
theorem commitEnd_eq (g : State) (edits : List Edit) (nodes : Table NodeEntry 128) :
    (((g.commitMarkers edits).commitRate.commitAgents edits).commitRelays nodes).commitDone =
      (((((g.withMarkers { g.markers with spent := committedSpent g edits }).withParams
        (g.params.set 11 (min g.params.rateReq g.params.rateMax))).withAgents { g.agents with
        counters := committedCounters g edits }).withRelays { g.relays with slots := committedSlots g nodes }).withCommand
        { g.command with staged := [], commitPending := false, commitSeq := none }).withConsole
        (g.answered (.commitDone (g.command.commitSeq.getD 0) g.command.staged.length
          ((g.level.cycleNumber + 1) % (Config.max32 + 1)))) := by
  rw [commitMarkers_eq, commitRate_eq, commitAgents_eq, commitRelays_eq, commitDone_eq, committedSlots_agents,
    committedSlots_params, committedSlots_markers, committedCounters_params, committedCounters_markers]
  simp [State.answered]

end Sys2Proof.Proofs
end


section
/-! PROOFS. The application of a commit (O22), part 3: what all its blocks together leave and set. -/

namespace Sys2Proof.Proofs

open Sys2Proof Sys2Proof.Machine Sys2Proof.Laws

variable {s p a c d e f g : State}

/-- The stages of a commit, one behind the other: tables, records, sources, due time, wall, feed and monitors. -/
structure Stages (s p a c d e f g : State) : Prop where
  live : live p = live s
  tables : a = p.commitRecords s.nodes
  sources : c = a.evaluateNodes.evaluateShort
  due : d = c.commitDue s.params
  wall : e = d.commitWalls s.segments
  feed : f = e.commitFeed s.nodes s.segments
  monitors : g = f.commitMonitors s.monitors.entries

/-- What the tables, the records, the wall, the sources and the feed are once the monitors have acted. -/
structure Committed (s p f g : State) : Prop where
  around : around g = { around p with expectations := g.expectations, sweep := g.sweep, monitors := g.monitors }
  entries : g.monitors.entries = p.monitors.entries
  sweep : g.sweep = { s.sweep with dueAt := g.sweep.dueAt }
  dueSame : p.params.cycleMs = s.params.cycleMs → p.params.idleMs = s.params.idleMs → g.sweep.dueAt = s.sweep.dueAt
  dueMoved : ∀ start, p.params.cycleMs ≠ s.params.cycleMs ∨ p.params.idleMs ≠ s.params.idleMs →
    s.sweep.startedAt = some start → g.sweep.dueAt = max s.now (start +
      if s.mode = .idle ∨ s.mode = .halt then p.params.idleMs else p.params.cycleMs)
  expectation : ∀ i, g.expectation i = if nodeChange (s.node i) (g.node i) = .kept then s.expectation i else none
  record : ∀ i, g.record i =
    { (s.record i).committed (nodeChange (s.node i) (g.node i)) with pollDue := (g.record i).pollDue }
  polls : ∀ i, nodeChange (s.node i) (g.node i) ≠ .kept → (g.record i).pollDue = none
  wall : ∀ k, g.wall k = { (s.wall k).committed (s.segment k) (g.segment k) with claim := (g.wall k).claim }
  monitors : ∀ m, g.monitorRecord m = let r := (s.monitorRecord m).committed (s.monitor m) (g.monitor m)
    if (g.monitor m).enabled then
      match g.sensorTest (g.monitor m).sensor with
      | some c => r.trippedFor c
      | none => r
    else r
  jack : (g.condition .jackLost).source = true ↔ ∃ j, (g.node j).enabled = true ∧ (g.node j).kind = .jack ∧
    ((g.record j).state = .lost ∨ (g.record j).state = .faulted)
  node : (g.condition .nodeLost).source = true ↔ ∃ j, (g.node j).enabled = true ∧ (g.node j).kind ≠ .jack ∧
    (g.record j).state = .lost
  short : (g.condition .jackShort).source = true ↔ ∃ j, (g.node j).enabled = true ∧ (g.node j).kind = .jack ∧
    g.params.shortLimit ≤ (g.record j).shortCounter
  hold : (g.condition .monitorHold).source = true ↔
    ∃ n, (g.monitor n).enabled = true ∧ (g.monitor n).cls = .hold ∧ (g.monitorRecord n).tripped = true
  note : (g.condition .monitorNote).source = true ↔
    ∃ n, (g.monitor n).enabled = true ∧ (g.monitor n).cls = .note ∧ (g.monitorRecord n).tripped = true
  others : ∀ c : Cond, c ∉ [Cond.jackLost, .nodeLost, .jackShort, .feedJam, .monitorHold, .monitorNote] →
    g.condition c = s.condition c
  masked : g.conditions.masked = s.conditions.masked
  feed : g.feed = f.feed
  free : g.free = s.free + 1

/-- A slot that a commit disables or re-initialises has no report, so no claim of it begins. -/
theorem committed_unready {r : NodeRecord} {c : NodeChange} (h : c ≠ .kept) :
    (r.committed c).lastReport = none ∧ (r.committed c).pollDue = none := by
  cases c with
  | kept => exact absurd rfl h
  | disabled | fresh => exact ⟨rfl, rfl⟩

/-- The monitors of a commit leave every other block. -/
theorem commitMonitors_rest (f : State) (old : Table MonitorEntry 8) : let g := f.commitMonitors old
    Proofs.around g = { Proofs.around f with monitors := g.monitors } ∧ g.feed = f.feed ∧ g.records = f.records ∧
    g.walls = f.walls ∧ g.free = f.free := by
  have frame := (commitMonitors_cases f old).1
  dsimp only
  generalize f.commitMonitors old = g at *
  generalize g.monitors = m, g.conditions = x, g.mode = y, g.transit = z at frame
  subst frame
  exact ⟨rfl, rfl, rfl, rfl, rfl⟩

theorem commitFeed_rest (e : State) (nodes : Table NodeEntry 128) (segments : Table SegmentEntry 32) :
    (e.commitFeed nodes segments).free = e.free + 1 ∧ (e.commitFeed nodes segments).mode = e.mode := by
  have frame := (commitFeed_engine e nodes segments).frame
  unfold FeedFrame at frame
  generalize e.commitFeed nodes segments = f at *
  generalize f.feed = x, f.walls = w, f.records = r, f.conditions = y at frame
  subst frame
  exact ⟨rfl, rfl⟩

theorem commitWalls_rest (d : State) (old : Table SegmentEntry 32) : let e := d.commitWalls old
    Proofs.around e = Proofs.around d ∧ e.records = d.records ∧ e.free = d.free ∧ e.conditions = d.conditions ∧
    (∀ k, e.wall k = (d.wall k).committed (old.read k) (d.segment k)) := by
  have read (k : SegmentIx) : (d.commitWalls old).wall k = (d.wall k).committed (old.read k) (d.segment k) :=
    table_read_tabulate _ k
  obtain ⟨w, h⟩ : ∃ w, d.commitWalls old = d.withWalls w := ⟨_, rfl⟩
  dsimp only
  rw [h] at read ⊢
  exact ⟨rfl, rfl, rfl, rfl, read⟩

theorem withSweep_rest (c : State) (x : Sweep) : let d := c.withSweep x
    Proofs.around d = { Proofs.around c with sweep := x } ∧ d.records = c.records ∧ d.free = c.free ∧
    d.conditions = c.conditions ∧ d.walls = c.walls := ⟨rfl, rfl, rfl, rfl, rfl⟩

theorem Stages.committed (h : Stages s p a c d e f g) : Committed s p f g := by
  obtain ⟨live, tables, sources, due, wall, feed, monitors⟩ := h
  obtain ⟨aAround, aWalls, aFree, aConditions, aMode, -⟩ := commitRecords_rest p s.nodes
  have aRecord := commitRecords_record p s.nodes
  have aExpectation := commitRecords_expectation p s.nodes
  rw [← tables] at aAround aWalls aFree aConditions aMode aRecord aExpectation
  have evaluated := sources_evaluated a
  rw [← sources] at evaluated
  obtain ⟨dFrame, dueSame, dueMoved⟩ := commitDue_cases c s.params
  rw [← due] at dFrame dueSame dueMoved
  obtain ⟨dAround, dRecords, dFree, dConditions, dWalls⟩ := withSweep_rest c { c.sweep with dueAt := d.sweep.dueAt }
  rw [← dFrame] at dAround dRecords dFree dConditions dWalls
  obtain ⟨eAround, eRecords, eFree, eConditions, eWall⟩ := commitWalls_rest d s.segments
  rw [← wall] at eAround eRecords eFree eConditions eWall
  have event := commitFeed_event e s.nodes s.segments
  have engine := commitFeed_engine e s.nodes s.segments
  obtain ⟨fFree, -⟩ := commitFeed_rest e s.nodes s.segments
  rw [← feed] at event engine fFree
  obtain ⟨gAround, gFeed, gRecords, gWalls, gFree⟩ := commitMonitors_rest f s.monitors.entries
  obtain ⟨-, entries, judged, hold, note, kept, masked⟩ := commitMonitors_cases f s.monitors.entries
  rw [← monitors] at gAround gFeed gRecords gWalls gFree entries judged hold note kept masked
  clear tables sources due wall feed monitors
  obtain ⟨cAround, -, cRecords, cWalls, cFree, jack, node, short, others, cMasked, rests⟩ := evaluated
  have dSweep : d.sweep = { c.sweep with dueAt := d.sweep.dueAt } := congrArg Around.sweep dAround
  rw [← dSweep] at dAround
  have around : Proofs.around g =
      { Proofs.around p with expectations := a.expectations, sweep := d.sweep, monitors := g.monitors } := by
    rw [gAround, event.around, eAround, dAround, cAround, aAround]
  have middle : Proofs.around f = { Proofs.around p with expectations := a.expectations, sweep := d.sweep } := by
    rw [event.around, eAround, dAround, cAround, aAround]
  have nodes : g.nodes = p.nodes := congrArg Around.nodes around
  have aNodes : a.nodes = p.nodes := congrArg Around.nodes aAround
  have aParams : a.params = p.params := congrArg Around.params aAround
  have segments : g.segments = p.segments := congrArg Around.segments around
  have params : g.params = p.params := congrArg Around.params around
  have expectations : g.expectations = a.expectations := congrArg Around.expectations around
  have sweep : g.sweep = d.sweep := congrArg Around.sweep around
  have cSweep : c.sweep = s.sweep := (congrArg Around.sweep (cAround.trans aAround)).trans (congrArg Live.sweep live)
  have cNow : c.now = s.now := (congrArg Around.now (cAround.trans aAround)).trans (congrArg Live.now live)
  have cParams : c.params = p.params := congrArg Around.params (cAround.trans aAround)
  have dSegments : d.segments = p.segments := 
    (congrArg Around.segments dAround).trans (congrArg Around.segments (cAround.trans aAround))
  have sMode : a.mode = s.mode := aMode.trans (congrArg Live.mode live)
  have pRecord (i : Slot) : p.record i = s.record i := congrArg (fun x => Table.read (Live.records x) i) live
  have pExpectation (i : Slot) : p.expectation i = s.expectation i :=
    congrArg (fun x => Table.read (Live.expectations x) i) live
  have node' (i : Slot) : g.node i = p.node i := congrArg (·.read i) nodes
  have change (i : Slot) : nodeChange (s.nodes.read i) (p.node i) = nodeChange (s.node i) (g.node i) := by rw [node']; rfl
  have eRecord (i : Slot) : e.record i = (s.record i).committed (nodeChange (s.node i) (g.node i)) := by
    rw [← change, ← pRecord, ← aRecord]
    exact congrArg (·.read i) (eRecords.trans (dRecords.trans cRecords))
  have gRecord (i : Slot) : g.record i = f.record i := congrArg (·.read i) gRecords
  have record (i : Slot) : g.record i =
      { (s.record i).committed (nodeChange (s.node i) (g.node i)) with pollDue := (g.record i).pollDue } := by
    rw [← eRecord, gRecord]
    exact event.record i
  have state (i : Slot) : (g.record i).state = (a.record i).state := by
    rw [record, ← eRecord]
    exact congrArg (fun x => NodeRecord.state (Table.read x i)) (eRecords.trans (dRecords.trans cRecords))
  have counter (i : Slot) : (g.record i).shortCounter = (a.record i).shortCounter := by
    rw [record, ← eRecord]
    exact congrArg (fun x => NodeRecord.shortCounter (Table.read x i)) (eRecords.trans (dRecords.trans cRecords))
  have aNode (i : Slot) : a.node i = g.node i := by rw [node']; exact congrArg (·.read i) aNodes
  have condition (k : Cond) (ne : k ≠ .feedJam) (hold : k ≠ .monitorHold) (note : k ≠ .monitorNote) :
      g.condition k = c.condition k := by
    rw [kept k hold note, engine.conditions k ne]
    exact condition_congr (eConditions.trans dConditions) k
  have wall (k : SegmentIx) : g.wall k =
      { (s.wall k).committed (s.segment k) (g.segment k) with claim := (g.wall k).claim } := by
    have same : g.wall k = f.wall k := congrArg (·.read k) gWalls
    have was : d.wall k = s.wall k :=
      (congrArg (·.read k) (dWalls.trans (cWalls.trans aWalls))).trans (congrArg (fun x => Table.read (Live.walls x) k) live)
    have entry : d.segment k = g.segment k := congrArg (·.read k) (dSegments.trans segments.symm)
    rw [same, engine.content k, show (e.withFree (e.free + 1)).wall k = e.wall k from rfl, eWall, was, entry]
    rfl
  have fMonitors : f.monitors = p.monitors := congrArg Around.monitors middle
  have entry (m : MonitorIx) : g.monitor m = f.monitor m := congrArg (·.read m) entries
  have fRecord (m : MonitorIx) : f.monitorRecord m = s.monitorRecord m :=
    (congrArg (fun x => x.records.read m) fMonitors).trans (congrArg (fun x => Table.read (Live.monitors x) m) live)
  have sensor (i : Slot) : g.sensorTest i = f.sensorTest i := by
    have fNodes : f.nodes = g.nodes := (congrArg Around.nodes middle).trans nodes.symm
    unfold State.sensorTest State.node
    rw [gRecord, fNodes]
  refine ⟨?_, entries.trans (congrArg Monitors.entries fMonitors), ?_, fun cycle idle => ?_, fun start moved started => ?_,
    fun i => ?_, record, fun i moved => ?_, wall, fun m => ?_, ?_, ?_, ?_, hold, note, fun k others' => ?_, ?_, gFeed, ?_⟩
  · rw [around, expectations, sweep]
  · rw [sweep, dSweep, cSweep]
  · rw [sweep, dueSame (cParams ▸ cycle) (cParams ▸ idle), cSweep]
  · rw [sweep, dueMoved start (cParams ▸ moved) (cSweep ▸ started), cNow, if_congr rests rfl rfl, sMode, cParams]
  · rw [← change, ← pExpectation, ← aExpectation]
    exact congrArg (·.read i) expectations
  · have base := committed_unready (r := s.record i) moved
    have unready : e.outletReady i = false := by
      unfold State.outletReady
      dsimp only
      rw [eRecord, base.1]
      exact Bool.and_false _
    rw [gRecord]
    rcases event.unready i unready with same | gone
    · rw [same, eRecord, base.2]
    · exact gone
  · rw [judged, entry, committedMonitor]
    dsimp only
    rw [fRecord, sensor]
    rfl
  · rw [condition _ (by decide) (by decide) (by decide)]
    refine jack.trans (exists_congr fun j => ?_)
    rw [aNode, state]
  · rw [condition _ (by decide) (by decide) (by decide)]
    refine node.trans (exists_congr fun j => ?_)
    rw [aNode, state]
  · rw [condition _ (by decide) (by decide) (by decide)]
    refine short.trans (exists_congr fun j => ?_)
    rw [aNode, counter, params, aParams]
  · simp only [List.mem_cons, List.not_mem_nil, or_false, not_or] at others'
    obtain ⟨jack, node, short, jam, hold, note⟩ := others'
    rw [condition k jam hold note, others k jack node short]
    exact condition_congr (aConditions.trans (congrArg Live.conditions live)) k
  · rw [masked, engine.masked, show (e.withFree (e.free + 1)).conditions = e.conditions from rfl, eConditions, dConditions,
      cMasked, aConditions]
    exact congrArg (fun x => Conditions.masked (Live.conditions x)) live
  · rw [gFree, fFree, eFree, dFree, cFree, aFree]
    exact congrArg (fun x => Live.free x + 1) live

end Sys2Proof.Proofs
end


section
/-! PROOFS. COMMIT (O22), settled: the checks of the command, and the application. -/

namespace Sys2Proof.Proofs

open Sys2Proof Sys2Proof.Machine Sys2Proof.Laws

variable {s t p f g : State}

/-! ## The end of the application -/

/-- The state that a commit leaves, from the state behind its monitors. -/
structure CommitEnds (s g t : State) : Prop where
  nodes : t.nodes = g.nodes
  segments : t.segments = g.segments
  feed : t.feed = g.feed
  monitors : t.monitors = g.monitors
  records : t.records = g.records
  expectations : t.expectations = g.expectations
  walls : t.walls = g.walls
  conditions : t.conditions = g.conditions
  mode : t.mode = g.mode
  free : t.free = g.free
  markers : t.markers = { g.markers with spent := committedSpent g s.command.staged }
  params : t.params = g.params.set 11 (min g.params.rateReq g.params.rateMax)
  agents : t.agents = { g.agents with counters := committedCounters g s.command.staged }
  relays : t.relays = { g.relays with slots := committedSlots g s.nodes }
  command : t.command = { g.command with staged := [], commitPending := false, commitSeq := none }
  console : t.console = g.answered (.commitDone (g.command.commitSeq.getD 0) g.command.staged.length
    ((g.level.cycleNumber + 1) % 4294967296))
  sweep : t.sweep = { g.sweep with
    replies := g.sweep.replies.filter fun i => decide (nodeChange (s.node i) (g.node i) = .kept) }
  power : t.power = g.power
  now : t.now = g.now
  pending : t.pending = g.pending
  ring : t.ring = g.ring
  dispatch : t.dispatch = g.dispatch
  level : t.level = g.level
  pourClock : t.pourClock = g.pourClock
  placementSeen : t.placementSeen = g.placementSeen
  jobs : t.jobs = g.jobs

theorem commitEnds_of_eq {y : State} (h : y = ((((((g.withMarkers { g.markers with
      spent := committedSpent g s.command.staged }).withParams
      (g.params.set 11 (min g.params.rateReq g.params.rateMax))).withAgents { g.agents with
      counters := committedCounters g s.command.staged }).withRelays { g.relays with slots := committedSlots g s.nodes
      }).withCommand { g.command with staged := [], commitPending := false, commitSeq := none }).withConsole
      (g.answered (.commitDone (g.command.commitSeq.getD 0) g.command.staged.length
        ((g.level.cycleNumber + 1) % (Config.max32 + 1))))))
    (k : t = y.withSweep { y.sweep with replies := y.sweep.replies.filter fun i => decide (y.changeOf s.nodes i = .kept) }) :
    CommitEnds s g t := by
  have nodes : y.nodes = g.nodes := by subst h; simp
  have sweep : y.sweep = g.sweep := by subst h; simp
  have kept : (fun i => decide (y.changeOf s.nodes i = .kept)) =
      fun i => decide (nodeChange (s.node i) (g.node i) = .kept) := funext fun i => by
    unfold State.changeOf State.node
    rw [nodes]
  rw [kept, sweep] at k
  clear kept sweep nodes
  subst h k
  constructor <;> simp [State.answered, Config.max32]

/-- The commit that a sweep-complete event applies, by its stages. -/
theorem commitAtComplete_ends (pending : s.command.commitPending = true) : ∃ a c d e f g,
    Stages s s.prospective a c d e f g ∧ CommitEnds s g s.commitAtComplete := by
  refine ⟨_, _, _, _, _, _, ⟨prospective_live s, rfl, rfl, rfl, rfl, rfl, rfl⟩,
    commitEnds_of_eq (y := s.applyCommit) ?_ (if_pos pending)⟩
  exact commitEnd_eq _ s.command.staged s.nodes

/-! ## What the edits say (R169) -/

theorem any_writesMarker {edits : List Edit} {i : MarkerIx} :
    edits.any (Edit.writesMarker i) = true ↔ ∃ e, .marker i e ∈ edits := by
  rw [List.any_eq_true]
  constructor
  · rintro ⟨x, mem, writes⟩
    cases x with
    | marker j e => exact ⟨e, of_decide_eq_true writes ▸ mem⟩
    | node | segment | descriptor | monitor | agent | parameter => exact nomatch writes
  · rintro ⟨e, mem⟩
    exact ⟨_, mem, decide_eq_true rfl⟩

theorem any_writesAgent {edits : List Edit} {i : AgentIx} :
    edits.any (Edit.writesAgent i) = true ↔ ∃ e, .agent i e ∈ edits := by
  rw [List.any_eq_true]
  constructor
  · rintro ⟨x, mem, writes⟩
    cases x with
    | agent j e => exact ⟨e, of_decide_eq_true writes ▸ mem⟩
    | node | segment | descriptor | monitor | marker | parameter => exact nomatch writes
  · rintro ⟨e, mem⟩
    exact ⟨_, mem, decide_eq_true rfl⟩

theorem params_set_same (p : Params) (i : ParamIx) (v : Nat) : (p.set i v).value i = v := table_read_write_same _ _ _

theorem params_set_other (p : Params) {i j : ParamIx} (v : Nat) (h : j ≠ i) : (p.set i v).value j = p.value j :=
  table_read_write_other _ _ _ _ h

/-- What a commit does to a slot, by its entries. -/
theorem nodeChange_cases (old new : NodeEntry) :
    let gone := old.enabled = true ∧ new.enabled = false
    let fresh := new.enabled = true ∧ (old.enabled = false ∨ old.address ≠ new.address ∨ old.kind ≠ new.kind)
    (gone → nodeChange old new = .disabled) ∧ (fresh → nodeChange old new = .fresh) ∧
    (nodeChange old new = .kept ↔ ¬ (gone ∨ fresh)) := by
  unfold nodeChange
  cases old.enabled <;> cases new.enabled <;> simp
  tauto

theorem segmentCommitted_cases (w : SegmentLive) (old new : SegmentEntry) :
    let resets := new.enabled = true ∧ (old.enabled = false ∨ old.area ≠ new.area ∨ old.startTop ≠ new.startTop)
    (resets → w.committed old new =
      { top := new.startTop, base := new.startTop, remainder := 0, placedTotal := 0, claim := w.claim, queue := [] }) ∧
    (¬ resets → w.committed old new = w) := by
  have test : (new.enabled && (!old.enabled || decide (old.area ≠ new.area) || decide (old.startTop ≠ new.startTop))) = true ↔
      new.enabled = true ∧ (old.enabled = false ∨ old.area ≠ new.area ∨ old.startTop ≠ new.startTop) := by
    simp [or_assoc]
  unfold SegmentLive.committed
  exact ⟨fun h => if_pos (test.2 h), fun h => if_neg (mt test.1 h)⟩

end Sys2Proof.Proofs
end


section
/-! PROOFS. COMMIT, settled (O22): the four checks in their order, and the application at a sweep-complete event. -/

namespace Sys2Proof.Proofs

open Sys2Proof Sys2Proof.Machine Sys2Proof.Laws

variable {s t u f g : State}

/-! ## The checks (R166) -/

/-- The lowest slot that shares its address. -/
def SharesAddress (p : State) (i : Slot) : Prop :=
  (p.node i).enabled = true ∧ ∃ j : Slot, j < i ∧ (p.node j).enabled = true ∧ (p.node j).address = (p.node i).address

/-- An enabled descriptor that does not name an enabled segment and an enabled OUTLET slot. -/
def BadDescriptor (p : State) (d : DescriptorIx) : Prop :=
  (p.descriptor d).enabled = true ∧
    ¬ ((p.segment (p.descriptor d).segment).enabled = true ∧ (p.node (p.descriptor d).outlet).enabled = true ∧
      (p.node (p.descriptor d).outlet).kind = .outlet)

/-- A slot whose enabled JACK a staged edit re-addresses. -/
def MovesJack (u : State) (i : Slot) : Prop :=
  ∃ e : NodeEntry, .node i e ∈ u.command.staged ∧ (u.node i).enabled = true ∧ (u.node i).kind = .jack ∧ e.enabled = true ∧
    ¬ (e.kind = (u.node i).kind ∧ e.address = (u.node i).address)

theorem addressConflict_eq {p : State} {o : Option Slot} (h : LowestOf (SharesAddress p) o) : p.addressConflict = o :=
  lowestOf_find _ _ (fun i => by simp [SharesAddress, allSlots, and_assoc]) o h

theorem badDescriptor_eq {p : State} {o : Option DescriptorIx} (h : LowestOf (BadDescriptor p) o) : p.badDescriptor = o :=
  lowestOf_find _ _ (fun d => by
    unfold BadDescriptor
    dsimp only
    rw [Bool.and_eq_true, Bool.not_eq_true', ← Bool.not_eq_true, Bool.and_eq_true, Bool.and_eq_true, decide_eq_true_iff,
      and_assoc]) o h

theorem readdresses_iff {i : Slot} {e : Edit} : u.readdresses i e = true ↔ ∃ x : NodeEntry, e = .node i x ∧
    (u.node i).enabled = true ∧ (u.node i).kind = .jack ∧ x.enabled = true ∧
    ¬ (x.kind = (u.node i).kind ∧ x.address = (u.node i).address) := by
  cases e with
  | node j x =>
    unfold State.readdresses State.changesJack Edit.keepsEnabled
    rw [Bool.and_eq_true, Bool.and_eq_true, Bool.and_eq_true, isJack_iff, decide_eq_true_iff, Bool.or_eq_true,
      decide_eq_true_iff, decide_eq_true_iff]
    constructor
    · rintro ⟨⟨⟨rfl, on, jack⟩, moved⟩, stays⟩
      exact ⟨x, rfl, on, jack, stays, fun ⟨kind, address⟩ => moved.elim (· kind) (· address)⟩
    · rintro ⟨y, is, on, jack, stays, moved⟩
      cases is
      exact ⟨⟨⟨rfl, on, jack⟩, by tauto⟩, stays⟩
  | segment | descriptor | monitor | marker | agent | parameter =>
    exact iff_of_false nofun nofun

theorem readdressedJack_eq {o : Option Slot} (h : LowestOf (MovesJack u) o) : u.readdressedJack = o := by
  refine lowestOf_find _ _ (fun i => ?_) o h
  rw [List.any_eq_true]
  constructor
  · rintro ⟨e, mem, reads⟩
    obtain ⟨x, rfl, rest⟩ := readdresses_iff.1 reads
    exact ⟨x, mem, rest⟩
  · rintro ⟨x, mem, rest⟩
    exact ⟨_, mem, readdresses_iff.2 ⟨x, rfl, rest⟩⟩

/-- COMMIT under what its checks find. -/
theorem takeCommit_refused {seq : Byte} {o : OutcomeCode} {table index : Nat} (idle : u.command.commitPending = false)
    (h : u.commitRefusal = some (o, table, index)) :
    u.takeCommit seq [] = u.withConsole (u.answered (.reply seq 0x05 o [.bytes [u8 table, u8 index]])) := by
  unfold State.takeCommit
  rw [idle, h]
  rfl

theorem takeCommit_taken {seq : Byte} (idle : u.command.commitPending = false) (h : u.commitRefusal = none) :
    u.takeCommit seq [] = (u.withCommand { u.command with commitPending := true, commitSeq := some seq }).withConsole
      (u.answered (.reply seq 0x05 .ok [.bytes [u8 u.command.staged.length]])) := by
  unfold State.takeCommit
  rw [idle, h]
  rfl

theorem commitRefusal_conflict {i : Slot} (h : u.prospective.addressConflict = some i) :
    u.commitRefusal = some (.conflict, 0, i.val) := by
  unfold State.commitRefusal
  dsimp only
  rw [h]

theorem commitRefusal_descriptor {d : DescriptorIx} (h : u.prospective.addressConflict = none)
    (k : u.prospective.badDescriptor = some d) : u.commitRefusal = some (.invalid, 2, d.val) := by
  unfold State.commitRefusal
  dsimp only
  rw [h, k]

theorem commitRefusal_relation {q : ParamIx} (h : u.prospective.addressConflict = none)
    (k : u.prospective.badDescriptor = none) (r : badRelation u.prospective.params = some q) :
    u.commitRefusal = some (.invalid, 6, q.val) := by
  unfold State.commitRefusal
  dsimp only
  rw [h, k, r]

theorem commitRefusal_jack (h : u.prospective.addressConflict = none)
    (k : u.prospective.badDescriptor = none) (r : badRelation u.prospective.params = none) :
    u.commitRefusal = if u.mode = .idle ∨ u.mode = .halt then none
      else u.readdressedJack.map fun i => (.notNow, 0, i.val) := by
  unfold State.commitRefusal
  dsimp only
  rw [h, k, r]

theorem rising_iff (m : RiseMode) : ¬ (m = .idle ∨ m = .halt) ↔ (m = .climb ∨ m = .trim ∨ m = .hold) := by
  cases m <;> decide

/-! ## What the application leaves, block by block (R169, R170) -/

theorem CommitEnds.parts (ends : CommitEnds s g t) : (∀ i, t.node i = g.node i) ∧ (∀ k, t.segment k = g.segment k) ∧
    (∀ d, t.descriptor d = g.descriptor d) ∧ (∀ m, t.monitor m = g.monitor m) ∧
    (∀ m, t.monitorRecord m = g.monitorRecord m) ∧ (∀ m, t.marker m = g.marker m) ∧ (∀ i, t.record i = g.record i) ∧
    (∀ i, t.expectation i = g.expectation i) ∧ (∀ k, t.wall k = g.wall k) ∧
    (∀ c, t.condition c = g.condition c) ∧
    (∀ i : ParamIx, i ≠ 11 → t.params.value i = g.params.value i) :=
  ⟨fun i => congrArg (·.read i) ends.nodes, fun i => congrArg (·.read i) ends.segments,
    fun i => congrArg (fun x => x.descriptors.read i) ends.feed, fun i => congrArg (fun x => x.entries.read i) ends.monitors,
    fun i => congrArg (fun x => x.records.read i) ends.monitors, fun i => congrArg (fun x => x.entries.read i) ends.markers,
    fun i => congrArg (·.read i) ends.records, fun i => congrArg (·.read i) ends.expectations,
    fun i => congrArg (·.read i) ends.walls, fun c => condition_congr ends.conditions c,
    fun i ne => by rw [ends.params, params_set_other _ _ ne]⟩

theorem relaySlot_committed (ends : CommitEnds s g t) (i : RelayIx) :
    t.relaySlot i = (g.relaySlot i).map fun x =>
      if x.state = .queued ∧ failsAtCommit g s.nodes x then x.fail g.now else x := by
  unfold State.relaySlot
  rw [ends.relays]
  exact table_read_tabulate _ i

theorem failsAtCommit_iff (g : State) (nodes : Table NodeEntry 128) (x : RelaySlot) : failsAtCommit g nodes x = true ↔
    (g.node x.target).enabled = false ∨ ((g.mode = .climb ∨ g.mode = .trim) ∧
      ((g.node x.target).enabled = true ∧ (g.node x.target).kind = .jack) ∧
      ¬ ((nodes.read x.target).enabled = true ∧ (nodes.read x.target).kind = .jack)) := by
  unfold failsAtCommit
  rw [Bool.or_eq_true, Bool.and_eq_true, Bool.and_eq_true, climbing_iff, isJack_iff, Bool.not_eq_true', Bool.not_eq_true',
    and_assoc]
  simp

end Sys2Proof.Proofs
end


section
/-! PROOFS. COMMIT (O22), assembled: the checks of the command, and what its application leaves in each block. -/

namespace Sys2Proof.Proofs

open Sys2Proof Sys2Proof.Machine Sys2Proof.Laws

variable {s t p u f g : State}

/-! ## The command (R166-R168) -/

theorem badRelation_cases (p : Params) :
    (¬ p.trimExit < p.trimBand → badRelation p = some 13) ∧
    (p.trimExit < p.trimBand → ¬ p.trimBand < p.haltBand → badRelation p = some 12) ∧
    (p.trimExit < p.trimBand → p.trimBand < p.haltBand → ¬ p.strokeMs < p.cycleMs → badRelation p = some 1) ∧
    (p.trimExit < p.trimBand → p.trimBand < p.haltBand → p.strokeMs < p.cycleMs → ¬ p.freeboard ≤ p.maxVoid →
      badRelation p = some 21) ∧
    (p.trimExit < p.trimBand ∧ p.trimBand < p.haltBand ∧ p.strokeMs < p.cycleMs ∧ p.freeboard ≤ p.maxVoid →
      badRelation p = none) := by
  unfold badRelation
  refine ⟨fun a => if_pos a, fun a b => ?_, fun a b c => ?_, fun a b c d => ?_, fun ⟨a, b, c, d⟩ => ?_⟩
  · rw [if_neg (not_not.2 a), if_pos b]
  · rw [if_neg (not_not.2 a), if_neg (not_not.2 b), if_pos c]
  · rw [if_neg (not_not.2 a), if_neg (not_not.2 b), if_neg (not_not.2 c), if_pos d]
  · rw [if_neg (not_not.2 a), if_neg (not_not.2 b), if_neg (not_not.2 c), if_neg (not_not.2 d)]

/-- COMMIT with no commit pending, by what its four checks find. -/
theorem takeCommit_cases (seq : Byte) (idle : u.command.commitPending = false) :
    let p := u.prospective
    let moves (i : Slot) := (u.mode = .climb ∨ u.mode = .trim ∨ u.mode = .hold) ∧ MovesJack u i
    let refused (o : OutcomeCode) (table index : Byte) :=
      u.takeCommit seq [] = u.withConsole (u.answered (.reply seq 0x05 o [.bytes [table, index]]))
    (∀ i, SharesAddress p i → (∀ j, j < i → ¬ SharesAddress p j) → refused .conflict 0 (u8 i.val)) ∧
    ((∀ i, ¬ SharesAddress p i) →
      (∀ d, BadDescriptor p d → (∀ e, e < d → ¬ BadDescriptor p e) → refused .invalid 2 (u8 d.val)) ∧
      ((∀ d, ¬ BadDescriptor p d) →
        (∀ q, badRelation p.params = some q → refused .invalid 6 (u8 q.val)) ∧
        (badRelation p.params = none →
          (∀ i, moves i → (∀ j, j < i → ¬ moves j) → refused .notNow 0 (u8 i.val)) ∧
          ((∀ i, ¬ moves i) → u.takeCommit seq [] =
            (u.withCommand { u.command with commitPending := true, commitSeq := some seq }).withConsole
              (u.answered (.reply seq 0x05 .ok [.bytes [u8 u.command.staged.length]])))))) := by
  refine ⟨fun i at_ first => ?_, fun unshared => ⟨fun d at_ first => ?_, fun good => ⟨fun q broken => ?_, fun related =>
    ⟨fun i at_ first => ?_, fun still => ?_⟩⟩⟩⟩
  · exact takeCommit_refused idle (commitRefusal_conflict (addressConflict_eq ⟨at_, first⟩))
  · exact takeCommit_refused idle (commitRefusal_descriptor (addressConflict_eq unshared) (badDescriptor_eq ⟨at_, first⟩))
  · exact takeCommit_refused idle (commitRefusal_relation (addressConflict_eq unshared) (badDescriptor_eq good) broken)
  · obtain ⟨rising, moved⟩ := at_
    have found : u.readdressedJack = some i := readdressedJack_eq ⟨moved, fun j before m => first j before ⟨rising, m⟩⟩
    refine takeCommit_refused idle ?_
    rw [commitRefusal_jack (addressConflict_eq unshared) (badDescriptor_eq good) related,
      if_neg ((rising_iff _).2 rising), found]
    rfl
  · refine takeCommit_taken idle ?_
    rw [commitRefusal_jack (addressConflict_eq unshared) (badDescriptor_eq good) related]
    by_cases stopped : u.mode = .idle ∨ u.mode = .halt
    · rw [if_pos stopped]
    · rw [if_neg stopped, readdressedJack_eq (o := none) fun i m => still i ⟨(rising_iff _).1 stopped, m⟩]
      rfl

/-! ## The application, block by block (R169, R170) -/

/-- What the application leaves of the tables is what the edits spell. -/
theorem committed_tables (k : Committed s s.prospective f g) (ends : CommitEnds s g t) :
    (∀ i, t.node i = s.prospective.node i) ∧ (∀ i, t.segment i = s.prospective.segment i) ∧
    (∀ i, t.descriptor i = s.prospective.descriptor i) ∧ (∀ i, t.monitor i = s.prospective.monitor i) ∧
    (∀ i, t.marker i = s.prospective.marker i) ∧
    (∀ i, t.agents.entries.read i = s.prospective.agents.entries.read i) ∧
    (∀ i : ParamIx, i ≠ 11 → t.params.value i = s.prospective.params.value i) ∧
    t.params.rateReq = min s.prospective.params.rateReq s.prospective.params.rateMax := by
  obtain ⟨nodes, segments, descriptors, monitors, -, markers, -, -, -, -, params⟩ := ends.parts
  refine ⟨fun i => (nodes i).trans ?_, fun i => (segments i).trans ?_, fun i => (descriptors i).trans ?_,
    fun i => (monitors i).trans ?_, fun i => (markers i).trans ?_, fun i => ?_, fun i ne => (params i ne).trans ?_, ?_⟩
  · exact congrArg (fun x => (Around.nodes x).read i) k.around
  · exact congrArg (fun x => (Around.segments x).read i) k.around
  · exact congrArg (fun x => (Around.descriptors x).read i) k.around
  · exact congrArg (·.read i) k.entries
  · exact congrArg (fun x => (Around.markers x).entries.read i) k.around
  · rw [ends.agents]
    exact congrArg (fun x => (Around.agents x).entries.read i) k.around
  · exact congrArg (fun x => (Around.params x).value i) k.around
  · rw [ends.params]
    exact (params_set_same _ _ _).trans (congrArg (fun x => min (Around.params x).rateReq (Around.params x).rateMax) k.around)

theorem committed_spent (k : Committed s s.prospective f g) (ends : CommitEnds s g t) (i : MarkerIx) :
    ((∃ e, .marker i e ∈ s.command.staged) → t.markers.spent.read i = false) ∧
    ((∀ e, .marker i e ∉ s.command.staged) → t.markers.spent.read i = s.markers.spent.read i) := by
  have read : t.markers.spent.read i = (s.markers.spent.read i && !s.command.staged.any (Edit.writesMarker i)) := by
    have spent : g.markers.spent = s.markers.spent :=
      (congrArg (fun x => (Around.markers x).spent) k.around).trans (congrArg Live.spent (prospective_live s))
    rw [ends.markers, ← spent]
    exact table_read_tabulate _ i
  rw [read]
  refine ⟨fun written => ?_, fun unwritten => ?_⟩
  · rw [any_writesMarker.2 written]
    exact Bool.and_false _
  · rw [Bool.eq_false_iff.2 fun h => (any_writesMarker.1 h).elim unwritten]
    exact Bool.and_true _

theorem committed_counters (k : Committed s s.prospective f g) (ends : CommitEnds s g t) (i : AgentIx) :
    ((∃ e, .agent i e ∈ s.command.staged) → t.agents.counters.read i = 0) ∧
    ((∀ e, .agent i e ∉ s.command.staged) → t.agents.counters.read i = s.agents.counters.read i) := by
  have read : t.agents.counters.read i =
      if s.command.staged.any (Edit.writesAgent i) then 0 else s.agents.counters.read i := by
    have counters : g.agents.counters = s.agents.counters :=
      (congrArg (fun x => (Around.agents x).counters) k.around).trans (congrArg Live.counters (prospective_live s))
    rw [ends.agents, ← counters]
    exact table_read_tabulate _ i
  rw [read]
  exact ⟨fun written => if_pos (any_writesAgent.2 written), fun unwritten => if_neg fun h => (any_writesAgent.1 h).elim unwritten⟩

theorem committed_slot (k : Committed s s.prospective f g) (ends : CommitEnds s g t) (i : Slot) :
    let change := nodeChange (s.node i) (t.node i)
    (t.record i = { (s.record i).committed change with pollDue := (t.record i).pollDue }) ∧
    (change ≠ .kept → t.record i = (s.record i).committed change) ∧
    t.expectation i = (if change = .kept then s.expectation i else none) ∧
    (i ∈ t.sweep.replies ↔ i ∈ s.sweep.replies ∧ change = .kept) := by
  obtain ⟨nodes, -, -, -, -, -, records, expectations, -⟩ := ends.parts
  have replies : g.sweep.replies = s.sweep.replies := by rw [k.sweep]
  dsimp only
  rw [nodes, records, expectations, ends.sweep]
  dsimp only
  rw [List.mem_filter, decide_eq_true_iff, replies]
  refine ⟨k.record i, fun moved => ?_, k.expectation i, Iff.rfl⟩
  rw [k.record i, k.polls i moved, ← (committed_unready (r := s.record i) moved).2]

theorem committed_sweep (k : Committed s s.prospective f g) (ends : CommitEnds s g t) :
    t.sweep = { s.sweep with dueAt := t.sweep.dueAt, replies := t.sweep.replies } ∧
    t.sweep.replies.Sublist s.sweep.replies ∧ t.sweep.dueAt = g.sweep.dueAt := by
  have sweep := k.sweep
  have ended := ends.sweep
  generalize t.sweep = x, g.sweep.dueAt = d at *
  rw [sweep] at ended
  subst ended
  exact ⟨rfl, List.filter_sublist, rfl⟩

theorem committed_fallen (k : Committed s s.prospective f g) (ends : CommitEnds s g t) (m : MonitorIx) :
    t.monitorRecord m = let r := (s.monitorRecord m).committed (s.monitor m) (t.monitor m)
      if (t.monitor m).enabled then
        match t.sensorTest (t.monitor m).sensor with
        | some c => r.trippedFor c
        | none => r
      else r := by
  obtain ⟨nodes, -, -, monitors, judged, -, records, -⟩ := ends.parts
  have sensor (i : Slot) : t.sensorTest i = g.sensorTest i := by
    unfold State.sensorTest
    rw [nodes, records]
  have fallen := k.monitors m
  rw [← monitors, ← sensor, ← judged] at fallen
  exact fallen

theorem monitorCommitted_eq (r : MonitorRecord) (old new : MonitorEntry) : r.committed old new =
    if old.enabled = false ∧ new.enabled = true then MonitorRecord.initial
    else if old.enabled = true ∧ new.enabled = false then { r with tripped := false, cause := none } else r := by
  unfold MonitorRecord.committed
  cases old.enabled <;> cases new.enabled <;> rfl

/-- What a sensor slot trips a monitor for. -/
theorem sensorTest_cases (i : Slot) :
    let absent := (t.node i).enabled = false ∨ (t.node i).kind ≠ .sensor ∨ (t.record i).state = .disabled
    (absent → t.sensorTest i = some .sensorAbsent) ∧
    (¬ absent → t.sensorTest i = match (t.record i).state with
      | .lost => some .sensorLost
      | .faulted => some .sensorFaulted
      | _ => none) := by
  unfold State.sensorTest
  cases (t.node i).enabled with
  | false => exact ⟨fun _ => rfl, fun present => absurd (.inl rfl) present⟩
  | true =>
    by_cases sensor : (t.node i).kind = .sensor
    · rw [sensor]
      cases (t.record i).state <;> simp [NodeState.tripCause]
    · simp [sensor]

theorem committed_relay (k : Committed s s.prospective f g) (ends : CommitEnds s g t) (i : RelayIx) :
    t.relaySlot i = (s.relaySlot i).map fun x =>
      if x.state = .queued ∧ failsAtCommit g s.nodes x then x.fail s.now else x := by
  have now : g.now = s.now := (congrArg Around.now k.around).trans (congrArg Live.now (prospective_live s))
  have slot : g.relaySlot i = s.relaySlot i :=
    (congrArg (fun x => (Around.relays x).slots.read i) k.around).trans
      (congrArg (fun x => (Live.relays x).slots.read i) (prospective_live s))
  rw [relaySlot_committed ends, now, slot]

/-! ## The obligation -/

theorem committed_record (k : Committed s s.prospective f g) (ends : CommitEnds s g t) (i : Slot) :
    let old := s.node i
    let new := t.node i
    let gone := old.enabled = true ∧ new.enabled = false
    let fresh := new.enabled = true ∧ (old.enabled = false ∨ old.address ≠ new.address ∨ old.kind ≠ new.kind)
    (gone → t.record i = NodeRecord.disabledForm) ∧
    (fresh → t.record i = { NodeRecord.disabledForm with state := .active }) ∧
    (gone ∨ fresh → t.expectation i = none ∧ i ∉ t.sweep.replies) ∧
    (¬ (gone ∨ fresh) → t.record i = { s.record i with pollDue := (t.record i).pollDue } ∧
      t.expectation i = s.expectation i ∧ (i ∈ t.sweep.replies ↔ i ∈ s.sweep.replies)) := by
  obtain ⟨disabled, fresh, kept⟩ := nodeChange_cases (s.node i) (t.node i)
  obtain ⟨record, moved, expectation, replies⟩ := committed_slot k ends i
  refine ⟨fun h => ?_, fun h => ?_, fun h => ?_, fun h => ?_⟩
  · rw [moved (by rw [disabled h]; decide), disabled h]
    rfl
  · rw [moved (by rw [fresh h]; decide), fresh h]
    rfl
  · have out := mt kept.1 (not_not.2 h)
    exact ⟨expectation.trans (if_neg out), fun mem => out (replies.1 mem).2⟩
  · have same := kept.2 h
    rw [same] at record
    exact ⟨record, expectation.trans (if_pos same), replies.trans (and_iff_left same)⟩

theorem committed_due (k : Committed s s.prospective f g) (ends : CommitEnds s g t) :
    t.sweep = { s.sweep with dueAt := t.sweep.dueAt, replies := t.sweep.replies } ∧
    t.sweep.replies.Sublist s.sweep.replies ∧
    (t.params.cycleMs = s.params.cycleMs → t.params.idleMs = s.params.idleMs → t.sweep.dueAt = s.sweep.dueAt) ∧
    (∀ start, t.params.cycleMs ≠ s.params.cycleMs ∨ t.params.idleMs ≠ s.params.idleMs →
      s.sweep.startedAt = some start → t.sweep.dueAt = max s.now (start +
        if s.mode = .idle ∨ s.mode = .halt then t.params.idleMs else t.params.cycleMs)) := by
  obtain ⟨frame, sub, due⟩ := committed_sweep k ends
  obtain ⟨-, -, -, -, -, -, params, -⟩ := committed_tables k ends
  have cycle : t.params.cycleMs = s.prospective.params.cycleMs := params _ (by decide)
  have idle : t.params.idleMs = s.prospective.params.idleMs := params _ (by decide)
  refine ⟨frame, sub, fun a b => due.trans (k.dueSame (cycle ▸ a) (idle ▸ b)), fun start moved started => ?_⟩
  rw [due, cycle, idle]
  exact k.dueMoved start (cycle ▸ idle ▸ moved) started

theorem committed_wall (k : Committed s s.prospective f g) (ends : CommitEnds s g t) (i : SegmentIx) :
    let old := s.segment i
    let new := t.segment i
    let resets := new.enabled = true ∧ (old.enabled = false ∨ old.area ≠ new.area ∨ old.startTop ≠ new.startTop)
    (resets → t.wall i = { top := new.startTop, base := new.startTop, remainder := 0, placedTotal := 0,
                           claim := (t.wall i).claim, queue := [] }) ∧
    (¬ resets → t.wall i = { s.wall i with claim := (t.wall i).claim }) := by
  obtain ⟨-, segments, -, -, -, -, -, -, walls, -⟩ := ends.parts
  obtain ⟨reset, kept⟩ := segmentCommitted_cases (s.wall i) (s.segment i) (t.segment i)
  have wall := k.wall i
  rw [← walls, ← segments] at wall
  refine ⟨fun h => ?_, fun h => ?_⟩
  · rw [reset h] at wall
    exact wall
  · rw [kept h] at wall
    exact wall

theorem committed_monitor (k : Committed s s.prospective f g) (ends : CommitEnds s g t) (m : MonitorIx) :
    let old := s.monitor m
    let new := t.monitor m
    let r := if old.enabled = false ∧ new.enabled = true then MonitorRecord.initial
      else if old.enabled = true ∧ new.enabled = false then { s.monitorRecord m with tripped := false, cause := none }
      else s.monitorRecord m
    let absent := (t.node new.sensor).enabled = false ∨ (t.node new.sensor).kind ≠ .sensor ∨
      (t.record new.sensor).state = .disabled
    (new.enabled = false → t.monitorRecord m = r) ∧
    (new.enabled = true → absent → t.monitorRecord m = { r with tripped := true, cause := some .sensorAbsent }) ∧
    (new.enabled = true → ¬ absent → t.monitorRecord m = (match (t.record new.sensor).state with
      | .lost => { r with tripped := true, cause := some .sensorLost }
      | .faulted => { r with tripped := true, cause := some .sensorFaulted }
      | _ => r)) := by
  have fallen := committed_fallen k ends m
  obtain ⟨absent, present⟩ := sensorTest_cases (t := t) (t.monitor m).sensor
  rw [monitorCommitted_eq] at fallen
  dsimp only at fallen ⊢
  refine ⟨fun off => ?_, fun on h => ?_, fun on h => ?_⟩
  · rw [if_neg (Bool.eq_false_iff.1 off)] at fallen
    exact fallen
  · rw [if_pos on, absent h] at fallen
    exact fallen
  · rw [if_pos on, present h] at fallen
    cases state : (t.record (t.monitor m).sensor).state <;> (rw [state] at fallen; exact fallen)

theorem committed_conditions (k : Committed s s.prospective f g) (ends : CommitEnds s g t) :
    ((t.condition .jackLost).source = true ↔ ∃ i, (t.node i).enabled = true ∧ (t.node i).kind = .jack ∧
      ((t.record i).state = .lost ∨ (t.record i).state = .faulted)) ∧
    ((t.condition .nodeLost).source = true ↔ ∃ i, (t.node i).enabled = true ∧ (t.node i).kind ≠ .jack ∧
      (t.record i).state = .lost) ∧
    ((t.condition .jackShort).source = true ↔ ∃ i, (t.node i).enabled = true ∧ (t.node i).kind = .jack ∧
      t.params.shortLimit ≤ (t.record i).shortCounter) ∧
    ((t.condition .monitorHold).source = true ↔
      ∃ m, (t.monitor m).enabled = true ∧ (t.monitor m).cls = .hold ∧ (t.monitorRecord m).tripped = true) ∧
    ((t.condition .monitorNote).source = true ↔
      ∃ m, (t.monitor m).enabled = true ∧ (t.monitor m).cls = .note ∧ (t.monitorRecord m).tripped = true) ∧
    (∀ c : Cond, c ∉ [Cond.jackLost, .nodeLost, .jackShort, .feedJam, .monitorHold, .monitorNote] →
      t.condition c = s.condition c) ∧ t.conditions.masked = s.conditions.masked := by
  obtain ⟨nodes, -, -, monitors, judged, -, records, -, -, conditions, params⟩ := ends.parts
  have short : t.params.shortLimit = g.params.shortLimit := params _ (by decide)
  simp only [nodes, monitors, judged, records, conditions, short, ends.conditions]
  exact ⟨k.jack, k.node, k.short, k.hold, k.note, k.others, k.masked⟩

theorem committed_relays (k : Committed s s.prospective f g) (ends : CommitEnds s g t) (i : RelayIx) :
    (s.relaySlot i = none → t.relaySlot i = none) ∧ (∀ x, s.relaySlot i = some x →
      let y := t.node x.target
      let fails := x.state = .queued ∧ (y.enabled = false ∨ ((t.mode = .climb ∨ t.mode = .trim) ∧
        (y.enabled = true ∧ y.kind = .jack) ∧ ¬ ((s.node x.target).enabled = true ∧ (s.node x.target).kind = .jack)))
      (fails → t.relaySlot i = some { x with state := .failed, completion := some s.now, result := none }) ∧
      (¬ fails → t.relaySlot i = some x)) := by
  obtain ⟨nodes, -⟩ := ends.parts
  have relay := committed_relay k ends i
  refine ⟨fun none => by rw [relay, none]; rfl, fun x some => ?_⟩
  rw [some, Option.map_some] at relay
  have fails := failsAtCommit_iff g s.nodes x
  rw [← nodes, ← ends.mode] at fails
  refine ⟨fun ⟨queued, h⟩ => ?_, fun h => ?_⟩
  · rw [relay, if_pos ⟨queued, fails.2 h⟩]
    rfl
  · rw [relay, if_neg fun ⟨queued, f⟩ => h ⟨queued, fails.1 f⟩]

theorem committed_rest {seq : Byte} (spelled : s.command.commitSeq = some seq) (k : Committed s s.prospective f g)
    (ends : CommitEnds s g t) :
    t.command = { s.command with staged := [], commitPending := false, commitSeq := none } ∧
    t.console = s.answered (.commitDone seq s.command.staged.length ((s.level.cycleNumber + 1) % 4294967296)) ∧
    t.agents.drops = s.agents.drops ∧ t.markers.latest = s.markers.latest ∧ t.relays.discards = s.relays.discards ∧
    t.power = s.power ∧ t.now = s.now ∧ t.pending = s.pending ∧ t.ring = s.ring ∧ t.dispatch = s.dispatch ∧
    t.level = s.level ∧ t.pourClock = s.pourClock ∧ t.placementSeen = s.placementSeen ∧ t.jobs = s.jobs := by
  have live := prospective_live s
  have command : g.command = s.command := (congrArg Around.command k.around).trans (congrArg Live.command live)
  have console : g.console = s.console := (congrArg Around.console k.around).trans (congrArg Live.console live)
  have level : g.level = s.level := (congrArg Around.level k.around).trans (congrArg Live.level live)
  refine ⟨ends.command.trans ?_, ends.console.trans ?_, ?_, ?_, ?_, ends.power.trans ?_, ends.now.trans ?_,
    ends.pending.trans ?_, ends.ring.trans ?_, ends.dispatch.trans ?_, ends.level.trans level, ends.pourClock.trans ?_,
    ends.placementSeen.trans ?_, ends.jobs.trans ?_⟩
  · rw [command]
  · unfold State.answered
    rw [console, command, level, spelled]
    rfl
  · rw [ends.agents]
    exact (congrArg (fun x => (Around.agents x).drops) k.around).trans (congrArg Live.drops live)
  · rw [ends.markers]
    exact (congrArg (fun x => (Around.markers x).latest) k.around).trans (congrArg Live.latest live)
  · rw [ends.relays]
    exact (congrArg (fun x => (Around.relays x).discards) k.around).trans (congrArg (fun x => (Live.relays x).discards) live)
  · exact (congrArg Around.power k.around).trans (congrArg Live.power live)
  · exact (congrArg Around.now k.around).trans (congrArg Live.now live)
  · exact (congrArg Around.pending k.around).trans (congrArg Live.pending live)
  · exact (congrArg Around.ring k.around).trans (congrArg Live.ring live)
  · exact (congrArg Around.dispatch k.around).trans (congrArg Live.dispatch live)
  · exact (congrArg Around.pourClock k.around).trans (congrArg Live.pourClock live)
  · exact (congrArg Around.placementSeen k.around).trans (congrArg Live.placementSeen live)
  · exact (congrArg Around.jobs k.around).trans (congrArg Live.jobs live)

theorem committed_written (inv : s.StagedInv) (k : Committed s s.prospective f g) (ends : CommitEnds s g t) :
    let edits := s.command.staged
    (∀ i e, .node i e ∈ edits → t.node i = e) ∧ (∀ i, (∀ e, .node i e ∉ edits) → t.node i = s.node i) ∧
    (∀ i e, .segment i e ∈ edits → t.segment i = e) ∧ (∀ i, (∀ e, .segment i e ∉ edits) → t.segment i = s.segment i) ∧
    (∀ i e, .descriptor i e ∈ edits → t.descriptor i = e) ∧
    (∀ i, (∀ e, .descriptor i e ∉ edits) → t.descriptor i = s.descriptor i) ∧
    (∀ i e, .monitor i e ∈ edits → t.monitor i = e) ∧ (∀ i, (∀ e, .monitor i e ∉ edits) → t.monitor i = s.monitor i) ∧
    (∀ i e, .marker i e ∈ edits → t.marker i = e ∧ t.markers.spent.read i = false) ∧
    (∀ i, (∀ e, .marker i e ∉ edits) → t.marker i = s.marker i ∧ t.markers.spent.read i = s.markers.spent.read i) ∧
    (∀ i e, .agent i e ∈ edits → t.agents.entries.read i = e ∧ t.agents.counters.read i = 0) ∧
    (∀ i, (∀ e, .agent i e ∉ edits) → t.agents.entries.read i = s.agents.entries.read i ∧
      t.agents.counters.read i = s.agents.counters.read i) ∧
    (∀ (i : ParamIx) v, i ≠ 11 → .parameter i v ∈ edits → t.params.value i = v) ∧
    (∀ i : ParamIx, i ≠ 11 → (∀ v, .parameter i v ∉ edits) → t.params.value i = s.params.value i) ∧
    ((∀ v, .parameter 11 v ∉ edits) → t.params.rateReq = min s.params.rateReq t.params.rateMax) := by
  obtain ⟨nodes, segments, descriptors, monitors, markers, agents, params, rate⟩ := committed_tables k ends
  have node (i : Slot) := prospective_entry s inv (fun v => v.node i) (.node i) (fun x e h e' => h ▸ rfl)
    fun v x => applyEdit_node v x i
  have segment (i : SegmentIx) := prospective_entry s inv (fun v => v.segment i) (.segment i) (fun x e h e' => h ▸ rfl)
    fun v x => applyEdit_segment v x i
  have descriptor (i : DescriptorIx) := prospective_entry s inv (fun v => v.descriptor i) (.descriptor i)
    (fun x e h e' => h ▸ rfl) fun v x => applyEdit_descriptor v x i
  have monitor (i : MonitorIx) := prospective_entry s inv (fun v => v.monitor i) (.monitor i) (fun x e h e' => h ▸ rfl)
    fun v x => applyEdit_monitor v x i
  have marker (i : MarkerIx) := prospective_entry s inv (fun v => v.marker i) (.marker i) (fun x e h e' => h ▸ rfl)
    fun v x => applyEdit_marker v x i
  have agent (i : AgentIx) := prospective_entry s inv (fun v => v.agents.entries.read i) (.agent i)
    (fun x e h e' => h ▸ rfl) fun v x => applyEdit_agent v x i
  have parameter (i : ParamIx) := prospective_entry s inv (fun v => v.params.value i) (.parameter i)
    (fun x e h e' => h ▸ rfl) fun v x => applyEdit_parameter v x i
  refine ⟨fun i e h => (nodes i).trans ((node i).1 e h), fun i h => (nodes i).trans ((node i).2 h),
    fun i e h => (segments i).trans ((segment i).1 e h), fun i h => (segments i).trans ((segment i).2 h),
    fun i e h => (descriptors i).trans ((descriptor i).1 e h), fun i h => (descriptors i).trans ((descriptor i).2 h),
    fun i e h => (monitors i).trans ((monitor i).1 e h), fun i h => (monitors i).trans ((monitor i).2 h),
    fun i e h => ⟨(markers i).trans ((marker i).1 e h), (committed_spent k ends i).1 ⟨e, h⟩⟩,
    fun i h => ⟨(markers i).trans ((marker i).2 h), (committed_spent k ends i).2 h⟩,
    fun i e h => ⟨(agents i).trans ((agent i).1 e h), (committed_counters k ends i).1 ⟨e, h⟩⟩,
    fun i h => ⟨(agents i).trans ((agent i).2 h), (committed_counters k ends i).2 h⟩,
    fun i e ne h => (params i ne).trans ((parameter i).1 e h), fun i ne h => (params i ne).trans ((parameter i).2 h),
    fun h => ?_⟩
  have unwritten : s.prospective.params.rateReq = s.params.rateReq := (parameter 11).2 h
  have cap : t.params.rateMax = s.prospective.params.rateMax := params _ (by decide)
  rw [rate, unwritten, cap]

/-- Settles O22: the first check that fails names the refusal, and the application leaves each block as its rule says. -/
theorem commitIsTakenOrNamesAConflict : Obligations.CommitIsTakenOrNamesAConflict := by
  refine ⟨fun s seq running => ?_, fun s idle => if_neg (Bool.eq_false_iff.1 idle), fun s seq pending spelled inv => ?_⟩
  · have taken : exec (.commit seq []) s = .next (s.silenceReset.takeCommit seq []) :=
      exec_command running (fun u => u.takeCommit seq []) rfl
    rw [taken]
    generalize s.silenceReset = u
    obtain ⟨exit, band, stroke, freeboard, related⟩ := badRelation_cases u.prospective.params
    refine ⟨fun busy => ?_, fun idle => ?_⟩
    · exact congrArg Host.Outcome.next (if_pos busy)
    obtain ⟨shared, rest⟩ := takeCommit_cases seq idle
    refine ⟨fun i h first => congrArg Host.Outcome.next (shared i h first), fun unshared => ?_⟩
    obtain ⟨bad, rest⟩ := rest unshared
    refine ⟨fun d h first => congrArg Host.Outcome.next (bad d h first), fun good => ?_⟩
    obtain ⟨relation, rest⟩ := rest good
    refine ⟨fun h => congrArg Host.Outcome.next (relation 13 (exit h)),
      fun a h => congrArg Host.Outcome.next (relation 12 (band a h)),
      fun a b h => congrArg Host.Outcome.next (relation 1 (stroke a b h)),
      fun a b c h => congrArg Host.Outcome.next (relation 21 (freeboard a b c h)), fun all => ?_⟩
    obtain ⟨jack, accepted⟩ := rest (related all)
    refine ⟨fun i h first => congrArg Host.Outcome.next (jack i h first), fun still => ⟨_, rfl, ?_⟩⟩
    rw [accepted still]
    exact ⟨rfl, rfl, rfl⟩
  · obtain ⟨a, c, d, e, f, g, stages, ends⟩ := commitAtComplete_ends pending
    have k := stages.committed
    refine ⟨committed_written inv k ends, committed_record k ends, committed_due k ends, committed_wall k ends,
      committed_monitor k ends, committed_conditions k ends, ⟨?_, ends.free.trans k.free⟩, committed_relays k ends,
      committed_rest spelled k ends⟩
    rw [ends.feed, k.feed, stages.feed, stages.wall, stages.due, stages.sources, stages.tables]

end Sys2Proof.Proofs
end


section
/-! PROOFS. The arithmetic of a computation (O58): the mean, the spread, the gates, the least term and the demand. -/

namespace Sys2Proof.Proofs

open Sys2Proof Sys2Proof.Machine Sys2Proof.Laws

/-! ## Heights and spread (R45, R46) -/

theorem referenceHeight_floor {cs : List Int} (some_ : cs ≠ []) : ∃ h, referenceHeight cs = some h ∧
    h * cs.length ≤ cs.sum ∧ cs.sum < (h + 1) * cs.length := by
  have positive : (0 : Int) < cs.length := by exact_mod_cast List.length_pos_iff.2 some_
  obtain ⟨c, rest, rfl⟩ := List.exists_cons_of_ne_nil some_
  exact ⟨_, rfl, Int.ediv_mul_le _ positive.ne', Int.lt_ediv_add_one_mul_self _ positive⟩

theorem foldl_max_greatest (es : List Int) : ∀ e : Int, es.foldl max e ∈ e :: es ∧ ∀ x ∈ e :: es, x ≤ es.foldl max e := by
  induction es with
  | nil => exact fun e => ⟨List.mem_singleton_self e, fun x mem => (List.mem_singleton.1 mem).le⟩
  | cons y ys ih =>
    intro e
    obtain ⟨mem, above⟩ := ih (max e y)
    have top := above _ List.mem_cons_self
    rw [List.foldl_cons]
    refine ⟨?_, fun x h => ?_⟩
    · rcases List.mem_cons.1 mem with is | later
      · rw [is]
        rcases max_choice e y with h | h <;> simp [h]
      · exact List.mem_cons_of_mem _ (List.mem_cons_of_mem _ later)
    · rcases List.mem_cons.1 h with rfl | h
      · exact (le_max_left _ _).trans top
      · rcases List.mem_cons.1 h with rfl | h
        · exact (le_max_right _ _).trans top
        · exact above x (List.mem_cons_of_mem _ h)

theorem foldl_min_least (es : List Int) : ∀ e : Int, es.foldl min e ∈ e :: es ∧ ∀ x ∈ e :: es, es.foldl min e ≤ x := by
  induction es with
  | nil => exact fun e => ⟨List.mem_singleton_self e, fun x mem => (List.mem_singleton.1 mem).ge⟩
  | cons y ys ih =>
    intro e
    obtain ⟨mem, below⟩ := ih (min e y)
    have bottom := below _ List.mem_cons_self
    rw [List.foldl_cons]
    refine ⟨?_, fun x h => ?_⟩
    · rcases List.mem_cons.1 mem with is | later
      · rw [is]
        rcases min_choice e y with h | h <;> simp [h]
      · exact List.mem_cons_of_mem _ (List.mem_cons_of_mem _ later)
    · rcases List.mem_cons.1 h with rfl | h
      · exact bottom.trans (min_le_left _ _)
      · rcases List.mem_cons.1 h with rfl | h
        · exact bottom.trans (min_le_right _ _)
        · exact below x (List.mem_cons_of_mem _ h)

/-- The spread bounds every difference of two errors, and is one. -/
theorem spreadOf_greatest {es : List Int} (some_ : es ≠ []) : (∀ x ∈ es, ∀ y ∈ es, x - y ≤ spreadOf es) ∧
    ∃ x ∈ es, ∃ y ∈ es, x - y = spreadOf es := by
  obtain ⟨e, rest, rfl⟩ := List.exists_cons_of_ne_nil some_
  obtain ⟨maxMem, above⟩ := foldl_max_greatest rest e
  obtain ⟨minMem, below⟩ := foldl_min_least rest e
  have apart : (spreadOf (e :: rest) : Int) = rest.foldl max e - rest.foldl min e :=
    Int.toNat_of_nonneg (Int.sub_nonneg_of_le (below _ maxMem))
  rw [apart]
  exact ⟨fun x hx y hy => sub_le_sub (above x hx) (below y hy), _, maxMem, _, minMem, rfl⟩

/-! ## The gates (R53, R54) -/

theorem leastOf_eq_some {l : List Int} {a : Int} : leastOf l = some a ↔ (∀ x ∈ l, a ≤ x) ∧ a ∈ l := by
  cases l with
  | nil => simp [leastOf]
  | cons e es =>
    obtain ⟨mem, below⟩ := foldl_min_least es e
    rw [leastOf, Option.some_inj]
    constructor
    · rintro rfl
      exact ⟨below, mem⟩
    · rintro ⟨least, own⟩
      exact le_antisymm (below a own) (least _ mem)

/-- The bottom of the first record of a queue that is unset. -/
def UnsetBottom (w : SegmentLive) (clock setAge u : Nat) : Prop :=
  ∃ n l, w.queue[n]? = some l ∧ clock - l.placedAt < setAge ∧
    (∀ (m : Nat) (x : Layer), m < n → w.queue[m]? = some x → setAge ≤ clock - x.placedAt) ∧
    u = (((w.queue.take n).getLast?).map Layer.top).getD w.base

theorem unset_iff (l : Layer) (clock setAge : Nat) : l.unset clock setAge = true ↔ clock - l.placedAt < setAge := by
  simp [Layer.unset]

theorem lowestUnset_eq_some {w : SegmentLive} {clock setAge u : Nat} :
    w.lowestUnset clock setAge = some u ↔ UnsetBottom w clock setAge u := by
  have at_ (n : Nat) (l : Layer) (is : w.queue[n]? = some l) (h : l.unset clock setAge = true)
      (k : ∀ (m : Nat) (x : Layer), m < n → w.queue[m]? = some x → x.unset clock setAge = false) :
      w.lowestUnset clock setAge = some ((((w.queue.take n).getLast?).map Layer.top).getD w.base) := by
    obtain ⟨short, rfl⟩ := List.getElem?_eq_some_iff.1 is
    have split : w.queue = w.queue.take n ++ w.queue[n] :: w.queue.drop (n + 1) := by
      rw [← List.drop_eq_getElem_cons short, List.take_append_drop]
    unfold SegmentLive.lowestUnset
    conv_lhs => rw [split]
    refine lowestUnset_first _ _ _ _ _ _ h fun x mem => ?_
    obtain ⟨m, inside, rfl⟩ := List.mem_iff_getElem.1 mem
    have before : m < n := (List.length_take ▸ inside).trans_le (min_le_left _ _)
    refine k m _ before ?_
    rw [List.getElem_take]
    exact List.getElem?_eq_getElem _
  constructor
  · intro h
    cases found : w.queue.findIdx? (fun l => l.unset clock setAge) with
    | none =>
      have set (l : Layer) (mem : l ∈ w.queue) : l.unset clock setAge = false :=
        List.findIdx?_eq_none_iff.1 found l mem
      rw [SegmentLive.lowestUnset, lowestUnset_none _ _ _ _ set] at h
      exact nomatch h
    | some n =>
      obtain ⟨short, unset, first⟩ := List.findIdx?_eq_some_iff_getElem.1 found
      have set (m : Nat) (x : Layer) (before : m < n) (is : w.queue[m]? = some x) : x.unset clock setAge = false := by
        obtain ⟨_, rfl⟩ := List.getElem?_eq_some_iff.1 is
        exact Bool.eq_false_iff.2 (first m before)
      refine ⟨n, _, List.getElem?_eq_getElem short, (unset_iff _ _ _).1 unset, fun m x before is => ?_, ?_⟩
      · exact not_lt.1 (mt (unset_iff _ _ _).2 (Bool.eq_false_iff.1 (set m x before is)))
      · exact Option.some_inj.1 (h.symm.trans (at_ n _ (List.getElem?_eq_getElem short) unset set))
  · rintro ⟨n, l, is, unset, first, rfl⟩
    exact at_ n l is ((unset_iff _ _ _).2 unset) fun m x before is =>
      Bool.eq_false_iff.2 (mt (unset_iff _ _ _).1 (not_lt.2 (first m x before is)))

theorem mem_enabledSegments {s : State} {k : SegmentIx} : k ∈ s.enabledSegments ↔ (s.segment k).enabled = true := by
  unfold State.enabledSegments
  rw [List.mem_filter]
  exact and_iff_right (List.mem_finRange k)

theorem fillGate_eq_some {s : State} {h a : Int} : s.fillGate h = some a ↔
    (∀ k, (s.segment k).enabled = true → a ≤ (s.wall k).top + s.params.maxVoid - h) ∧
    (∃ k, (s.segment k).enabled = true ∧ a = (s.wall k).top + s.params.maxVoid - h) := by
  unfold State.fillGate
  rw [leastOf_eq_some, List.forall_mem_map, List.mem_map]
  simp only [mem_enabledSegments, eq_comm (b := a)]

theorem setGate_eq_some {s : State} {b a : Int} : s.setGate b = some a ↔
    (∀ k u, (s.segment k).enabled = true → UnsetBottom (s.wall k) s.pourClock s.params.setAgeS u → a ≤ u - b) ∧
    (∃ k u, (s.segment k).enabled = true ∧ UnsetBottom (s.wall k) s.pourClock s.params.setAgeS u ∧ a = u - b) := by
  have mem (x : Int) : x ∈ (s.enabledSegments.filterMap fun k =>
      ((s.wall k).lowestUnset s.pourClock s.params.setAgeS).map fun (u : Nat) => (u : Int) - b) ↔
      ∃ k u, (s.segment k).enabled = true ∧ UnsetBottom (s.wall k) s.pourClock s.params.setAgeS u ∧ x = u - b := by
    simp only [List.mem_filterMap, mem_enabledSegments, Option.map_eq_some_iff, lowestUnset_eq_some, eq_comm (b := x)]
    exact ⟨fun ⟨k, on, u, h⟩ => ⟨k, u, on, h⟩, fun ⟨k, u, on, h⟩ => ⟨k, on, u, h⟩⟩
  unfold State.setGate
  rw [leastOf_eq_some, mem]
  refine and_congr_left fun _ => ⟨fun h k u on unset => h _ ((mem _).2 ⟨k, u, on, unset, rfl⟩), fun h x own => ?_⟩
  obtain ⟨k, u, on, unset, rfl⟩ := (mem x).1 own
  exact h k u on unset

/-! ## The common step and its binding (R55, R56) -/

/-- One more term in front, or none: the least is the term, or the least behind it that lies below. -/
theorem firstLeast_option (b : Binding) (o : Option Int) {xs : List (Binding × Int)} {y : Binding × Int}
    (h : firstLeast xs = some y) : ∃ z, firstLeast ((o.map fun a => (b, a)).toList ++ xs) = some z ∧
      z.2 ≤ y.2 ∧ (∀ a, o = some a → z.2 ≤ a) ∧ (o = some z.2 ∧ z.1 = b ∨ o ≠ some z.2 ∧ z = y) := by
  cases o with
  | none => exact ⟨y, h, le_rfl, nofun, .inr ⟨nofun, rfl⟩⟩
  | some a =>
    have step : firstLeast ((b, a) :: xs) = if a ≤ y.2 then some (b, a) else some y := by rw [firstLeast, h]
    by_cases low : a ≤ y.2
    · exact ⟨(b, a), step.trans (if_pos low), low, fun c is => (Option.some_inj.1 is).le, .inl ⟨rfl, rfl⟩⟩
    · refine ⟨y, step.trans (if_neg low), le_rfl, fun c is => ?_, .inr ⟨fun is => ?_, rfl⟩⟩
      · exact Option.some_inj.1 is ▸ (not_le.1 low).le
      · exact low (Option.some_inj.1 is).le

/-- The least of the terms and which of them is the first to give it. -/
theorem firstLeast_stepTerms (sReq sMax : Nat) (aFill aSet : Option Int) : ∃ (b : Binding) (m : Int),
    firstLeast (stepTerms sReq aFill aSet sMax) = some (b, m) ∧ m ≤ sReq ∧ m ≤ sMax ∧ (∀ a, aFill = some a → m ≤ a) ∧
    (∀ a, aSet = some a → m ≤ a) ∧ (m = sReq ∨ aFill = some m ∨ aSet = some m ∨ m = sMax) ∧
    b = (if m = sReq then .rate else if aFill = some m then .fill else if aSet = some m then .set else .cap) := by
  obtain ⟨z, zIs, zCap, zSet, zCase⟩ := firstLeast_option .set aSet (xs := [(.cap, (sMax : Int))]) rfl
  obtain ⟨y, yIs, yz, yFill, yCase⟩ := firstLeast_option .fill aFill zIs
  obtain ⟨x, xIs, xy, xRate, xCase⟩ := firstLeast_option .rate (some (sReq : Int)) yIs
  have terms : stepTerms sReq aFill aSet sMax = ((some (sReq : Int)).map fun a => (Binding.rate, a)).toList ++
      ((aFill.map fun a => (Binding.fill, a)).toList ++
        ((aSet.map fun a => (Binding.set, a)).toList ++ [(.cap, (sMax : Int))])) := by
    simp [stepTerms]
  refine ⟨x.1, x.2, terms ▸ xIs, xRate _ rfl, (xy.trans yz).trans zCap, fun a is => xy.trans (yFill a is),
    fun a is => (xy.trans yz).trans (zSet a is), ?_⟩
  rcases xCase with ⟨rate, name⟩ | ⟨rate, rfl⟩
  · have is := (Option.some_inj.1 rate).symm
    exact ⟨.inl is, name.trans (if_pos is).symm⟩
  have slow : x.2 ≠ sReq := fun is => rate (congrArg some is.symm)
  rw [if_neg slow]
  rcases yCase with ⟨fill, name⟩ | ⟨fill, rfl⟩
  · exact ⟨.inr (.inl fill), name.trans (if_pos fill).symm⟩
  rw [if_neg fill]
  rcases zCase with ⟨set, name⟩ | ⟨set, rfl⟩
  · exact ⟨.inr (.inr (.inl set)), name.trans (if_pos set).symm⟩
  · exact ⟨.inr (.inr (.inr rfl)), (if_neg set).symm⟩

/-! ## The demand (R57) -/

theorem correction_eq (gain : Nat) (e : Int) : let x : Int := gain * e
    correction gain e = x.sign * ((x.natAbs + 8) / 16 : Nat) := by
  unfold correction
  generalize (gain : Int) * e = x
  dsimp only
  rcases lt_trichotomy x 0 with h | rfl | h
  · rw [if_neg (by omega), Int.sign_eq_neg_one_of_neg h]
    omega
  · rfl
  · rw [if_pos h.le, Int.sign_eq_one_of_pos h]
    omega

end Sys2Proof.Proofs
end


section
/-! PROOFS. The cycle result of a computation (O58), stage by stage. -/

namespace Sys2Proof.Proofs

open Sys2Proof Sys2Proof.Machine Sys2Proof.Laws

variable {s : State} {mode : RiseMode} {clock : Option Nat}

/-! ## Participants and errors (R43, R45, R46) -/

theorem mem_participants {i : Slot} : i ∈ s.participants ↔ (s.node i).enabled = true ∧ (s.node i).kind = .jack ∧
    (s.record i).state = .active ∧ i ∈ s.sweep.replies := by
  unfold State.participants State.participates
  rw [List.mem_filter, Bool.and_eq_true, Bool.and_eq_true, Bool.and_eq_true, decide_eq_true_iff, decide_eq_true_iff,
    List.contains_iff_mem, and_assoc, and_assoc]
  exact and_iff_right (List.mem_finRange i)

/-- With no participant there is neither height nor error; with some, the mean's floor and an error for each. -/
theorem cycleResult_heights (s : State) (mode : RiseMode) (clock : Option Nat) : let r := s.cycleResult mode clock
    (s.participants = [] → r.hRef = none ∧ r.errors = []) ∧
    (s.participants ≠ [] → ∃ h, r.hRef = some h ∧
      h * s.participants.length ≤ (s.participants.map s.correctedHeight).sum ∧
      (s.participants.map s.correctedHeight).sum < (h + 1) * s.participants.length ∧
      r.errors = s.participants.map fun i => { slot := i, error := s.correctedHeight i - h }) ∧
    r.n = s.participants.length ∧ r.bottom = (r.hRef.map fun (h : Int) => h - (s.params.formHeight : Int)) ∧
    r.spread = spreadOf (r.errors.map SlotError.error) := by
  refine ⟨fun none => ?_, fun some_ => ?_, rfl, rfl, rfl⟩
  · have no : referenceHeight (s.participants.map s.correctedHeight) = Option.none := by rw [none]; rfl
    unfold State.cycleResult
    dsimp only
    rw [no]
    exact ⟨rfl, rfl⟩
  · obtain ⟨h, is, low, high⟩ := referenceHeight_floor (cs := s.participants.map s.correctedHeight)
      (mt List.map_eq_nil_iff.1 some_)
    rw [List.length_map] at low high
    refine ⟨h, is, low, high, ?_⟩
    unfold State.cycleResult
    dsimp only
    rw [is]

theorem cycleResult_slots (s : State) (mode : RiseMode) (clock : Option Nat) : let r := s.cycleResult mode clock
    r.errors.map SlotError.slot = s.participants := by
  obtain ⟨none, some_, -⟩ := cycleResult_heights s mode clock
  by_cases empty : s.participants = []
  · dsimp only
    rw [(none empty).2, empty]
    rfl
  · obtain ⟨h, -, -, -, errors⟩ := some_ empty
    dsimp only
    rw [errors, List.map_map]
    exact List.map_id _

theorem participants_rise (s : State) : s.participants.Pairwise (· < ·) :=
  (List.pairwise_lt_finRange 128).filter _

/-- The participants' heights and errors, from the errors of the result. -/
theorem cycleResult_errors (s : State) (mode : RiseMode) (clock : Option Nat) : let r := s.cycleResult mode clock
    (∀ i, i ∈ r.errors.map SlotError.slot ↔ (s.node i).enabled = true ∧ (s.node i).kind = .jack ∧
      (s.record i).state = .active ∧ i ∈ s.sweep.replies) ∧
    r.n = r.errors.length ∧ r.errors.Pairwise (fun x y => x.slot < y.slot) ∧
    (r.n = 0 → r.hRef = none ∧ r.bottom = none ∧ r.spread = 0 ∧ r.s = 0 ∧ r.binding = .none) ∧
    (0 < r.n → ∃ h, r.hRef = some h ∧ r.bottom = some (h - s.params.formHeight) ∧
      h * r.n ≤ (r.errors.map fun e => s.correctedHeight e.slot).sum ∧
      (r.errors.map fun e => s.correctedHeight e.slot).sum < (h + 1) * r.n ∧
      (∀ e ∈ r.errors, e.error = s.correctedHeight e.slot - h) ∧
      (∀ e ∈ r.errors, ∀ f ∈ r.errors, e.error - f.error ≤ r.spread) ∧
      (∃ e ∈ r.errors, ∃ f ∈ r.errors, e.error - f.error = r.spread)) := by
  obtain ⟨none, some_, n, bottom, spread⟩ := cycleResult_heights s mode clock
  have slots := cycleResult_slots s mode clock
  have step : (s.cycleResult mode clock).n = 0 → (s.cycleResult mode clock).s = 0 ∧
      (s.cycleResult mode clock).binding = .none := fun zero => ⟨if_pos zero, if_pos (.inl zero)⟩
  dsimp only at *
  generalize s.cycleResult mode clock = r at *
  have length : r.errors.length = s.participants.length := by rw [← slots, List.length_map]
  have heights : r.errors.map (fun e => s.correctedHeight e.slot) = s.participants.map s.correctedHeight := by
    rw [← slots, List.map_map]
    rfl
  refine ⟨fun i => slots ▸ mem_participants, n.trans length.symm, ?_, fun zero => ?_, fun positive => ?_⟩
  · have rise := participants_rise s
    rw [← slots] at rise
    exact List.pairwise_map.1 rise
  · obtain ⟨noRef, noErrors⟩ := none (List.length_eq_zero_iff.1 (n.symm.trans zero))
    rw [bottom, spread, noRef, noErrors]
    exact ⟨rfl, rfl, rfl, step zero⟩
  · obtain ⟨h, ref, low, high, errors⟩ := some_ (List.length_pos_iff.1 (n ▸ positive))
    have present : r.errors.map SlotError.error ≠ [] := fun empty => by
      have zero := List.length_eq_zero_iff.2 (List.map_eq_nil_iff.1 empty)
      rw [length, ← n] at zero
      exact positive.ne' zero
    obtain ⟨bounds, e, he, f, hf, attained⟩ := spreadOf_greatest present
    obtain ⟨x, xMem, rfl⟩ := List.mem_map.1 he
    obtain ⟨y, yMem, rfl⟩ := List.mem_map.1 hf
    rw [ref] at bottom
    rw [heights, n, spread]
    refine ⟨h, ref, bottom, low, high, fun e mem => ?_, fun e he f hf => ?_, x, xMem, y, yMem, attained⟩
    · obtain ⟨i, -, rfl⟩ := List.mem_map.1 (errors ▸ mem)
      rfl
    · exact bounds _ (List.mem_map_of_mem he) _ (List.mem_map_of_mem hf)

/-! ## Step mode, step and gates (R47, R50-R56) -/

theorem stepModeOf_cases (p : Params) (mode : RiseMode) (n spread : Nat) : stepModeOf p mode n spread =
    if n = 0 then mode else if mode = .climb ∧ p.trimBand < spread then .trim
    else if mode = .trim ∧ spread ≤ p.trimExit then .climb else mode := by
  unfold stepModeOf
  by_cases h : n = 0
  · rw [if_pos h, if_pos h]
  · rw [if_neg h, if_neg h]
    cases mode <;> simp

/-- The step mode is CLIMB only out of CLIMB and TRIM. -/
theorem stepModeOf_climbs {p : Params} {mode : RiseMode} {n spread : Nat} (h : stepModeOf p mode n spread = .climb) :
    mode = .climb ∨ mode = .trim := by
  rw [stepModeOf_cases] at h
  split_ifs at h with a b c
  · exact .inl h
  · exact .inr c.1
  · exact .inl h

theorem creditedTime_capped (p : Params) (now free : Nat) (clock : Option Nat) :
    (∀ c, clock = some c → creditedTime p now free clock = min (now - c) (2 * p.cycleMs)) ∧
    creditedTime p now free clock ≤ 2 * p.cycleMs := by
  cases clock with
  | none => exact ⟨nofun, min_le_right _ _⟩
  | some c => exact ⟨fun d is => Option.some_inj.1 is ▸ rfl, min_le_right _ _⟩

/-- The requested step and the remainder of a computation. -/
theorem cycleResult_requested (s : State) (mode : RiseMode) (clock : Option Nat) : let r := s.cycleResult mode clock
    (mode = .climb → r.stepMode = .climb → ∃ credit,
      (∀ c, clock = some c → credit = min (s.now - c) (2 * s.params.cycleMs)) ∧ credit ≤ 2 * s.params.cycleMs ∧
      r.sReq * 3600000 + r.remainder = s.params.rateReq * credit + s.level.remainder ∧ r.remainder < 3600000) ∧
    (mode ≠ .climb ∨ r.stepMode ≠ .climb → r.sReq = 0 ∧ r.remainder = 0) := by
  have sReq : (s.cycleResult mode clock).sReq = if decide ((s.cycleResult mode clock).stepMode = .climb) then
      rateNumerator s.params (if decide (mode = .trim) && decide ((s.cycleResult mode clock).stepMode = .climb) then 0
        else creditedTime s.params s.now s.free clock)
      (if decide (mode = .trim) && decide ((s.cycleResult mode clock).stepMode = .climb) then 0 else s.level.remainder)
      / 3600000 else 0 := rfl
  have remainder : (s.cycleResult mode clock).remainder = if decide ((s.cycleResult mode clock).stepMode = .climb) then
      rateNumerator s.params (if decide (mode = .trim) && decide ((s.cycleResult mode clock).stepMode = .climb) then 0
        else creditedTime s.params s.now s.free clock)
      (if decide (mode = .trim) && decide ((s.cycleResult mode clock).stepMode = .climb) then 0 else s.level.remainder)
      % 3600000 else 0 := rfl
  have climbs : (s.cycleResult mode clock).stepMode = .climb → mode = .climb ∨ mode = .trim := stepModeOf_climbs
  dsimp only
  generalize s.cycleResult mode clock = r at *
  refine ⟨fun climb still => ?_, fun other => ?_⟩
  · subst climb
    obtain ⟨exact_, capped⟩ := creditedTime_capped s.params s.now s.free clock
    rw [still] at sReq remainder
    refine ⟨_, exact_, capped, ?_, ?_⟩
    · rw [sReq, remainder]
      exact Nat.div_add_mod' _ _
    · rw [remainder]
      exact Nat.mod_lt _ (by decide)
  · by_cases climb : r.stepMode = .climb
    · have trim : mode = .trim := (climbs climb).resolve_left fun h => other.elim (· h) (· climb)
      subst trim
      rw [sReq, remainder, climb]
      simp [rateNumerator]
    · rw [sReq, remainder, decide_eq_false climb]
      exact ⟨rfl, rfl⟩

/-- The gates of a computation. -/
theorem cycleResult_gates (s : State) (mode : RiseMode) (clock : Option Nat) : let r := s.cycleResult mode clock
    (∀ a, r.aFill = some a ↔ ∃ h, r.hRef = some h ∧
      (∀ k, (s.segment k).enabled = true → a ≤ (s.wall k).top + s.params.maxVoid - h) ∧
      (∃ k, (s.segment k).enabled = true ∧ a = (s.wall k).top + s.params.maxVoid - h)) ∧
    (∀ a, r.aSet = some a ↔ ∃ b, r.bottom = some b ∧
      (∀ k u, (s.segment k).enabled = true → UnsetBottom (s.wall k) s.pourClock s.params.setAgeS u → a ≤ u - b) ∧
      (∃ k u, (s.segment k).enabled = true ∧ UnsetBottom (s.wall k) s.pourClock s.params.setAgeS u ∧ a = u - b)) := by
  have fill : (s.cycleResult mode clock).aFill = (s.cycleResult mode clock).hRef.bind s.fillGate := rfl
  have set : (s.cycleResult mode clock).aSet = (s.cycleResult mode clock).bottom.bind s.setGate := rfl
  dsimp only
  generalize s.cycleResult mode clock = r at *
  refine ⟨fun a => ?_, fun a => ?_⟩
  · simp only [fill, Option.bind_eq_some_iff, fillGate_eq_some]
  · simp only [set, Option.bind_eq_some_iff, setGate_eq_some]

/-- The common step and the term that binds it. -/
theorem cycleResult_step (s : State) (mode : RiseMode) (clock : Option Nat) : let r := s.cycleResult mode clock
    0 < r.n → ∃ m : Int, r.s = m.toNat ∧ m ≤ r.sReq ∧ m ≤ s.params.sMax ∧ (∀ a, r.aFill = some a → m ≤ a) ∧
      (∀ a, r.aSet = some a → m ≤ a) ∧
      (m = r.sReq ∨ r.aFill = some m ∨ r.aSet = some m ∨ m = s.params.sMax) ∧
      r.binding = (if r.sReq = 0 then .none else if m = r.sReq then .rate else if r.aFill = some m then .fill
        else if r.aSet = some m then .set else .cap) := by
  have step : (s.cycleResult mode clock).s = commonStep (s.cycleResult mode clock).n (s.cycleResult mode clock).sReq
    (s.cycleResult mode clock).aFill (s.cycleResult mode clock).aSet s.params.sMax := rfl
  have binding : (s.cycleResult mode clock).binding = bindingOf (s.cycleResult mode clock).n (s.cycleResult mode clock).sReq
    (s.cycleResult mode clock).aFill (s.cycleResult mode clock).aSet s.params.sMax := rfl
  dsimp only
  generalize s.cycleResult mode clock = r at *
  intro positive
  obtain ⟨b, m, least, rate, cap, fill, set, attained, name⟩ := firstLeast_stepTerms r.sReq s.params.sMax r.aFill r.aSet
  refine ⟨m, ?_, rate, cap, fill, set, attained, ?_⟩
  · rw [step]
    unfold commonStep
    rw [if_neg positive.ne', least]
  · rw [binding, ← name]
    unfold bindingOf
    rw [least]
    exact if_congr (or_iff_right positive.ne') rfl rfl

/-! ## Demands (R57) -/

theorem cycleResult_demands (s : State) (mode : RiseMode) (clock : Option Nat) : let r := s.cycleResult mode clock
    r.demands.length = r.errors.length ∧
    (∀ (n : Nat) (e : SlotError), r.errors[n]? = some e → ∃ d, r.demands[n]? = some d ∧ d.slot = e.slot ∧
      (let x : Int := s.params.gain * e.error
       let correction : Int := x.sign * ((x.natAbs + 8) / 16 : Nat)
       (r.stepMode = .climb ∨ r.stepMode = .trim →
         (d.demand : Int) = max 0 (min (((s.node e.slot).strokeMax.getD 0 : Nat) : Int) ((r.s : Int) - correction))) ∧
       (r.stepMode ≠ .climb → r.stepMode ≠ .trim → d.demand = 0))) := by
  have demands : (s.cycleResult mode clock).demands = (s.cycleResult mode clock).errors.map fun e =>
      { slot := e.slot, demand := if (s.cycleResult mode clock).stepMode.makesDemands
        then demandOf s.params.gain (s.cycleResult mode clock).s ((s.node e.slot).strokeMax.getD 0) e.error else 0 } := rfl
  dsimp only
  generalize s.cycleResult mode clock = r at *
  rw [demands, List.length_map]
  refine ⟨rfl, fun n e is => ⟨_, by rw [List.getElem?_map, is]; rfl, rfl, fun makes => ?_, fun climb trim => ?_⟩⟩
  · have on : r.stepMode.makesDemands = true := by rcases makes with m | m <;> rw [m] <;> rfl
    dsimp only
    rw [if_pos on, ← correction_eq]
    exact Int.toNat_of_nonneg (le_max_left _ _)
  · have off : r.stepMode.makesDemands = false := by
      cases h : r.stepMode with
      | climb => exact absurd h climb
      | trim => exact absurd h trim
      | idle | hold | halt => rfl
    dsimp only
    rw [off]
    rfl

end Sys2Proof.Proofs
end


section
/-! PROOFS. The computation and the sweep-complete event (O58): the tests, the hand-offs and the result. -/

namespace Sys2Proof.Proofs

open Sys2Proof Sys2Proof.Machine Sys2Proof.Laws

variable {s v w t : State} {r : CycleResult} {mode : RiseMode}

/-! ## The hand-offs (R50, R58) -/

/-- What a computation leaves of the state `v` behind its tests. -/
def published (v : State) (mode : RiseMode) (r : CycleResult) : State :=
  ((v.withLevel { cycleNumber := r.cycleNumber, remainder := r.remainder
                  rateClock := if r.stepMode = .climb then some v.now else none, latest := some r }).withTransit
    { v.transit with
      dispatchResults := v.transit.dispatchResults ++ [r], placementResults := v.transit.placementResults ++ [r]
      markerResults := v.transit.markerResults ++ [r], feedResults := v.transit.feedResults ++ [r]
      spreadSwitches := if r.stepMode = mode then v.transit.spreadSwitches
        else v.transit.spreadSwitches ++ [{ leaves := mode, enters := r.stepMode }]
      rateModes := if r.stepMode = .climb then [] else v.transit.rateModes }).withJobs
    (v.jobs ++ [{ result := r, clock := v.pourClock, summary := none, marker := none }])

/-- The two tests of a computation, one behind the other (R44, R48). -/
def tested (s : State) (r : CycleResult) : State :=
  (s.evaluate .quorum (s.quorumActive r.n) none).evaluate .levelLimit (decide (r.spread > s.params.haltBand)) none

/-- The state in which a computation reads: the changes of mode on the way to the rate clock have been taken. -/
def computing (s : State) : State := (s.withTransit { s.transit with rateModes := [] }).withFree (s.free + 1)

theorem publish_handTests (s : State) (mode : RiseMode) (r : CycleResult) :
    (s.handTests mode r).publish r = published ((tested s r).haltFeed s.mode) mode r := by
  unfold State.handTests published tested
  dsimp only
  generalize ((s.evaluate .quorum _ none).evaluate .levelLimit _ none).haltFeed s.mode = v
  unfold State.publish
  by_cases same : r.stepMode = mode <;> by_cases climb : r.stepMode = .climb
  · rw [if_pos same, if_pos same, if_pos climb, if_pos climb, decide_eq_true climb]
    rfl
  · rw [if_pos same, if_pos same, if_neg climb, if_neg climb, decide_eq_false climb]
    rfl
  · rw [if_neg same, if_neg same, if_pos climb, if_pos climb, decide_eq_true climb]
    rfl
  · rw [if_neg same, if_neg same, if_neg climb, if_neg climb, decide_eq_false climb]
    rfl

/-- A computation: its tests, then the hand-offs of its result. -/
theorem compute_eq (s : State) : let r := s.cycleResult s.mode (s.transit.rateModes.foldl rateClockAfter s.level.rateClock)
    s.compute = published ((tested (computing s) r).haltFeed s.mode) s.mode r :=
  publish_handTests _ _ _

theorem tested_conditions (s : State) (r : CycleResult) :
    ((tested s r).condition .quorum).source = s.quorumActive r.n ∧
    ((tested s r).condition .levelLimit).source = decide (r.spread > s.params.haltBand) ∧
    ∀ c : Cond, c ≠ .quorum → c ≠ .levelLimit → (tested s r).condition c = s.condition c := by
  refine ⟨?_, evaluate_source _ _ _ _ rfl, fun c quorum limit => ?_⟩
  · exact (congrArg CondRecord.source (evaluate_other _ _ _ (by decide))).trans (evaluate_source _ _ _ _ rfl)
  · exact (evaluate_other _ _ _ limit).trans (evaluate_other _ _ _ quorum)

theorem quorumActive_iff (s : State) (n : Nat) : s.quorumActive n = true ↔
    (0 < n ∧ n < s.params.minJacks) ∨ (n = 0 ∧ ∃ i, (s.node i).enabled = true ∧ (s.node i).kind = .jack) := by
  simp [State.quorumActive, allSlots]

/-- What an evaluation leaves of the blocks that a computation reads again. -/
theorem evaluate_kept (s : State) (c : Cond) (a : Bool) (d : Option Nat) : let t := s.evaluate c a d
    Proofs.around t = Proofs.around s ∧ t.records = s.records ∧ t.walls = s.walls ∧ t.feed = s.feed ∧ t.free = s.free := by
  have frame := evaluate_frame s c a d
  dsimp only
  generalize s.evaluate c a d = t at *
  generalize t.conditions = x, t.mode = y, t.transit = z at frame
  subst frame
  exact ⟨rfl, rfl, rfl, rfl, rfl⟩

theorem tested_around (s : State) (r : CycleResult) : Proofs.around (tested s r) = Proofs.around s :=
  (evaluate_kept _ _ _ _).1.trans (evaluate_kept _ _ _ _).1

/-- The state of a state that an event takes into HALT, or does not. -/
theorem haltFeed_cases (w : State) (before : RiseMode) :
    (before ≠ .halt → w.mode = .halt → w.Halts (w.haltFeed before)) ∧
    (before = .halt ∨ w.mode ≠ .halt → w.haltFeed before = w) :=
  ⟨fun was is => haltFeed_halts w before is was, fun h => haltFeed_kept w before h.symm⟩

/-- The stages of a computation behind its result, and the conditions it leaves. -/
theorem compute_handed (s : State) (t : State) (is : t = s.compute) :
    let r := s.cycleResult s.mode (s.transit.rateModes.foldl rateClockAfter s.level.rateClock)
    t.level = { cycleNumber := r.cycleNumber, remainder := r.remainder
                rateClock := if r.stepMode = .climb then some s.now else none, latest := some r } ∧
    (let jacks := ∃ i, (s.node i).enabled = true ∧ (s.node i).kind = .jack
     let u := (s.withTransit { s.transit with rateModes := [] }).withFree (s.free + 1)
     ∃ quorum limit : Bool, (quorum = true ↔ (0 < r.n ∧ r.n < s.params.minJacks) ∨ (r.n = 0 ∧ jacks)) ∧
       (limit = true ↔ s.params.haltBand < r.spread) ∧
       (let w := (u.evaluate .quorum quorum none).evaluate .levelLimit limit none
        ∃ v : State, (s.mode ≠ .halt → w.mode = .halt → w.Halts v) ∧ (s.mode = .halt ∨ w.mode ≠ .halt → v = w) ∧
        t = ((v.withLevel t.level).withTransit { v.transit with
          dispatchResults := v.transit.dispatchResults ++ [r], placementResults := v.transit.placementResults ++ [r]
          markerResults := v.transit.markerResults ++ [r], feedResults := v.transit.feedResults ++ [r]
          spreadSwitches := if r.stepMode = s.mode then v.transit.spreadSwitches
            else v.transit.spreadSwitches ++ [{ leaves := s.mode, enters := r.stepMode }]
          rateModes := if r.stepMode = .climb then [] else v.transit.rateModes }).withJobs
            (s.jobs ++ [{ result := r, clock := s.pourClock, summary := none, marker := none }])) ∧
       (t.condition .quorum).source = quorum ∧ (t.condition .levelLimit).source = limit ∧
       (∀ c : Cond, c ≠ .quorum → c ≠ .levelLimit → c ≠ .feedJam ∨ s.mode = .halt ∨ t.mode ≠ .halt →
         t.condition c = s.condition c)) := by
  have eq := compute_eq s
  obtain ⟨halts, stays⟩ := haltFeed_cases (tested (computing s)
    (s.cycleResult s.mode (s.transit.rateModes.foldl rateClockAfter s.level.rateClock))) s.mode
  dsimp only at *
  rw [← is] at eq
  generalize s.cycleResult s.mode (s.transit.rateModes.foldl rateClockAfter s.level.rateClock) = r at *
  obtain ⟨quorum, limit, others⟩ := tested_conditions (computing s) r
  have middle : Proofs.around (tested (computing s) r) = Proofs.around s := tested_around _ _
  have wDef : tested (computing s) r = (((s.withTransit { s.transit with rateModes := [] }).withFree (s.free + 1)).evaluate
    .quorum (s.quorumActive r.n) none).evaluate .levelLimit (decide (r.spread > s.params.haltBand)) none := rfl
  generalize tested (computing s) r = w at *
  have vAround := (haltFeed_event w s.mode).around.trans middle
  have vConditions (c : Cond) (ne : c ≠ .feedJam) := haltFeed_condition w s.mode c ne
  have vMode := haltFeed_mode w s.mode
  generalize w.haltFeed s.mode = v at *
  have now : v.now = s.now := congrArg Around.now vAround
  have jobs : v.jobs = s.jobs := congrArg Around.jobs vAround
  have clock : v.pourClock = s.pourClock := congrArg Around.pourClock vAround
  have conditions (c : Cond) : t.condition c = v.condition c := by rw [eq]; rfl
  have tMode : t.mode = w.mode := by rw [eq]; exact vMode
  have level : t.level = { cycleNumber := r.cycleNumber, remainder := r.remainder
                           rateClock := if r.stepMode = .climb then some s.now else none, latest := some r } := by
    rw [eq, ← now]
    rfl
  refine ⟨level, s.quorumActive r.n, decide (r.spread > s.params.haltBand), quorumActive_iff s r.n, decide_eq_true_iff,
    ⟨v, ?_, ?_, ?_⟩, ?_, ?_, fun c notQuorum notLimit jam => ?_⟩
  · rw [← wDef]
    exact halts
  · rw [← wDef]
    exact stays
  · rw [level, ← now, ← jobs, ← clock]
    exact eq
  · rw [conditions, vConditions _ (by decide), quorum]
    rfl
  · rw [conditions, vConditions _ (by decide), limit]
    rfl
  · rw [conditions]
    rcases jam with other | was | still
    · exact (vConditions c other).trans (others c notQuorum notLimit)
    · rw [stays (.inl was)]
      exact others c notQuorum notLimit
    · rw [stays (.inr (tMode ▸ still))]
      exact others c notQuorum notLimit

/-- The corrected height, by the last report of the slot. -/
theorem correctedHeight_eq (s : State) (f : Slot → Int) (jack : ∀ i h a b, (s.record i).lastReport = some (.jack h a b) →
    f i = (h : Int) - (s.node i).zero.getD 0)
    (other : ∀ i, (∀ h a b, (s.record i).lastReport ≠ some (.jack h a b)) → f i = 0 - (s.node i).zero.getD 0) :
    s.correctedHeight = f := by
  funext i
  unfold State.correctedHeight NodeRecord.height
  cases report : (s.record i).lastReport with
  | none => exact (other i fun h a b is => nomatch report.symm.trans is).symm
  | some x =>
    cases x with
    | jack h a b => exact (jack i h a b report).symm
    | outlet | sensor => exact (other i fun h a b is => nomatch report.symm.trans is).symm

/-- Settles O58: stage by stage of the computation, then the tests and hand-offs; the sweep-complete event by its steps. -/
theorem computationsFollowTheHeights : Obligations.ComputationsFollowTheHeights := by
  refine ⟨fun s => ?_, fun s => ?_⟩
  · intro t corrected clock unsetBottom
    have heights : s.correctedHeight = corrected := by
      refine correctedHeight_eq s _ (fun i h a b is => ?_) fun i no => ?_
      · change (match (s.record i).lastReport with
          | some (.jack h _ _) => (h : Int)
          | _ => 0) - (s.node i).zero.getD 0 = _
        rw [is]
      · change (match (s.record i).lastReport with
          | some (.jack h _ _) => (h : Int)
          | _ => 0) - (s.node i).zero.getD 0 = _
        split
        · next h a b is => exact absurd is (no h a b)
        · rfl
    have bottoms : unsetBottom = fun k u => UnsetBottom (s.wall k) s.pourClock s.params.setAgeS u := rfl
    obtain ⟨slots, n, rise, empty, some_⟩ := cycleResult_errors s s.mode clock
    obtain ⟨climbs, other⟩ := cycleResult_requested s s.mode clock
    obtain ⟨fill, set⟩ := cycleResult_gates s s.mode clock
    have step := cycleResult_step s s.mode clock
    obtain ⟨demands, each⟩ := cycleResult_demands s s.mode clock
    obtain ⟨level, handed⟩ := compute_handed s t rfl
    clear_value corrected unsetBottom
    subst bottoms heights
    exact ⟨_, level, rfl, rfl, rfl, slots, n, rise, empty, some_, stepModeOf_cases _ _ _ _, climbs, other, fill, set, step,
      demands, each, handed⟩
  · have down : ringDownActive s.sweep.polled s.sweep.replies = true ↔ s.sweep.polled ≠ [] ∧ s.sweep.replies = [] := by
      simp [ringDownActive]
    obtain ⟨halts, stays⟩ := haltFeed_cases ((s.withSweep { s.sweep with running := false, cursor := none }).evaluate
      .ringDown (ringDownActive s.sweep.polled s.sweep.replies) none) s.mode
    exact ⟨_, down, _, halts, stays, rfl⟩

end Sys2Proof.Proofs
end


section
/-! PROOFS. SWEEP_START, settled (O36), by what a sweep-complete event with no reply leaves. -/

namespace Sys2Proof.Proofs

open Sys2Proof Sys2Proof.Machine Sys2Proof.Laws

variable {s u t g : State}

/-! ## What a sweep-complete event leaves -/

/-- What a commit leaves of the sweep, the console and the time. -/
theorem commitAtComplete_rest (s : State) : let t := s.commitAtComplete
    t.sweep = { s.sweep with dueAt := t.sweep.dueAt, replies := t.sweep.replies } ∧
    t.sweep.replies.Sublist s.sweep.replies ∧ t.console = { s.console with replies := t.console.replies } ∧ t.now = s.now ∧
    t.condition .cycleLate = s.condition .cycleLate := by
  cases pending : s.command.commitPending with
  | false =>
    have same : s.commitAtComplete = s := if_neg (Bool.eq_false_iff.1 pending)
    dsimp only
    rw [same]
    exact ⟨rfl, List.Sublist.refl _, rfl, rfl, rfl⟩
  | true =>
    obtain ⟨a, c, d, e, f, g, stages, ends⟩ := commitAtComplete_ends pending
    have k := stages.committed
    obtain ⟨sweep, sub, -⟩ := committed_sweep k ends
    have live := prospective_live s
    have console : g.console = s.console := (congrArg Around.console k.around).trans (congrArg Live.console live)
    refine ⟨sweep, sub, ?_, ends.now.trans ?_, ?_⟩
    · rw [ends.console, ← console]
      rfl
    · exact (congrArg Around.now k.around).trans (congrArg Live.now live)
    · rw [ends.parts.2.2.2.2.2.2.2.2.2.1, k.others _ (by decide)]

theorem evaluateMonitors_kept (s : State) : Proofs.around s.evaluateMonitors = Proofs.around s :=
  (evaluate_kept _ _ _ _).1.trans (evaluate_kept _ _ _ _).1

theorem published_rest (v : State) (mode : RiseMode) (r : CycleResult) : (published v mode r).sweep = v.sweep ∧
    (published v mode r).console = v.console ∧ ∀ c, (published v mode r).condition c = v.condition c :=
  ⟨rfl, rfl, fun _ => rfl⟩

/-- What a computation leaves of the sweep, the console and CYCLE_LATE. -/
theorem compute_rest (s : State) : let t := s.compute
    t.sweep = s.sweep ∧ t.console = s.console ∧ t.condition .cycleLate = s.condition .cycleLate := by
  have eq := compute_eq s
  dsimp only at *
  generalize s.cycleResult s.mode (s.transit.rateModes.foldl rateClockAfter s.level.rateClock) = r at *
  have wAround : Proofs.around (tested (computing s) r) = Proofs.around s := tested_around _ _
  have wLate : (tested (computing s) r).condition .cycleLate = s.condition .cycleLate :=
    (tested_conditions _ _).2.2 _ (by decide) (by decide)
  generalize tested (computing s) r = w at *
  have vAround := (haltFeed_event w s.mode).around.trans wAround
  have vLate := (haltFeed_condition w s.mode .cycleLate (by decide)).trans wLate
  generalize w.haltFeed s.mode = v at *
  obtain ⟨sweep, console, conditions⟩ := published_rest v s.mode r
  rw [eq, sweep, console, conditions]
  exact ⟨congrArg Around.sweep vAround, congrArg Around.console vAround, vLate⟩

/-- A computation with no reply has no participant. -/
theorem compute_empty (none : s.sweep.replies = []) : ∃ r, s.compute.level.latest = some r ∧ r.n = 0 ∧ r.s = 0 ∧
    r.hRef = .none ∧ r.binding = .none ∧ r.demands = [] ∧ r.time = s.now := by
  obtain ⟨level, -⟩ := compute_handed s _ rfl
  obtain ⟨slots, n, -, empty, -⟩ := cycleResult_errors s s.mode (s.transit.rateModes.foldl rateClockAfter s.level.rateClock)
  obtain ⟨demands, -⟩ := cycleResult_demands s s.mode (s.transit.rateModes.foldl rateClockAfter s.level.rateClock)
  have time : (s.cycleResult s.mode (s.transit.rateModes.foldl rateClockAfter s.level.rateClock)).time = s.now := rfl
  generalize s.cycleResult s.mode (s.transit.rateModes.foldl rateClockAfter s.level.rateClock) = r at *
  have noErrors : r.errors = [] := List.eq_nil_iff_forall_not_mem.2 fun e mem => by
    have reply := ((slots e.slot).1 (List.mem_map_of_mem mem)).2.2.2
    rw [none] at reply
    exact List.not_mem_nil reply
  have zero : r.n = 0 := by rw [n, noErrors]; rfl
  obtain ⟨ref, -, -, step, binding⟩ := empty zero
  refine ⟨r, by rw [level], zero, step, ref, binding, ?_, time⟩
  rw [← List.length_eq_zero_iff, demands, ← n, zero]

/-- A sweep that is complete with no reply. -/
theorem sweepComplete_empty (none : s.sweep.replies = []) : let t := s.sweepComplete
    t.sweep = { s.sweep with running := false, cursor := .none, dueAt := t.sweep.dueAt, replies := [] } ∧
    t.console = { s.console with replies := t.console.replies } ∧ t.condition .cycleLate = s.condition .cycleLate ∧
    ∃ r, t.level.latest = some r ∧ r.n = 0 ∧ r.s = 0 ∧ r.hRef = .none ∧ r.binding = .none ∧ r.demands = [] ∧
      r.time = s.now := by
  obtain ⟨w, is⟩ : ∃ w, w = ((s.withSweep { s.sweep with running := false, cursor := .none }).evaluate .ringDown
    (ringDownActive s.sweep.polled s.sweep.replies) .none) := ⟨_, rfl⟩
  have wAround : Proofs.around w = Proofs.around (s.withSweep { s.sweep with running := false, cursor := .none }) :=
    is ▸ (evaluate_kept _ _ _ _).1
  have wLate : w.condition .cycleLate = s.condition .cycleLate := is ▸ evaluate_other _ _ _ (by decide)
  have complete : s.sweepComplete = ((w.haltFeed s.mode).evaluateMonitors.commitAtComplete).compute := by rw [is]; rfl
  have xAround := (evaluateMonitors_kept (w.haltFeed s.mode)).trans ((haltFeed_event w s.mode).around.trans wAround)
  have xLate : (w.haltFeed s.mode).evaluateMonitors.condition .cycleLate = s.condition .cycleLate :=
    ((evaluateMonitors_cases _).2.2.2 _ (by decide) (by decide)).trans
      ((haltFeed_condition w s.mode _ (by decide)).trans wLate)
  generalize (w.haltFeed s.mode).evaluateMonitors = x at *
  have xSweep : x.sweep = { s.sweep with running := false, cursor := .none } := congrArg Around.sweep xAround
  have xConsole : x.console = s.console := congrArg Around.console xAround
  have xNow : x.now = s.now := congrArg Around.now xAround
  obtain ⟨ySweep, sub, yConsole, yNow, yLate⟩ := commitAtComplete_rest x
  generalize x.commitAtComplete = y at *
  have noReply : y.sweep.replies = [] := by
    rw [xSweep] at sub
    dsimp only at sub
    rw [none] at sub
    exact List.sublist_nil.1 sub
  obtain ⟨tSweep, tConsole, tLate⟩ := compute_rest y
  obtain ⟨r, latest, n, step, ref, binding, demands, time⟩ := compute_empty noReply
  dsimp only
  rw [complete]
  refine ⟨?_, ?_, tLate.trans (yLate.trans xLate), r, latest, n, step, ref, binding, demands, time.trans (yNow.trans xNow)⟩
  · rw [tSweep]
    rw [xSweep, noReply] at ySweep
    exact ySweep
  · rw [tConsole]
    rw [xConsole] at yConsole
    exact yConsole

/-! ## The start of a sweep (R12, R16, R184) -/

/-- The state in which a sweep has started and CYCLE_LATE is not yet evaluated. -/
def swept (s : State) : State :=
  let polled := allSlots.filter fun i => (s.node i).enabled
  (s.withSweep { running := true, dueAt := s.now + s.sweepPeriod, startedAt := some s.now, polled := polled,
                 cursor := polled.head?, replies := [] }).withConsole (s.console.refilled s.params.fwdBudget)

theorem startSweep_eq (s : State) : s.startSweep =
    let u := if s.startsLate then (swept s).raise .cycleLate none else swept s
    if (allSlots.filter fun i => (s.node i).enabled).isEmpty then u.sweepComplete else u := rfl

/-- A late start raises CYCLE_LATE, a NOTE-class condition, and nothing else. -/
theorem startsLate_cases (s v : State) : let u := if s.startsLate then v.raise .cycleLate none else v
    u = v.withConditions u.conditions ∧ (∀ c : Cond, c ≠ .cycleLate → u.condition c = v.condition c) ∧
    u.conditions.masked = v.conditions.masked ∧
    (s.now - s.sweep.dueAt ≤ s.params.cycleMs / 4 → u.conditions = v.conditions) ∧
    (s.params.cycleMs / 4 < s.now - s.sweep.dueAt → u.condition .cycleLate = { v.condition .cycleLate with
      state := .uncleared, source := false, count := min 255 ((v.condition .cycleLate).count + 1) }) := by
  have late : s.startsLate = decide (s.params.cycleMs / 4 < s.now - s.sweep.dueAt) := rfl
  by_cases h : s.params.cycleMs / 4 < s.now - s.sweep.dueAt
  · rw [late, decide_eq_true h]
    refine ⟨?_, fun c ne => raise_other _ _ ne, raise_masked _ _ _, fun no => absurd h (not_lt.2 no), fun _ => ?_⟩
    · rw [if_pos rfl, raise_note _ _ _ rfl]
      rfl
    · rw [if_pos rfl, raise_same, raised_eq]
      rfl
  · rw [late, decide_eq_false h]
    exact ⟨rfl, fun _ _ => rfl, rfl, fun _ => rfl, fun yes => absurd yes h⟩

/-- The console traffic with its budget filled again. -/
theorem refilled_eq (c : Console) (budget : Nat) : c.refilled budget = { c with
    budget := budget
    forwardHeld := (match c.forward with
      | [] => false
      | r :: _ => decide (budget < (envelopeFrame { address := 0, kind := 0x24, payload := r.payload }).length)) } := by
  unfold Console.refilled Console.judgeHead Console.headTooLong
  cases c.forward <;> rfl

/-- Settles O36: the order of service grants the start exactly when it may; what it sets; the empty polled set. -/
theorem sweepStarts : Obligations.SweepStarts := by
  refine ⟨fun s running barred => ?_, fun s running free still due idle none => ?_⟩
  · refine exec_no_grant running rfl fun g granted => ?_
    cases g with
    | sweepStart =>
      obtain ⟨ring, grant⟩ := nextGrant_sweep granted rfl
      rcases grantSweep_kind s _ grant with ⟨-, may⟩ | ⟨i, is, -⟩
      · obtain ⟨still, due, idle, none⟩ := may
        rcases barred with b | b | b | b | b
        · exact absurd ring b
        · exact nomatch b.symm.trans still
        · exact absurd due (not_le.2 b)
        · exact absurd idle b
        · exact absurd none b
      · exact nomatch is
    | _ => rfl
  · have ready : s.sweepReady = true := by
      unfold State.sweepReady
      rw [still, none]
      simp [due, idle]
    have grant : s.grantSweep = some .sweepStart := by
      unfold State.grantSweep
      rw [still, ready]
      rfl
    have taken : exec .sweepStart s = .next s.startSweep :=
      exec_grant State.startSweep running rfl (nextGrant_of_sweep free grant) rfl
    obtain ⟨frame, others, masked, early, late⟩ := startsLate_cases s (swept s)
    intro polled period held
    have begun : swept s = (s.withSweep { running := true, dueAt := s.now + period, startedAt := some s.now, polled := polled, cursor := polled.head?, replies := [] }).withConsole { s.console with
        budget := s.params.fwdBudget, forwardHeld := held } := by
      have sets : s.console.refilled s.params.fwdBudget = { s.console with
        budget := s.params.fwdBudget, forwardHeld := held } := refilled_eq _ _
      unfold swept
      rw [sets, sweepPeriod_eq]
    have started := startSweep_eq s
    dsimp only at *
    rw [started] at taken
    clear started
    generalize (if s.startsLate then (swept s).raise .cycleLate .none else swept s) = u at *
    rw [begun] at frame others masked early late
    have sweep : u.sweep = { running := true, dueAt := s.now + period, startedAt := some s.now, polled := polled,
                             cursor := polled.head?, replies := [] } := by rw [frame]; rfl
    have console : u.console = { s.console with budget := s.params.fwdBudget, forwardHeld := held } := by rw [frame]; rfl
    have now : u.now = s.now := by rw [frame]; rfl
    by_cases empty : polled = []
    · have completes : exec .sweepStart s = .next u.sweepComplete := by
        rw [taken]
        exact congrArg Host.Outcome.next (if_pos (List.isEmpty_iff.2 empty))
      obtain ⟨tSweep, tConsole, tLate, r, latest, n, step, ref, binding, demands, time⟩ :=
        sweepComplete_empty (s := u) (by rw [sweep])
      refine ⟨u, _, completes, frame, others, masked, early, late, tLate, ?_, ?_, ?_, ?_, fun some_ => absurd empty some_,
        fun _ => ⟨rfl, ?_, r, latest, n, step, ref, binding, demands, time.trans now⟩⟩
      · rw [tConsole, console]
      · rw [tConsole, console]
      · rw [tSweep, sweep]
      · rw [tSweep, sweep]
      · rw [tSweep]
    · have stays : exec .sweepStart s = .next u := by
        rw [taken]
        exact congrArg Host.Outcome.next (if_neg (mt List.isEmpty_iff.1 empty))
      refine ⟨u, u, stays, frame, others, masked, early, late, rfl, ?_, ?_, ?_, ?_, fun _ => rfl, fun none => absurd none empty⟩
      · rw [console]
      · rw [console]
      · rw [sweep]
      · rw [sweep]

end Sys2Proof.Proofs
end


section
/-! PROOFS. A condition raised a number of times, and the retirement of one segment (O50, O51). -/

namespace Sys2Proof.Proofs

open Sys2Proof Sys2Proof.Machine Sys2Proof.Laws

variable {s t u : State} {c : Cond} {n m : Nat} {d e : Option Nat}

/-! ## A MOMENTARY HOLD-class condition raised n times -/

/-- A MOMENTARY HOLD-class condition has been raised n times, the last time with detail d: its record, and the mode. -/
structure RaisedTimes (c : Cond) (s t : State) (n : Nat) (d : Option Nat) : Prop where
  now : t.now = s.now
  never : n = 0 → t.condition c = s.condition c
  record : 0 < n → t.condition c = { state := .uncleared, source := false, detail := d
                                     count := min 255 ((s.condition c).count + n) }
  moved : 0 < n ∧ (s.condition c).state = .idle ∧ (s.mode = .climb ∨ s.mode = .trim) →
    t.mode = .hold ∧ t.transit = s.transit.handed { old := s.mode, new := .hold, moment := s.now }
  stayed : ¬ (0 < n ∧ (s.condition c).state = .idle ∧ (s.mode = .climb ∨ s.mode = .trim)) →
    t.mode = s.mode ∧ t.transit = s.transit

theorem RaisedTimes.of_eq (now : t.now = s.now) (condition : t.condition c = s.condition c) (mode : t.mode = s.mode)
    (transit : t.transit = s.transit) : RaisedTimes c s t 0 d :=
  ⟨now, fun _ => condition, fun h => absurd h (Nat.lt_irrefl 0), fun h => absurd h.1 (Nat.lt_irrefl 0),
    fun _ => ⟨mode, transit⟩⟩

theorem RaisedTimes.refl (s : State) : RaisedTimes c s s 0 d := .of_eq rfl rfl rfl rfl

/-- Raised n times, then m times more: the detail is that of the last raise. -/
theorem RaisedTimes.trans (h : RaisedTimes c s t n d) (k : RaisedTimes c t u m e) :
    RaisedTimes c s u (n + m) (if m = 0 then d else e) := by
  refine ⟨k.now.trans h.now, fun none => ?_, fun some_ => ?_, fun ⟨some_, idle, mode⟩ => ?_, fun not => ?_⟩
  · rw [k.never (by omega), h.never (by omega)]
  · by_cases later : m = 0
    · rw [k.never later, h.record (by omega), if_pos later, later]
      rfl
    · rw [k.record (by omega), if_neg later]
      have count : (t.condition c).count = min 255 ((s.condition c).count + n) ∨
          n = 0 ∧ (t.condition c).count = (s.condition c).count := by
        by_cases first : n = 0
        · exact .inr ⟨first, by rw [h.never first]⟩
        · exact .inl (by rw [h.record (by omega)])
      congr 1
      omega
  · by_cases first : n = 0
    · obtain ⟨sameMode, sameTransit⟩ := h.stayed fun ⟨x, _⟩ => absurd first x.ne'
      have moved := k.moved ⟨by omega, by rw [h.never first, idle], sameMode ▸ mode⟩
      rw [sameMode, sameTransit, h.now] at moved
      exact moved
    · obtain ⟨held, handed⟩ := h.moved ⟨by omega, idle, mode⟩
      obtain ⟨sameMode, sameTransit⟩ := k.stayed fun ⟨_, _, rising⟩ => by
        rw [held] at rising
        rcases rising with r | r <;> exact nomatch r
      exact ⟨sameMode.trans held, sameTransit.trans handed⟩
  · obtain ⟨sameMode, sameTransit⟩ := h.stayed fun ⟨x, y⟩ => not ⟨by omega, y⟩
    obtain ⟨sameMode', sameTransit'⟩ := k.stayed fun ⟨x, idle, rising⟩ => by
      by_cases first : n = 0
      · exact not ⟨by omega, (h.never first) ▸ idle, sameMode ▸ rising⟩
      · rw [h.record (by omega)] at idle
        exact nomatch idle
    exact ⟨sameMode'.trans sameMode, sameTransit'.trans sameTransit⟩

/-- One raise. -/
theorem raise_raisedTimes (s : State) (d : Option Nat) (cls : c.cls = .hold) (kind : c.kind ≠ .level)
    (detail : c.hasDetail = true) : RaisedTimes c s (s.raise c d) 1 d := by
  obtain ⟨-, holds, stays⟩ := raise_cases s c d
  have now : (s.raise c d).now = s.now := by rw [raise_frame]; rfl
  refine ⟨now, nofun, fun _ => ?_, fun ⟨_, idle, mode⟩ => holds ⟨idle, cls, mode⟩, fun not => ?_⟩
  · rw [raise_same, raised_eq, if_neg kind, if_pos detail, decide_eq_false kind]
  · exact stays (fun ⟨_, halt, _⟩ => nomatch cls.symm.trans halt) fun ⟨idle, _, mode⟩ => not ⟨Nat.one_pos, idle, mode⟩

theorem raiseGreen_raisedTimes (s : State) (k : SegmentIx) (n : Nat) :
    RaisedTimes .greenExit s (s.raiseGreen k n) n (some k.val) := by
  induction n with
  | zero => exact .refl s
  | succ n ih => exact ih.trans (raise_raisedTimes _ _ rfl (by decide) rfl)

/-! ## One segment (R73, R74) -/

/-- The records that a segment retires at a bottom, and the records it has left. -/
def goneAt (w : SegmentLive) (b : Int) : List Layer := w.queue.takeWhile fun l => decide ((l.top : Int) ≤ b)

def leftAt (w : SegmentLive) (b : Int) : List Layer := w.queue.drop (goneAt w b).length

/-- A segment after its retirement at a bottom, and the number of raises it makes. -/
def retiredWall (w : SegmentLive) (b : Int) (clock setAge : Nat) : SegmentLive :=
  let r := retire b clock setAge w.base w.queue
  { w with base := r.1, queue := flagGreen b clock setAge r.1 r.2.1 }

def greenRaises (w : SegmentLive) (b : Int) (clock setAge : Nat) : Nat :=
  let r := retire b clock setAge w.base w.queue
  r.2.2 + countGreen b clock setAge r.1 r.2.1

theorem retire_left (w : SegmentLive) (b : Int) (clock setAge : Nat) :
    (retire b clock setAge w.base w.queue).2.1 = leftAt w b := by
  rw [retire_queue]
  have split := List.takeWhile_append_dropWhile (p := fun l : Layer => decide ((l.top : Int) ≤ b)) (l := w.queue)
  exact (List.drop_left (l₁ := goneAt w b)).symm.trans (congrArg (List.drop (goneAt w b).length) split)

theorem retire_count (b : Int) (clock setAge base : Nat) (queue : List Layer) :
    (retire b clock setAge base queue).2.2 =
      (queue.takeWhile fun l => decide ((l.top : Int) ≤ b)).countP fun l => l.unset clock setAge && !l.greenExited := by
  induction queue generalizing base with
  | nil => rfl
  | cons l ls ih =>
    unfold retire
    by_cases h : (l.top : Int) ≤ b
    · rw [if_pos h, List.takeWhile_cons_of_pos (p := fun l : Layer => decide ((l.top : Int) ≤ b)) (decide_eq_true h),
        List.countP_cons, ← ih l.top]
    · rw [if_neg h, List.takeWhile_cons_of_neg (p := fun l : Layer => decide ((l.top : Int) ≤ b))
        (by rw [decide_eq_false h]; exact Bool.false_ne_true)]
      rfl

/-- The bottom of the record at a place of a queue: the top of the record before it, or the base. -/
theorem withBottoms_getElem? {l : Layer} (queue : List Layer) : ∀ (base n : Nat), queue[n]? = some l →
    (withBottoms base queue)[n]? = some ((((queue.take n).getLast?).map Layer.top).getD base, l) := by
  induction queue with
  | nil => exact fun _ _ h => nomatch h
  | cons x xs ih =>
    intro base n h
    cases n with
    | zero =>
      rw [List.getElem?_cons_zero] at h
      rw [withBottoms, List.getElem?_cons_zero, Option.some_inj.1 h]
      rfl
    | succ n =>
      rw [List.getElem?_cons_succ] at h
      rw [withBottoms, List.getElem?_cons_succ, ih x.top n h, List.take_succ_cons, List.getLast?_cons]
      cases (xs.take n).getLast? <;> rfl

theorem flagGreen_getElem? {l : Layer} (b : Int) (clock setAge base n : Nat) (queue : List Layer)
    (h : queue[n]? = some l) : (flagGreen b clock setAge base queue)[n]? = some { l with
      greenExited := l.greenExited || (decide (clock - l.placedAt < setAge) &&
        decide (((((queue.take n).getLast?).map Layer.top).getD base : Int) < b)) } := by
  unfold flagGreen
  rw [List.getElem?_map, withBottoms_getElem? queue base n h, Option.map_some, Option.some_inj]
  dsimp only
  generalize (((queue.take n).getLast?).map Layer.top).getD base = bottom
  obtain ⟨top, placed, litres, source, descriptor, flag⟩ := l
  unfold foundGreen Layer.unset Layer.flagged
  cases flag with
  | true => rw [Bool.not_true, Bool.and_false, Bool.false_and]; rfl
  | false =>
    dsimp only
    cases decide (clock - placed < setAge) <;> cases decide ((bottom : Int) < b) <;> rfl

theorem flagGreen_length (b : Int) (clock setAge base : Nat) (queue : List Layer) :
    (flagGreen b clock setAge base queue).length = queue.length := by
  have h := flagGreen_map (fun _ => ()) (fun _ => rfl) b clock setAge base queue
  exact (List.length_map _).symm.trans ((congrArg List.length h).trans (List.length_map _))

/-- Every flag a retirement sets is counted once. -/
theorem countGreen_eq (b : Int) (clock setAge : Nat) (queue : List Layer) : ∀ base : Nat,
    (flagGreen b clock setAge base queue).countP Layer.greenExited =
      queue.countP Layer.greenExited + countGreen b clock setAge base queue := by
  induction queue with
  | nil => exact fun _ => rfl
  | cons l ls ih =>
    intro base
    unfold flagGreen countGreen withBottoms
    rw [List.map_cons, List.countP_cons, List.countP_cons, List.countP_cons]
    have rest := ih l.top
    unfold flagGreen countGreen at rest
    rw [rest]
    dsimp only
    cases green : foundGreen b clock setAge base l with
    | false =>
      rw [if_neg Bool.false_ne_true, if_neg Bool.false_ne_true]
      omega
    | true =>
      have flag : l.greenExited = false := by
        unfold foundGreen at green
        cases flag : l.greenExited with
        | false => rfl
        | true => rw [flag, Bool.not_true, Bool.and_false, Bool.false_and] at green; exact green.symm
      rw [if_pos rfl, if_pos rfl, if_pos (show l.flagged.greenExited = true from rfl), flag, if_neg Bool.false_ne_true]
      omega

end Sys2Proof.Proofs
end


section
/-! PROOFS. A cycle result at the Placement Store, settled (O50): every segment retires, the raises added up. -/

namespace Sys2Proof.Proofs

open Sys2Proof Sys2Proof.Machine Sys2Proof.Laws

variable {s t u : State} {b : Int} {k : SegmentIx}

/-! ## One segment after the other (R73 to R75) -/

/-- The raises that a segment makes at a bottom. -/
def segmentRaises (s : State) (b : Int) (k : SegmentIx) : Nat :=
  if (s.segment k).enabled then greenRaises (s.wall k) b s.pourClock s.params.setAgeS else 0

/-- A segment's live state after its retirement, or as it was where it is not enabled. -/
def segmentRetired (s : State) (b : Int) (k : SegmentIx) : SegmentLive :=
  if (s.segment k).enabled then retiredWall (s.wall k) b s.pourClock s.params.setAgeS else s.wall k

theorem RaisedTimes.of_setWall {c : Cond} {w : SegmentLive} {n : Nat} {d : Option Nat}
    (h : RaisedTimes c (s.setWall k w) t n d) : RaisedTimes c s t n d :=
  ⟨h.now, h.never, h.record, h.moved, h.stayed⟩

theorem retireSegment_cases (b : Int) (s : State) (k : SegmentIx) : let t := s.retireSegment b k
    t.wall k = segmentRetired s b k ∧ RaisedTimes .greenExit s t (segmentRaises s b k) (some k.val) ∧
    (segmentRaises s b k = 0 → t.conditions = s.conditions) ∧ t.conditions.masked = s.conditions.masked := by
  unfold State.retireSegment segmentRetired segmentRaises
  dsimp only
  cases on : (s.segment k).enabled with
  | false => exact ⟨rfl, .refl s, fun _ => rfl, rfl⟩
  | true =>
    rw [if_pos rfl, if_pos rfl, if_pos rfl]
    refine ⟨(wall_congr (raiseGreen_walls _ _ _) _).trans (wall_setWall_same _ _ _), ?_, fun none => ?_, raiseGreen_masked _ _ _⟩
    · exact (raiseGreen_raisedTimes (s.setWall k _) k _).of_setWall
    · unfold greenRaises at none
      dsimp only at none
      rw [none]
      rfl

/-- Segments other than the retired ones read on as before. -/
theorem segmentReads_congr (frame : WallFrame s t) (same : t.wall k = s.wall k) :
    segmentRaises t b k = segmentRaises s b k ∧ segmentRetired t b k = segmentRetired s b k := by
  have reads : t.segment k = s.segment k ∧ t.pourClock = s.pourClock ∧ t.params = s.params := by
    unfold WallFrame at frame
    generalize t.walls = x, t.conditions = y, t.mode = m, t.transit = r at frame
    subst frame
    exact ⟨rfl, rfl, rfl⟩
  unfold segmentRaises segmentRetired
  rw [reads.1, reads.2.1, reads.2.2, same]
  exact ⟨rfl, rfl⟩

/-- What the segments of an ascending list leave that retire one after the other. -/
theorem retireSegments_cases (b : Int) (ks : List SegmentIx) : ∀ s : State, ks.Pairwise (· < ·) →
    let t := ks.foldl (State.retireSegment b) s
    (∀ k ∈ ks, t.wall k = segmentRetired s b k) ∧ (∀ k, k ∉ ks → t.wall k = s.wall k) ∧
    t.conditions.masked = s.conditions.masked ∧
    ((ks.map (segmentRaises s b)).sum = 0 → t.conditions = s.conditions) ∧
    ∃ d, RaisedTimes .greenExit s t (ks.map (segmentRaises s b)).sum d ∧
      ∀ k ∈ ks, 0 < segmentRaises s b k → (∀ j ∈ ks, k < j → segmentRaises s b j = 0) → d = some k.val := by
  induction ks with
  | nil => exact fun s _ => ⟨nofun, fun _ _ => rfl, rfl, fun _ => rfl, none, .refl s, nofun⟩
  | cons k ks ih =>
    intro s sorted
    obtain ⟨below, sorted⟩ := List.pairwise_cons.1 sorted
    obtain ⟨own, raised, quiet, masked⟩ := retireSegment_cases b s k
    have frame := retireSegment_frame b s k
    have others (j : SegmentIx) (ne : j ≠ k) := retireSegment_wall_other b s ne
    obtain ⟨walls, away, maskedRest, quietRest, d, raisedRest, last⟩ := ih (s.retireSegment b k) sorted
    dsimp only at *
    rw [List.foldl_cons]
    generalize s.retireSegment b k = v at *
    have reads (j : SegmentIx) (mem : j ∈ ks) := segmentReads_congr (b := b) frame (others j (below j mem).ne')
    have same : ks.map (segmentRaises v b) = ks.map (segmentRaises s b) := List.map_congr_left fun j mem => (reads j mem).1
    rw [same] at quietRest raisedRest
    rw [List.map_cons, List.sum_cons]
    refine ⟨fun j mem => ?_, fun j out => ?_, maskedRest.trans masked, fun zero => ?_, _, raised.trans raisedRest,
      fun j mem some_ none => ?_⟩
    · rcases List.mem_cons.1 mem with rfl | later
      · exact (away j fun h => (below j h).false).trans own
      · exact (walls j later).trans (reads j later).2
    · obtain ⟨ne, later⟩ := not_or.1 (mt List.mem_cons.2 out)
      exact (away j later).trans (others j ne)
    · rw [quietRest (by omega), quiet (by omega)]
    · rcases List.mem_cons.1 mem with rfl | later
      · have rest : (ks.map (segmentRaises s b)).sum = 0 := List.sum_eq_zero fun x hx => by
          obtain ⟨i, hi, rfl⟩ := List.mem_map.1 hx
          exact none i (List.mem_cons_of_mem _ hi) (below i hi)
        rw [if_pos rest]
      · have rest : (ks.map (segmentRaises s b)).sum ≠ 0 := fun zero =>
          some_.ne' (List.sum_eq_zero_iff.1 zero _ (List.mem_map_of_mem later))
        rw [if_neg rest]
        refine last j later ((reads j later).1 ▸ some_) fun i hi lt => ?_
        rw [(reads i hi).1]
        exact none i (List.mem_cons_of_mem _ hi) lt

/-! ## The whole wall -/

/-- The raises that a segment makes at a cycle result. -/
def resultRaises (s : State) (r : CycleResult) (k : SegmentIx) : Nat :=
  match r.bottom with
  | some b => segmentRaises s b k
  | none => 0

/-- The same, counted by the records that have gone and by the flags that are new in the state `t` behind it. -/
def countedRaises (s t : State) (r : CycleResult) (k : SegmentIx) : Nat :=
  match r.bottom with
  | some b => if (s.segment k).enabled then
      (goneAt (s.wall k) b).countP (fun l => decide (s.pourClock - l.placedAt < s.params.setAgeS) && !l.greenExited) +
        ((t.wall k).queue.countP Layer.greenExited - (leftAt (s.wall k) b).countP Layer.greenExited) else 0
  | none => 0

/-- The state `t` that a cycle result leaves of `s` at the Placement Store, `transit` being what is then under way, and the
raises of each segment. -/
def Retires (raises : SegmentIx → Nat) (s t : State) (r : CycleResult) (transit : Transit) : Prop :=
  let n := (allSegments.map raises).sum
  let moved := 0 < n ∧ (s.condition .greenExit).state = .idle ∧ (s.mode = .climb ∨ s.mode = .trim)
  (∀ c : Cond, c ≠ .greenExit → t.condition c = s.condition c) ∧ t.conditions.masked = s.conditions.masked ∧
  (r.bottom = none → t.walls = s.walls) ∧ (n = 0 → t.conditions = s.conditions) ∧
  (∀ k, 0 < raises k → (∀ j, k < j → raises j = 0) → t.condition .greenExit = {
    state := .uncleared, source := false, detail := some k.val
    count := min 255 ((s.condition .greenExit).count + n) }) ∧
  (moved → t.mode = .hold ∧ t.transit = transit.handed { old := s.mode, new := .hold, moment := s.now }) ∧
  (¬ moved → t.mode = s.mode ∧ t.transit = transit) ∧
  (∀ b k, r.bottom = some b → t.wall k = segmentRetired s b k)

theorem retireAll_retires (s : State) (r : CycleResult) : Retires (resultRaises s r) s (s.retireAll r) r s.transit := by
  have others {c : Cond} (h : c ≠ .greenExit) := retireAll_other s r h
  unfold Retires resultRaises
  unfold State.retireAll at *
  cases bottom : r.bottom with
  | none =>
    have zero : (allSegments.map fun _ : SegmentIx => 0).sum = 0 := List.sum_eq_zero fun x hx => by
      obtain ⟨_, -, rfl⟩ := List.mem_map.1 hx
      rfl
    dsimp only
    rw [zero]
    exact ⟨fun _ _ => rfl, rfl, fun _ => rfl, fun _ => rfl, fun _ h => absurd h (Nat.lt_irrefl 0),
      fun h => absurd h.1 (Nat.lt_irrefl 0), fun _ => ⟨rfl, rfl⟩, fun _ _ h => nomatch h⟩
  | some b =>
    rw [bottom] at others
    dsimp only at *
    obtain ⟨walls, -, masked, quiet, d, raised, last⟩ := retireSegments_cases b allSegments s (List.pairwise_lt_finRange 32)
    refine ⟨fun c ne => others ne, masked, nofun, quiet, fun k some_ none => ?_, raised.moved, raised.stayed, fun b' k is => ?_⟩
    · have positive : 0 < (allSegments.map (segmentRaises s b)).sum := Nat.pos_of_ne_zero fun zero =>
        some_.ne' (List.sum_eq_zero_iff.1 zero _ (List.mem_map_of_mem (List.mem_finRange k)))
      rw [raised.record positive, last k (List.mem_finRange k) some_ fun j _ => none j]
    · cases is
      exact walls k (List.mem_finRange k)

/-- The raises of a segment, counted by the records that have gone and the flags that are new. -/
theorem segmentRaises_eq (on : (s.segment k).enabled = true) : segmentRaises s b k =
    (goneAt (s.wall k) b).countP (fun l => decide (s.pourClock - l.placedAt < s.params.setAgeS) && !l.greenExited) +
      ((segmentRetired s b k).queue.countP Layer.greenExited - (leftAt (s.wall k) b).countP Layer.greenExited) := by
  unfold segmentRaises segmentRetired retiredWall greenRaises
  rw [if_pos on, if_pos on]
  dsimp only
  rw [retire_left, countGreen_eq, retire_count, Nat.add_sub_cancel_left]
  rfl

/-- A segment after its retirement: what is left of the queue, and its flags. -/
theorem segmentRetired_cases (on : (s.segment k).enabled = true) : let w := segmentRetired s b k
    w = { s.wall k with base := w.base, queue := w.queue } ∧
    w.base = (((goneAt (s.wall k) b).getLast?).map Layer.top).getD (s.wall k).base ∧
    w.queue.length = (leftAt (s.wall k) b).length ∧
    (∀ (n : Nat) (l : Layer), (leftAt (s.wall k) b)[n]? = some l → w.queue[n]? = some { l with
      greenExited := l.greenExited || (decide (s.pourClock - l.placedAt < s.params.setAgeS) &&
        decide ((((((leftAt (s.wall k) b).take n).getLast?).map Layer.top).getD w.base : Int) < b)) }) := by
  have base := retire_base b s.pourClock s.params.setAgeS (s.wall k).base (s.wall k).queue
  have is : segmentRetired s b k = retiredWall (s.wall k) b s.pourClock s.params.setAgeS := if_pos on
  dsimp only
  rw [is]
  unfold retiredWall
  dsimp only
  rw [retire_left]
  exact ⟨rfl, base, flagGreen_length _ _ _ _ _, fun n l at_ => flagGreen_getElem? b _ _ _ n _ at_⟩

theorem countedRaises_eq {raises : SegmentIx → Nat} {r : CycleResult} {transit : Transit} (h : Retires raises s t r transit) :
    countedRaises s t r = resultRaises s r := by
  funext k
  unfold countedRaises resultRaises
  obtain ⟨-, -, -, -, -, -, -, walls⟩ := h
  cases bottom : r.bottom with
  | none => rfl
  | some b =>
    dsimp only
    rw [walls b k bottom]
    cases on : (s.segment k).enabled with
    | true =>
      rw [if_pos rfl]
      exact (segmentRaises_eq on).symm
    | false =>
      rw [if_neg Bool.false_ne_true]
      exact (if_neg (Bool.eq_false_iff.1 on)).symm

theorem wallFrame_jobs (frame : WallFrame s t) : t.jobs = s.jobs ∧ t.placementSeen = s.placementSeen := by
  unfold WallFrame at frame
  generalize t.walls = x, t.conditions = y, t.mode = m, t.transit = r at frame
  subst frame
  exact ⟨rfl, rfl⟩

/-- The Placement Store reads the same whatever is under way to the blocks, and whichever result it has seen. -/
theorem Retires.of_transit {x : Transit} {r : CycleResult}
    (h : Retires (resultRaises (s.withTransit x) r) (s.withTransit x) t r x) : Retires (resultRaises s r) s t r x := by
  have raises : resultRaises (s.withTransit x) r = resultRaises s r := rfl
  rw [raises] at h
  obtain ⟨others, masked, still, quiet, record, moved, stayed, walls⟩ := h
  exact ⟨others, masked, still, quiet, record, moved, stayed, walls⟩

theorem Retires.of_seen {x : Transit} {o : Option CycleResult} {r : CycleResult}
    (h : Retires (resultRaises (s.withPlacementSeen o) r) (s.withPlacementSeen o) t r x) :
    Retires (resultRaises s r) s t r x := by
  have raises : resultRaises (s.withPlacementSeen o) r = resultRaises s r := rfl
  rw [raises] at h
  obtain ⟨others, masked, still, quiet, record, moved, stayed, walls⟩ := h
  exact ⟨others, masked, still, quiet, record, moved, stayed, walls⟩

theorem Retires.withJobs {x : Transit} {f : SegmentIx → Nat} {r : CycleResult} {js : List BeaconJob}
    (h : Retires f s t r x) : Retires f s (t.withJobs js) r x := by
  obtain ⟨others, masked, still, quiet, record, moved, stayed, walls⟩ := h
  exact ⟨others, masked, still, quiet, record, moved, stayed, walls⟩

/-- Settles O50: the segments retire one after the other, and the summary goes to the oldest beacon that waits. -/
theorem placementResultRetires : Obligations.PlacementResultRetires := by
  unfold Obligations.PlacementResultRetires
  intro acts
  have settled (s t : State) (r : CycleResult) (transit : Transit)
      (h : Retires (resultRaises s r) s t r transit) : acts s t r transit := by
    rw [← countedRaises_eq h] at h
    obtain ⟨others, masked, still, quiet, record, moved, stayed, walls⟩ := h
    refine ⟨others, masked, still, quiet, record, moved, stayed, fun k off => ?_, fun b k is on => ?_⟩
    · cases bottom : r.bottom with
      | none => exact wall_congr (still bottom) k
      | some b => exact (walls b k bottom).trans (if_neg (Bool.eq_false_iff.1 off))
    · rw [walls b k is]
      exact segmentRetired_cases on
  refine ⟨fun s r rest running none next => ?_, fun s r rest running next => ?_⟩
  · have taken : exec .placementResultArrival s = .next
        ((s.withTransit { s.transit with placementResults := rest }).placementResult r) := by
      refine (exec_event running State.placementResultArrival rfl).trans (congrArg Host.Outcome.next ?_)
      unfold State.placementResultArrival
      rw [none, next]
    obtain ⟨v, frame, retires, is⟩ : ∃ v, WallFrame ((s.withTransit { s.transit with placementResults := rest
        }).withPlacementSeen (some r)) v ∧ Retires (resultRaises s r) s v r { s.transit with placementResults := rest } ∧
        (s.withTransit { s.transit with placementResults := rest }).placementResult r =
          v.withJobs (handSummary v.segmentSummary v.jobs) :=
      ⟨_, retireAll_frame _ _, (retireAll_retires _ _).of_seen.of_transit, rfl⟩
    obtain ⟨jobs, seen⟩ := wallFrame_jobs frame
    replace jobs : v.jobs = s.jobs := jobs
    rw [is, jobs] at taken
    refine ⟨_, taken, ?_, settled _ _ _ _ retires.withJobs, ?_, v.segmentSummary, segmentSummary_summarises v,
      fun before j after split full waits => ?_, fun full => handSummary_none _ _ full⟩
    · exact seen
    · generalize handSummary v.segmentSummary s.jobs = js
      unfold WallFrame at frame
      generalize v.walls = x, v.conditions = y, v.mode = m, v.transit = z at frame
      subst frame
      rfl
    · show handSummary v.segmentSummary s.jobs = _
      rw [split]
      exact handSummary_oldest _ _ _ _ full waits
  · have taken : exec .placementResultArrival s = .next ((s.withTransit { s.transit with retirements := rest }).retireAll r) := by
      refine (exec_event running State.placementResultArrival rfl).trans (congrArg Host.Outcome.next ?_)
      unfold State.placementResultArrival
      rw [next]
    obtain ⟨v, frame, retires, is⟩ : ∃ v, WallFrame (s.withTransit { s.transit with retirements := rest }) v ∧
        Retires (resultRaises s r) s v r { s.transit with retirements := rest } ∧
        (s.withTransit { s.transit with retirements := rest }).retireAll r = v :=
      ⟨_, retireAll_frame _ _, (retireAll_retires _ _).of_transit, rfl⟩
    rw [is] at taken
    refine ⟨v, taken, settled _ _ _ _ retires, ?_⟩
    unfold WallFrame at frame
    generalize v.walls = x, v.conditions = y, v.mode = m, v.transit = z at frame
    subst frame
    rfl

end Sys2Proof.Proofs
end


section
/-! PROOFS. Markers at a cycle result (O51), part 1: the firing order, and what one marker after another does. -/

namespace Sys2Proof.Proofs

open Sys2Proof Sys2Proof.Machine Sys2Proof.Laws

variable {s t u : State}

/-! ## The firing order (R151) -/

/-- A marker fires before another: the lower height first, then the lower index. -/
def FiresBefore (s : State) (a b : MarkerIx) : Prop :=
  (s.marker a).height < (s.marker b).height ∨ ((s.marker a).height = (s.marker b).height ∧ a < b)

theorem mem_placeMarker {i j : MarkerIx} (ms : List MarkerIx) : j ∈ s.placeMarker i ms ↔ j = i ∨ j ∈ ms := by
  induction ms with
  | nil => exact List.mem_cons
  | cons x xs ih =>
    unfold State.placeMarker
    split
    · exact List.mem_cons
    · rw [List.mem_cons, ih, List.mem_cons]
      tauto

/-- A marker of higher index than those placed is placed in the firing order. -/
theorem placeMarker_sorted {i : MarkerIx} (ms : List MarkerIx) : ms.Pairwise (FiresBefore s) → (∀ j ∈ ms, j < i) →
    (s.placeMarker i ms).Pairwise (FiresBefore s) := by
  induction ms with
  | nil => exact fun _ _ => List.pairwise_singleton _ _
  | cons x xs ih =>
    intro sorted lower
    obtain ⟨first, rest⟩ := List.pairwise_cons.1 sorted
    unfold State.placeMarker
    split
    · next less =>
      refine List.pairwise_cons.2 ⟨fun j mem => .inl ?_, sorted⟩
      rcases List.mem_cons.1 mem with rfl | later
      · exact less
      · rcases first j later with lt | ⟨eq, -⟩
        · exact less.trans lt
        · exact eq ▸ less
    · next least =>
      refine List.pairwise_cons.2 ⟨fun j mem => ?_, ih rest fun j later => lower j (List.mem_cons_of_mem _ later)⟩
      rcases (mem_placeMarker xs).1 mem with rfl | later
      · rcases Nat.lt_or_eq_of_le (not_lt.1 least) with lt | eq
        · exact .inl lt
        · exact .inr ⟨eq, lower x List.mem_cons_self⟩
      · exact first j later

theorem firingOrder_sorted (ms : List MarkerIx) (ascending : ms.Pairwise (· < ·)) :
    (s.firingOrder ms).Pairwise (FiresBefore s) ∧ ∀ m, m ∈ s.firingOrder ms ↔ m ∈ ms := by
  have placed (ms : List MarkerIx) : ∀ acc : List MarkerIx, acc.Pairwise (FiresBefore s) → ms.Pairwise (· < ·) →
      (∀ a ∈ acc, ∀ m ∈ ms, a < m) → (ms.foldl (fun sorted i => s.placeMarker i sorted) acc).Pairwise (FiresBefore s) ∧
        ∀ m, m ∈ ms.foldl (fun sorted i => s.placeMarker i sorted) acc ↔ m ∈ acc ∨ m ∈ ms := by
    induction ms with
    | nil => exact fun acc sorted _ _ => ⟨sorted, fun m => (or_iff_left List.not_mem_nil).symm⟩
    | cons x xs ih =>
      intro acc sorted ascending below
      obtain ⟨first, rest⟩ := List.pairwise_cons.1 ascending
      obtain ⟨order, mem⟩ := ih (s.placeMarker x acc)
        (placeMarker_sorted acc sorted fun j h => below j h x List.mem_cons_self) rest fun a ha m hm => by
          rcases (mem_placeMarker acc).1 ha with rfl | early
          · exact first m hm
          · exact below a early m (List.mem_cons_of_mem _ hm)
      refine ⟨order, fun m => ?_⟩
      rw [List.foldl_cons, mem, mem_placeMarker, List.mem_cons]
      tauto
  obtain ⟨order, mem⟩ := placed ms [] .nil ascending fun a h => nomatch h
  exact ⟨order, fun m => (mem m).trans (or_iff_right List.not_mem_nil)⟩

theorem crosses_iff {r : CycleResult} {m : MarkerIx} : s.crosses r m = true ↔ ∃ p h, r.previousHRef = some p ∧
    r.hRef = some h ∧ (s.marker m).enabled = true ∧ s.markers.spent.read m = false ∧ p < ((s.marker m).height : Int) ∧
    ((s.marker m).height : Int) ≤ h := by
  unfold State.crosses
  cases r.previousHRef <;> cases r.hRef <;> simp [and_assoc]

/-! ## One marker after another (R151 to R154) -/

/-- The action of a marker as HOLD, RATE and FEED_STOP. -/
def rateOf (s : State) (m : MarkerIx) : Option Nat :=
  match (s.marker m).action with
  | .rate v => some v
  | _ => none

def stopOf (s : State) (m : MarkerIx) : Option Channel :=
  match (s.marker m).action with
  | .feedStop c => some c
  | _ => none

def holds (s : State) (m : MarkerIx) : Bool := decide ((s.marker m).action = .hold)

/-- The mode in which a marker behind these is evaluated. -/
def modeBehind (s : State) (ms : List MarkerIx) : RiseMode :=
  if ms.any (holds s) = true ∧ (s.condition .markerHold).state = .idle ∧ (s.mode = .climb ∨ s.mode = .trim) then .hold
  else s.mode

/-- The jam test reads the feed, the time, two parameters and the mode. -/
theorem meetsJam_congr (feed : t.feed = s.feed) (now : t.now = s.now) (block : t.params.blockS = s.params.blockS)
    (cap : t.params.sMax = s.params.sMax) (mode : t.mode = s.mode) (c : Channel) : t.meetsJam c = s.meetsJam c := by
  unfold State.meetsJam State.deferralAllowed State.channel
  rw [feed, now, block, cap, mode]

/-- Markers that fire replace their own live state, the conditions, the mode and its hand-offs, the feed and rate_req. -/
def MarkerFrame (s t : State) : Prop :=
  t = (((((s.withMarkers t.markers).withConditions t.conditions).withMode t.mode).withTransit t.transit).withFeed
    t.feed).withParams t.params

theorem MarkerFrame.refl (s : State) : MarkerFrame s s := by
  have markers : s.withMarkers s.markers = s := rfl
  have conditions : s.withConditions s.conditions = s := rfl
  have mode : s.withMode s.mode = s := rfl
  have transit : s.withTransit s.transit = s := rfl
  have feed : s.withFeed s.feed = s := rfl
  have params : s.withParams s.params = s := rfl
  unfold MarkerFrame
  rw [markers, conditions, mode, transit, feed, params]

theorem MarkerFrame.trans (h : MarkerFrame s t) (k : MarkerFrame t u) : MarkerFrame s u := by
  unfold MarkerFrame at *
  generalize t.markers = a, t.conditions = b, t.mode = c, t.transit = d, t.feed = e, t.params = f at h
  subst h
  generalize u.markers = a', u.conditions = b', u.mode = c', u.transit = d', u.feed = e', u.params = f' at *
  rw [k]
  simp only [State.withMarkers, State.withConditions, State.withMode, State.withTransit, State.withFeed, State.withParams]

/-- What is left of a state in which markers have fired in this order. -/
structure Fired (s t : State) (ms : List MarkerIx) : Prop where
  frame : MarkerFrame s t
  entries : t.markers.entries = s.markers.entries
  spent : ∀ m, t.markers.spent.read m = true ↔ s.markers.spent.read m = true ∨ m ∈ ms
  latest : t.markers.latest = (match ms.getLast? with
    | some m => some m
    | none => s.markers.latest)
  params : t.params = (match (ms.filterMap (rateOf s)).getLast? with
    | some v => s.params.set 11 (min v s.params.rateMax)
    | none => s.params)
  feed : t.feed = (ms.filterMap (stopOf s)).foldl (fun f c => f.stopped s.now .stop c) s.feed
  held : RaisedTimes .markerHold s t (ms.filter (holds s)).length (((ms.filter (holds s)).getLast?).map Fin.val)
  unjammed : ms.filterMap (stopOf s) = [] → t.condition .feedJam = s.condition .feedJam
  jammed : ∀ before m after, ms = before ++ m :: after → stopOf s m ≠ none → (∀ n ∈ after, stopOf s n = none) →
    (t.condition .feedJam).source = ((t.withMode (modeBehind s before)).meetsJam .a ||
      (t.withMode (modeBehind s before)).meetsJam .b)
  others : ∀ c : Cond, c ≠ .markerHold → c ≠ .feedJam → t.condition c = s.condition c
  masked : t.conditions.masked = s.conditions.masked

theorem Fired.refl (s : State) : Fired s s [] :=
  ⟨.refl s, rfl, fun m => (or_iff_left List.not_mem_nil).symm, rfl, rfl, rfl, .refl s, fun _ => rfl,
    fun before m after h => by simp at h, fun _ _ _ => rfl, rfl⟩

/-- The mode in which the next marker is evaluated. -/
theorem Fired.mode {ms : List MarkerIx} (h : Fired s t ms) : t.mode = modeBehind s ms := by
  have some_ : 0 < (ms.filter (holds s)).length ↔ ms.any (holds s) = true := by
    rw [List.length_filter_pos_iff, List.any_eq_true]
  unfold modeBehind
  by_cases moves : ms.any (holds s) = true ∧ (s.condition .markerHold).state = .idle ∧ (s.mode = .climb ∨ s.mode = .trim)
  · rw [if_pos moves]
    exact (h.held.moved ⟨some_.2 moves.1, moves.2⟩).1
  · rw [if_neg moves]
    exact (h.held.stayed fun ⟨x, y⟩ => moves ⟨some_.1 x, y⟩).1

/-- The parameters that the jam test reads stay as markers fire. -/
theorem Fired.reads {ms : List MarkerIx} (h : Fired s t ms) : t.now = s.now ∧
    ∀ i : ParamIx, i ≠ 11 → t.params.value i = s.params.value i := by
  refine ⟨h.held.now, fun i ne => ?_⟩
  rw [h.params]
  split
  · exact params_set_other _ _ ne
  · rfl

end Sys2Proof.Proofs
end


section
/-! PROOFS. Markers at a cycle result, settled (O51): what one marker does, and the list of those that cross. -/

namespace Sys2Proof.Proofs

open Sys2Proof Sys2Proof.Machine Sys2Proof.Laws

variable {s t u : State} {ms : List MarkerIx} {m : MarkerIx}

/-! ## One marker (R151 to R154) -/

/-- What one marker that fires does, by its action. -/
structure Fires (t u : State) (m : MarkerIx) : Prop where
  frame : MarkerFrame t u
  markers : u.markers = { t.markers with spent := t.markers.spent.write m true, latest := some m }
  params : u.params = (match rateOf t m with
    | some v => t.params.set 11 (min v t.params.rateMax)
    | none => t.params)
  feed : u.feed = (match stopOf t m with
    | some c => t.feed.stopped t.now .stop c
    | none => t.feed)
  held : RaisedTimes .markerHold t u (if holds t m then 1 else 0) (some m.val)
  unjammed : stopOf t m = none → u.condition .feedJam = t.condition .feedJam
  jammed : stopOf t m ≠ none → (u.condition .feedJam).source = (u.meetsJam .a || u.meetsJam .b)
  others : ∀ c : Cond, c ≠ .markerHold → c ≠ .feedJam → u.condition c = t.condition c
  masked : u.conditions.masked = t.conditions.masked

/-- The state in which a marker's action is taken: it is SPENT and the latest fired. -/
def spending (t : State) (m : MarkerIx) : State :=
  t.withMarkers { t.markers with spent := t.markers.spent.write m true, latest := some m }

theorem fireMarker_eq (t : State) (m : MarkerIx) :
    t.fireMarker m = (spending t m).markerAction m (t.marker m).action := rfl

theorem spending_frame (t : State) (m : MarkerIx) : MarkerFrame t (spending t m) := by
  unfold MarkerFrame spending
  simp only [State.withMarkers, State.withConditions, State.withMode, State.withTransit, State.withFeed, State.withParams]

theorem RaisedTimes.of_spending {c : Cond} {n : Nat} {d : Option Nat} (h : RaisedTimes c (spending t m) u n d) :
    RaisedTimes c t u n d :=
  ⟨h.now, h.never, h.record, h.moved, h.stayed⟩

theorem hold_fires (is : (t.marker m).action = .hold) : Fires t (t.fireMarker m) m := by
  have rate : rateOf t m = none := by unfold rateOf; rw [is]
  have stop : stopOf t m = none := by unfold stopOf; rw [is]
  have hold : holds t m = true := decide_eq_true is
  have raised : t.fireMarker m = (spending t m).raise .markerHold (some m.val) := by
    rw [fireMarker_eq, is]
    rfl
  have frame := raise_frame (spending t m) .markerHold (some m.val)
  have times := raise_raisedTimes (c := .markerHold) (spending t m) (some m.val) rfl (by decide) rfl
  have others (c : Cond) (ne : c ≠ .markerHold) := raise_other (spending t m) (some m.val) ne
  have masked := raise_masked (spending t m) .markerHold (some m.val)
  rw [raised]
  generalize (spending t m).raise .markerHold (some m.val) = u at *
  refine ⟨(spending_frame t m).trans ?_, ?_, ?_, ?_, ?_, fun _ => others _ (by decide), fun no => absurd stop no,
    fun c ne _ => others c ne, masked⟩
  · generalize spending t m = v at frame
    unfold MarkerFrame
    generalize u.conditions = b, u.mode = c, u.transit = d at *
    rw [frame]
    simp only [State.withMarkers, State.withConditions, State.withMode, State.withTransit, State.withFeed, State.withParams]
  · rw [frame]
    rfl
  · rw [frame, rate]
    rfl
  · rw [frame, stop]
    rfl
  · rw [hold]
    exact times.of_spending

theorem rate_fires {v : Nat} (is : (t.marker m).action = .rate v) : Fires t (t.fireMarker m) m := by
  have rate : rateOf t m = some v := by unfold rateOf; rw [is]
  have stop : stopOf t m = none := by unfold stopOf; rw [is]
  have hold : holds t m = false := decide_eq_false (by rw [is]; exact nofun)
  have written : t.fireMarker m = (spending t m).withParams (t.params.set 11 (min v t.params.rateMax)) := by
    rw [fireMarker_eq, is]
    rfl
  rw [written]
  refine ⟨(spending_frame t m).trans ?_, rfl, ?_, ?_, ?_, fun _ => rfl, fun no => absurd stop no, fun _ _ _ => rfl, rfl⟩
  · unfold MarkerFrame
    simp only [State.withMarkers, State.withConditions, State.withMode, State.withTransit, State.withFeed, State.withParams]
  · rw [rate]
    rfl
  · rw [stop]
    rfl
  · rw [hold]
    exact .of_eq rfl rfl rfl rfl

theorem stop_fires {c : Channel} (is : (t.marker m).action = .feedStop c) : Fires t (t.fireMarker m) m := by
  have rate : rateOf t m = none := by unfold rateOf; rw [is]
  have stop : stopOf t m = some c := by unfold stopOf; rw [is]
  have hold : holds t m = false := decide_eq_false (by rw [is]; exact nofun)
  have stopped : t.fireMarker m = ((spending t m).withFeed (t.feed.stopped t.now .stop c)).evaluateJam := by
    rw [fireMarker_eq, is]
    exact stopChannel_stopped _ _ _
  have frame := evaluateJam_frame ((spending t m).withFeed (t.feed.stopped t.now .stop c))
  have others := (evaluateJam_step ((spending t m).withFeed (t.feed.stopped t.now .stop c)) c).conditions
  have jam := evaluateJam_source_meets ((spending t m).withFeed (t.feed.stopped t.now .stop c))
  have masked : ((spending t m).withFeed (t.feed.stopped t.now .stop c)).evaluateJam.conditions.masked =
    t.conditions.masked := evaluate_masked _ _ _ _
  rw [stopped]
  generalize ((spending t m).withFeed (t.feed.stopped t.now .stop c)).evaluateJam = u at *
  refine ⟨(spending_frame t m).trans ?_, ?_, ?_, ?_, ?_, (nomatch stop.symm.trans ·), fun _ => jam,
    fun x _ ne => others x ne, masked⟩
  · unfold MarkerFrame
    generalize u.conditions = b at *
    rw [frame]
    simp only [State.withMarkers, State.withConditions, State.withMode, State.withTransit, State.withFeed, State.withParams]
  · rw [frame]
    rfl
  · rw [frame, rate]
    rfl
  · rw [frame, stop]
    rfl
  · rw [hold]
    refine .of_eq ?_ (others _ (by decide)) ?_ ?_
    · rw [frame]; rfl
    · rw [frame]; rfl
    · rw [frame]; rfl

theorem fireMarker_fires (t : State) (m : MarkerIx) : Fires t (t.fireMarker m) m := by
  cases is : (t.marker m).action with
  | hold => exact hold_fires is
  | rate v => exact rate_fires is
  | feedStop c => exact stop_fires is

/-! ## One marker more -/

theorem Fired.action (h : Fired s t ms) (m : MarkerIx) : rateOf t m = rateOf s m ∧ stopOf t m = stopOf s m ∧
    holds t m = holds s m := by
  have entry : t.marker m = s.marker m := congrArg (·.read m) h.entries
  unfold rateOf stopOf holds
  rw [entry]
  exact ⟨rfl, rfl, rfl⟩

theorem Fired.snoc (h : Fired s t ms) (k : Fires t u m) : Fired s u (ms ++ [m]) := by
  obtain ⟨rate, stop, hold⟩ := h.action m
  obtain ⟨now, reads⟩ := h.reads
  refine ⟨h.frame.trans k.frame, ?_, fun j => ?_, ?_, ?_, ?_, ?_, fun none => ?_, fun before j after split stops last => ?_,
    fun c ne ne' => (k.others c ne ne').trans (h.others c ne ne'), k.masked.trans h.masked⟩
  · rw [k.markers]
    exact h.entries
  · rw [k.markers, List.mem_append, List.mem_singleton, ← or_assoc, ← h.spent]
    dsimp only
    rw [table_read_write]
    split
    · next same => exact iff_of_true rfl (.inr same)
    · next other => exact (or_iff_left other).symm
  · rw [k.markers, List.getLast?_concat]
  · rw [k.params, rate, List.filterMap_append]
    cases is : rateOf s m with
    | none =>
      rw [List.filterMap_cons_none is, List.filterMap_nil, List.append_nil]
      exact h.params
    | some v =>
      rw [List.filterMap_cons_some is, List.filterMap_nil, List.getLast?_concat]
      dsimp only
      have cap : t.params.rateMax = s.params.rateMax := reads _ (by decide)
      rw [cap, h.params]
      split
      · exact congrArg Params.mk (table_write_write _ _ _ _)
      · rfl
  · rw [k.feed, stop, List.filterMap_append, List.foldl_append, ← h.feed, now]
    cases is : stopOf s m with
    | none => rw [List.filterMap_cons_none is]; rfl
    | some c => rw [List.filterMap_cons_some is]; rfl
  · rw [List.filter_append, List.length_append]
    have times := h.held.trans k.held
    rw [hold] at times
    cases is : holds s m with
    | false =>
      rw [is] at times
      rw [List.filter_cons_of_neg (Bool.eq_false_iff.1 is), List.filter_nil, List.append_nil]
      exact times
    | true =>
      rw [is] at times
      rw [List.filter_cons_of_pos is, List.filter_nil, List.getLast?_concat]
      exact times
  · rw [List.filterMap_append, List.append_eq_nil_iff] at none
    have no : stopOf s m = Option.none := by
      cases is : stopOf s m with
      | none => rfl
      | some c => rw [List.filterMap_cons_some is] at none; exact nomatch none.2
    exact (k.unjammed (stop.trans no)).trans (h.unjammed none.1)
  · rcases List.eq_nil_or_concat after with rfl | ⟨rest, z, rfl⟩
    · obtain ⟨rfl, one⟩ := List.append_inj' split rfl
      obtain rfl : m = j := List.singleton_injective one
      have loose : holds t m = false := by
        cases is : (t.marker m).action with
        | hold => exact absurd (by unfold stopOf; rw [is]) (stop ▸ stops)
        | rate v => exact decide_eq_false (by rw [is]; exact nofun)
        | feedStop c => exact decide_eq_false (by rw [is]; exact nofun)
      have same := k.held
      rw [loose] at same
      have mode : u.mode = modeBehind s ms := (same.stayed fun no => absurd no.1 (Nat.lt_irrefl 0)).1.trans h.mode
      rw [← mode]
      exact k.jammed (stop ▸ stops)
    · rw [List.concat_eq_append, ← List.cons_append, ← List.append_assoc] at split
      obtain ⟨early, one⟩ := List.append_inj' split rfl
      obtain rfl : m = z := List.singleton_injective one
      have no : stopOf s m = none := last m (by simp)
      have reads' (i : ParamIx) (ne : i ≠ 11) : u.params.value i = t.params.value i := by
        rw [k.params]
        split
        · exact params_set_other _ _ ne
        · rfl
      have feed : u.feed = t.feed := by rw [k.feed, stop, no]
      have meets (c : Channel) : (u.withMode (modeBehind s before)).meetsJam c = (t.withMode (modeBehind s before)).meetsJam c :=
        meetsJam_congr (s := t.withMode (modeBehind s before)) (t := u.withMode (modeBehind s before)) feed k.held.now (reads' _ (by decide)) (reads' _ (by decide)) rfl c
      rw [k.unjammed (stop.trans no), meets, meets]
      exact h.jammed before j rest early stops fun n mem => last n (by simp [mem])

theorem foldl_fired (ms : List MarkerIx) : ∀ {before : List MarkerIx}, Fired s t before →
    Fired s (ms.foldl State.fireMarker t) (before ++ ms) := by
  induction ms generalizing t with
  | nil => exact fun h => (List.append_nil _).symm ▸ h
  | cons m ms ih =>
    intro before h
    have next := ih (h.snoc (fireMarker_fires t m))
    rw [List.append_assoc] at next
    exact next

/-! ## The obligation -/

theorem fired_jobs (h : Fired s t ms) : t.jobs = s.jobs := by
  have frame := h.frame
  unfold MarkerFrame at frame
  generalize t.markers = a, t.conditions = b, t.mode = c, t.transit = d, t.feed = e, t.params = f at frame
  subst frame
  simp only [State.withMarkers, State.withConditions, State.withMode, State.withTransit, State.withFeed, State.withParams]

theorem markerFrame_jobs {x : Transit} (frame : MarkerFrame (s.withTransit x) t) (js : List BeaconJob) :
    t.withJobs js = ((((((s.withMarkers t.markers).withConditions t.conditions).withMode t.mode).withTransit t.transit
      ).withFeed t.feed).withParams t.params).withJobs js := by
  unfold MarkerFrame at frame
  generalize t.markers = a, t.conditions = b, t.mode = c, t.transit = d, t.feed = e, t.params = f at *
  subst frame
  simp only [State.withMarkers, State.withConditions, State.withMode, State.withTransit, State.withFeed, State.withParams,
    State.withJobs]

theorem stopOf_none (h : ∀ c, (s.marker m).action ≠ .feedStop c) : stopOf s m = none := by
  unfold stopOf
  split
  · next c is => exact absurd is (h c)
  · rfl

/-- A cycle result at the Monitor and Marker Unit: the markers that cross fire, and the latest goes to the beacon. -/
theorem markerResult_fired (s : State) (r : CycleResult) : ∃ fired, fired.Pairwise (FiresBefore s) ∧
    (∀ m, m ∈ fired ↔ s.crosses r m = true) ∧ ∃ v, Fired s v fired ∧
    s.markerResult r = v.withJobs (handMarker v.markers.latest v.jobs) := by
  obtain ⟨sorted, mem⟩ := firingOrder_sorted (s := s) (allMarkers.filter (s.crosses r))
    ((List.pairwise_lt_finRange 24).filter _)
  refine ⟨_, sorted, fun m => ?_, _, foldl_fired (before := []) _ (.refl s), rfl⟩
  rw [mem, List.mem_filter]
  exact and_iff_right (List.mem_finRange m)

/-- Settles O51: the markers that cross, in firing order, each with its action. -/
theorem markersFire : Obligations.MarkersFire := by
  intro s r rest running next crosses
  have taken : exec .markerResultArrival s = .next ((s.withTransit { s.transit with markerResults := rest }).markerResult r) := by
    refine (exec_event running State.markerResultArrival rfl).trans (congrArg Host.Outcome.next ?_)
    unfold State.markerResultArrival
    rw [next]
  obtain ⟨fired, sorted, mem, v, f, out⟩ := markerResult_fired (s.withTransit { s.transit with markerResults := rest }) r
  have jobs : v.jobs = (s.withTransit { s.transit with markerResults := rest }).jobs := fired_jobs f
  replace jobs : v.jobs = s.jobs := jobs
  rw [out, jobs] at taken
  obtain ⟨frame, entries, spent, latest, params, feed, held, unjammed, jammed, others, masked⟩ := f
  refine ⟨_, fired, taken, ?_, fun before j after split full waits => ?_, fun full => handMarker_none _ _ full, sorted,
    fun m => ?_, entries, spent, latest, params, ⟨feed, unjammed, fun before m after c split stops last => ?_⟩,
    ⟨fun none => ?_, fun m last => ?_, fun some_ idle mode => ?_, fun not => ?_⟩, others, masked⟩
  · exact markerFrame_jobs frame _
  · show handMarker v.markers.latest s.jobs = _
    rw [split]
    exact handMarker_oldest _ _ _ _ full waits
  · rw [mem]
    exact crosses_iff
  · refine jammed before m after split ?_ fun n mem => stopOf_none (last n mem)
    unfold stopOf
    rw [show ((s.withTransit { s.transit with markerResults := rest }).marker m).action = .feedStop c from stops]
    exact nofun
  · exact held.never (List.length_eq_zero_iff.2 none)
  · have record := held.record (List.length_pos_iff.2 fun empty => by
      rw [show fired.filter (fun m => decide ((s.marker m).action = .hold)) = [] from empty] at last
      exact nomatch last)
    refine record.trans ?_
    rw [show (fired.filter (holds (s.withTransit { s.transit with markerResults := rest }))).getLast? = some m from last]
    rfl
  · exact held.moved ⟨List.length_pos_iff.2 some_, idle, mode⟩
  · refine held.stayed fun ⟨some_, idle, mode⟩ => ?_
    rcases not with none | other | ⟨climb, trim⟩
    · exact List.length_pos_iff.1 some_ none
    · exact other idle
    · exact mode.elim climb trim

end Sys2Proof.Proofs
end


section
/-! PROOFS. The bytes of the console line (O55): replies, FORWARD records and beacon entries. -/

namespace Sys2Proof.Proofs

open Sys2Proof Sys2Proof.Machine Sys2Proof.Laws

/-! ## Replies (R192, R195) -/

theorem field_spelled (f : Field) (now : Nat) : f.SpelledBy now (f.encode now) := by
  cases f with
  | bytes bs => rfl
  | time t =>
    cases t with
    | none => rfl
    | some t =>
      unfold Field.SpelledBy Field.encode timeBytes
      dsimp only
      refine ⟨?_, fun low high => if_pos ⟨low, high⟩⟩
      split <;> rfl

theorem fields_spelled (now : Nat) (fs : List Field) : fieldsSpelledBy now fs (encodeFields now fs) := by
  induction fs with
  | nil => rfl
  | cons f fs ih => exact ⟨f.encode now, encodeFields now fs, rfl, field_spelled f now, ih⟩

theorem reply_spelled (r : ReplyRecord) (now : Nat) : r.SpelledBy now (r.payload now) := by
  cases r with
  | reply seq code outcome fields => exact ⟨encodeFields now fields, rfl, fields_spelled now fields⟩
  | commitDone | overflow => rfl

/-! ## FORWARD records and beacon entries (R186, R194, R196) -/

theorem optSigned16_eq (x : Option Int) : optSigned16 x = errorBytes x := by
  cases x with
  | none => rfl
  | some v =>
    unfold optSigned16 errorBytes
    refine congrArg i16 ?_
    unfold clampInt
    omega

theorem optTm_eq (x : Option Int) : optTm x = heightBytes x := by
  cases x <;> rfl

theorem forward_spelled (r : ForwardRecord) : r.SpelledBy r.payload := by
  unfold ForwardRecord.SpelledBy ForwardRecord.payload
  cases r.content with
  | full state clock report =>
    cases report with
    | jack height tag fault => cases fault <;> rfl
    | outlet ready ended fault delivered tag => cases ready <;> cases ended <;> cases fault <;> rfl
    | sensor value fault => cases fault <;> rfl
  | compact value =>
    dsimp only
    rw [optSigned16_eq]
    rfl

/-- A set of condition numbers has the bits of its conditions. -/
theorem condSet_testBit (cs : List Cond) (once : cs.Nodup) (n : Nat) :
    (condSet cs).testBit n = true ↔ ∃ c ∈ cs, c.num.val = n := by
  have distinct : (cs.map fun c => c.num.val).Nodup :=
    (List.nodup_map_iff fun c d same => num_injective (Fin.ext same)).2 once
  have sum : condSet cs = ∑ i ∈ (cs.map fun c => c.num.val).toFinset, 2 ^ i := by
    rw [List.sum_toFinset _ distinct, List.map_map]
    rfl
  rw [← Nat.mem_bitIndices, sum, ← List.mem_toFinset, Finset.toFinset_bitIndices_sum_two_pow, List.mem_toFinset,
    List.mem_map]

theorem optIndex_getD {n : Nat} (x : Option (Fin n)) : optIndex x = (x.map fun i => u8 i.val).getD 255 := by
  cases x <;> rfl

theorem entry_spelled (e : BeaconEntry) : e.SpelledBy e.encode := by
  cases e with
  | head | user | finish => rfl
  | cycle r clock marker note =>
    unfold BeaconEntry.SpelledBy BeaconEntry.encode
    dsimp only
    rw [optTm_eq, optTm_eq, optTm_eq, optTm_eq, optIndex_getD, optIndex_getD]
  | conditions top reported =>
    intro once
    refine ⟨condSet reported, condSet_testBit reported once, ?_⟩
    unfold BeaconEntry.encode
    dsimp only
    rw [optIndex_getD, Option.map_map]
    rfl
  | wall x =>
    unfold BeaconEntry.SpelledBy BeaconEntry.encode optHeight
    dsimp only
    rw [optTm_eq]
    rfl
  | jack slot error demand state =>
    unfold BeaconEntry.SpelledBy BeaconEntry.encode
    dsimp only
    rw [optSigned16_eq]

/-! ## The agents and the forward queue (R181 to R183) -/

/-- Whether an agent takes the reports of a slot of a kind. -/
theorem takes_iff (e : AgentEntry) (i : Slot) (kind : NodeKind) : e.takes i kind = true ↔
    e.enabled = true ∧ e.low ≤ i ∧ i ≤ e.high ∧ match e.matchKind with
      | .any => True
      | .jack => kind = .jack
      | .outlet => kind = .outlet
      | .sensor => kind = .sensor := by
  unfold AgentEntry.takes
  rw [Bool.and_eq_true, Bool.and_eq_true, Bool.and_eq_true, decide_eq_true_iff, decide_eq_true_iff]
  cases e.matchKind <;> cases kind <;> simp [MatchKind.admits, and_assoc]

/-- In a queue in rank order the record is placed between those of equal or higher rank and those of lower. -/
theorem placeByRank_eq (q : List ForwardRecord) (r : ForwardRecord) (sorted : q.Pairwise fun x y => x.rank ≤ y.rank) :
    placeByRank q r = q.filter (fun x => decide (x.rank ≤ r.rank)) ++ r :: q.filter (fun x => decide (r.rank < x.rank)) := by
  induction q with
  | nil => rfl
  | cons x xs ih =>
    obtain ⟨first, rest⟩ := List.pairwise_cons.1 sorted
    have before := ih rest
    unfold placeByRank at *
    by_cases low : x.rank ≤ r.rank
    · rw [List.takeWhile_cons_of_pos (p := fun q : ForwardRecord => decide (q.rank ≤ r.rank)) (decide_eq_true low),
        List.dropWhile_cons_of_pos (p := fun q : ForwardRecord => decide (q.rank ≤ r.rank)) (decide_eq_true low),
        List.filter_cons_of_pos (p := fun q : ForwardRecord => decide (q.rank ≤ r.rank)) (decide_eq_true low),
        List.filter_cons_of_neg (p := fun q : ForwardRecord => decide (r.rank < q.rank)) (by rw [decide_eq_false (not_lt.2 low)]; exact Bool.false_ne_true), List.cons_append, before]
      rfl
    · have above (y : ForwardRecord) (mem : y ∈ x :: xs) : ¬ y.rank ≤ r.rank := fun h => by
        rcases List.mem_cons.1 mem with rfl | later
        · exact low h
        · exact low ((first y later).trans h)
      have none : (x :: xs).filter (fun y => decide (y.rank ≤ r.rank)) = [] :=
        List.filter_eq_nil_iff.2 fun y mem => by rw [decide_eq_false (above y mem)]; exact Bool.false_ne_true
      have all : (x :: xs).filter (fun y => decide (r.rank < y.rank)) = x :: xs :=
        List.filter_eq_self.2 fun y mem => decide_eq_true (not_le.1 (above y mem))
      rw [none, all, List.takeWhile_cons_of_neg (p := fun q : ForwardRecord => decide (q.rank ≤ r.rank))
          (by rw [decide_eq_false low]; exact Bool.false_ne_true),
        List.dropWhile_cons_of_neg (p := fun q : ForwardRecord => decide (q.rank ≤ r.rank))
          (by rw [decide_eq_false low]; exact Bool.false_ne_true)]

end Sys2Proof.Proofs
end


section
/-! PROOFS. The console line, settled (O55): what it sends, what the agents take, and how the forward queue fills. -/

namespace Sys2Proof.Proofs

open Sys2Proof Sys2Proof.Machine Sys2Proof.Laws

variable {s : State} {r : ForwardRecord}

/-- The console traffic with a forward queue whose head is judged. -/
theorem judgeHead_eq (c : Console) : c.judgeHead = { c with forwardHeld := c.forwardHeld || (match c.forward with
      | [] => false
      | r :: _ => decide (c.budget < (envelopeFrame { address := 0, kind := 0x24, payload := r.payload }).length)) } := by
  unfold Console.judgeHead Console.headTooLong
  cases c.forward <;> rfl

/-! ## Sending (R180, R187) -/

theorem consoleSend_busy (h : s.console.tx ≠ none) : s.consoleSend = s := by
  obtain ⟨t, is⟩ := Option.ne_none_iff_exists'.1 h
  unfold State.consoleSend
  rw [is]

theorem consoleSend_reply {x : ReplyRecord} {xs : List ReplyRecord} (free : s.console.tx = none)
    (h : s.console.replies = x :: xs) : s.consoleSend = s.sendReply x xs := by
  unfold State.consoleSend
  rw [free, h]

theorem consoleSend_sending {b : BeaconSending} (free : s.console.tx = none) (none_ : s.console.replies = [])
    (h : s.console.sending = some b) : s.consoleSend = s.sendBeacon b := by
  unfold State.consoleSend
  rw [free, none_, h]

theorem consoleSend_unsent {b : Beacon} (free : s.console.tx = none) (none_ : s.console.replies = [])
    (idle : s.console.sending = none) (h : s.console.unsent = some b) :
    s.consoleSend = (s.withConsole { s.console with unsent := none }).sendBeacon b.sending := by
  unfold State.consoleSend
  rw [free, none_, idle, h]

theorem consoleSend_forward {rest : List ForwardRecord} (free : s.console.tx = none) (none_ : s.console.replies = [])
    (idle : s.console.sending = none) (built : s.console.unsent = none) (h : s.console.forward = r :: rest) :
    s.consoleSend = s.sendForward r rest := by
  unfold State.consoleSend
  rw [free, none_, idle, built, h]

theorem sendForward_fits {rest : List ForwardRecord} (open_ : s.console.forwardHeld = false)
    (fits : r.frame.length ≤ s.console.budget) : s.sendForward r rest = s.withConsole { s.console with
      forward := rest, budget := s.console.budget - r.frame.length
      forwardHeld := (match rest with
        | [] => false
        | x :: _ => decide (s.console.budget - r.frame.length <
            (envelopeFrame { address := 0, kind := 0x24, payload := x.payload }).length))
      tx := some { kind := .forward, frame := r.frame } } := by
  unfold State.sendForward
  dsimp only
  rw [if_pos ⟨open_, fits⟩, judgeHead_eq]
  dsimp only
  rw [open_]
  rfl

theorem sendForward_held {rest : List ForwardRecord} (h : s.console.forwardHeld = true ∨ s.console.budget < r.frame.length) :
    s.sendForward r rest = s := by
  refine if_neg fun ⟨open_, fits⟩ => ?_
  rcases h with held | long
  · exact nomatch held.symm.trans open_
  · exact absurd fits (not_le.2 long)

/-! ## The agents (R181, R182) -/

theorem takingAgent_none {i : Slot} {kind : NodeKind} (h : ∀ a, (s.agents.entries.read a).takes i kind ≠ true) :
    s.takingAgent i kind = none :=
  List.find?_eq_none.2 fun a _ => h a

theorem takingAgent_some {i : Slot} {kind : NodeKind} {a : AgentIx} (h : (s.agents.entries.read a).takes i kind = true)
    (first : ∀ b, b < a → (s.agents.entries.read b).takes i kind ≠ true) : s.takingAgent i kind = some a :=
  lowestOf_find _ (fun a => (s.agents.entries.read a).takes i kind = true) (fun _ => Iff.rfl) (some a) ⟨h, first⟩

/-! ## The forward queue (R183) -/

/-- A record joins a queue in rank order. -/
theorem withForward_placed {q : List ForwardRecord} (sorted : q.Pairwise fun x y => x.rank ≤ y.rank) :
    s.withForward (placeByRank q r) =
      let joined := q.filter (fun x => decide (x.rank ≤ r.rank)) ++ r :: q.filter (fun x => decide (r.rank < x.rank))
      s.withConsole { s.console with
        forward := joined
        forwardHeld := s.console.forwardHeld || (match joined with
          | [] => false
          | x :: _ => decide (s.console.budget < (envelopeFrame { address := 0, kind := 0x24, payload := x.payload }).length)) } := by
  unfold State.withForward
  rw [placeByRank_eq q r sorted, judgeHead_eq]

theorem enqueueForward_room (h : s.console.forward.length < 32) :
    s.enqueueForward r = s.withForward (placeByRank s.console.forward r) := if_pos h

theorem enqueueForward_full {before : List ForwardRecord} {newest : ForwardRecord} (full : s.console.forward.length = 32)
    (is : s.console.forward = before ++ [newest]) : s.enqueueForward r =
      if r.rank < newest.rank then (s.withForward (placeByRank before r)).withAgents (s.agents.countDrop newest.agent)
      else s.withAgents (s.agents.countDrop r.agent) := by
  unfold State.enqueueForward
  dsimp only
  rw [if_neg (by rw [full]; decide), is, List.getLast?_concat, List.dropLast_concat]

/-- Settles O55: the line by rank, the agents, the forward queue and the bytes. -/
theorem consoleSendsByRank : Obligations.ConsoleSendsByRank := by
  unfold Obligations.ConsoleSendsByRank
  intro tooLong
  refine ⟨fun s running => ?_, fun s i kind previous report => ?_, fun s r inv => ?_, reply_spelled, forward_spelled,
    entry_spelled, codesInOrder, fillFrame_takes⟩
  · have taken : exec .consoleSend s = .next s.consoleSend := exec_event running State.consoleSend rfl
    rw [taken]
    refine ⟨fun busy => ?_, fun x xs free h => ?_, fun b free none_ h => ?_, fun b free none_ idle h => ?_,
      fun r rest free none_ idle built h => ⟨fun open_ fits => ?_, fun held => ?_⟩⟩
    · rw [consoleSend_busy busy]
    · rw [consoleSend_reply free h]
      rfl
    · rw [consoleSend_sending free none_ h]
      rfl
    · rw [consoleSend_unsent free none_ idle h]
      rfl
    · rw [consoleSend_forward free none_ idle built h, sendForward_fits open_ fits]
      cases rest <;> rfl
    · rw [consoleSend_forward free none_ idle built h, sendForward_held held]
  · refine ⟨fun nobody => ?_, fun a takes first => ?_⟩
    · have none := takingAgent_none (s := s) fun a h => nobody a ((takes_iff _ i kind).1 h)
      unfold State.offerReport
      rw [none]
    · have found := takingAgent_some (s := s) ((takes_iff _ i kind).2 takes) fun b lt h => first b lt ((takes_iff _ i kind).1 h)
      unfold State.offerReport
      rw [found]
      refine ⟨fun not => if_neg not, fun nth => (if_pos nth).trans ?_⟩
      cases (s.agents.entries.read a).form <;> cases report <;> rfl
  · obtain ⟨short, sorted⟩ := inv
    refine ⟨fun room => ?_, fun before newest full is => ?_⟩
    · exact (enqueueForward_room room).trans (withForward_placed sorted)
    · rw [is] at sorted
      have sorted := (List.pairwise_append.1 sorted).1
      rw [enqueueForward_full full is]
      refine ⟨fun higher => (if_pos higher).trans ?_, fun lower => if_neg (not_lt.2 lower)⟩
      rw [withForward_placed sorted]
      rfl

end Sys2Proof.Proofs
end


section
/-! PROOFS. Frames on the lines (O12, O13): the envelope that passes the checks, what a receiver collects, and which step it is. -/

namespace Sys2Proof.Proofs

open Sys2Proof Sys2Proof.Machine Sys2Proof.Laws

variable {s : State} {line : Line} {e : Envelope}

/-! ## The envelope (R192, R193) -/

theorem onTime_iff (bs : List RxByte) :
    bs.any (lateByte line) = false ↔ ∀ b ∈ bs, b.gap ≤ gapLimit line := by
  simp [lateByte]

/-- The envelope that the values of a frame in time spell. -/
def spelledEnvelope (vs : List Byte) : Option Envelope :=
  match vs with
  | start :: address :: kind :: length :: rest =>
    if start = startByte ∧ length.toNat ≤ Config.maxPayload ∧ rest.length = length.toNat + 2 then
      let e : Envelope := { address := address, kind := kind, payload := rest.take length.toNat }
      if rest.drop length.toNat = u16 (crc16 (envelopeBody e)).toNat then some e else none
    else none
  | _ => none

theorem frameEnvelope_eq (line : Line) (f : RxFrame) : frameEnvelope line f =
    if f.bytes.tail.any (lateByte line) then none else spelledEnvelope (f.bytes.map RxByte.value) := by
  unfold frameEnvelope
  cases f.bytes.tail.any (lateByte line) with
  | true => rfl
  | false =>
    rw [if_neg Bool.false_ne_true]
    generalize f.bytes.map RxByte.value = vs
    match vs with
    | [] => rfl
    | [_] => rfl
    | [_, _] => rfl
    | [_, _, _] => rfl
    | _ :: _ :: _ :: _ :: _ => rfl

theorem spelledEnvelope_iff (vs : List Byte) :
    spelledEnvelope vs = some e ↔ e.payload.length ≤ 240 ∧ vs = envelopeFrame e := by
  constructor
  · intro h
    unfold spelledEnvelope at h
    split at h
    · next start address kind length rest =>
      split at h
      · next sized =>
        obtain ⟨rfl, short, long⟩ := sized
        dsimp only at h
        split at h
        · next crc =>
          obtain rfl := (Option.some_inj.1 h).symm
          have taken : (rest.take length.toNat).length = length.toNat := by
            rw [List.length_take, long]
            omega
          refine ⟨taken.trans_le short, ?_⟩
          unfold envelopeFrame
          rw [← crc]
          unfold envelopeBody
          dsimp only
          rw [taken, u8_toNat, List.cons_append, List.cons_append, List.cons_append, List.cons_append,
            List.take_append_drop]
        · exact nomatch h
      · exact nomatch h
    · exact nomatch h
  · rintro ⟨short, rfl⟩
    have length : (u8 e.payload.length).toNat = e.payload.length := toNat_u8 _ (by omega)
    unfold spelledEnvelope envelopeFrame envelopeBody
    have size (crc : Nat) : (e.payload ++ u16 crc).length = (u8 e.payload.length).toNat + 2 := by
      rw [length]
      exact List.length_append
    refine (if_pos ⟨rfl, length.trans_le short, size _⟩).trans ?_
    dsimp only
    rw [length, List.append_eq, List.take_left, List.drop_left]
    exact if_pos rfl

/-- What passes the checks of a line: a frame of the part's form, of 240 payload bytes at most, in time. -/
theorem frameEnvelope_iff (line : Line) (f : RxFrame) (e : Envelope) : frameEnvelope line f = some e ↔
    e.payload.length ≤ 240 ∧ f.bytes.map RxByte.value = envelopeFrame e ∧ ∀ b ∈ f.bytes.tail, b.gap ≤ gapLimit line := by
  rw [frameEnvelope_eq, ← and_assoc, ← spelledEnvelope_iff, ← onTime_iff]
  cases f.bytes.tail.any (lateByte line) <;> simp

/-! ## The receiver (R193) -/

theorem receive_nil (line : Line) (n : Nat) : receive line n [] = [] := by
  cases n <;> rfl

/-- The bytes behind the start byte of one frame in time are collected whole. -/
theorem collect_whole (short : e.payload.length ≤ 240) {rest : List RxByte}
    (spelled : rest.map RxByte.value = envelopeBody e ++ u16 (crc16 (envelopeBody e)).toNat)
    (onTime : ∀ b ∈ rest, b.gap ≤ gapLimit line) : collect line rest = .full rest [] := by
  have length : (u8 e.payload.length).toNat = e.payload.length := toNat_u8 _ (by omega)
  have size : rest.length = 3 + e.payload.length + 2 := by
    rw [← List.length_map (f := RxByte.value), spelled]
    unfold envelopeBody
    simp [u16]
    omega
  have calm (bs : List RxByte) (part : ∀ b ∈ bs, b ∈ rest) : bs.any (lateByte line) = false :=
    (onTime_iff bs).2 fun b mem => onTime b (part b mem)
  unfold envelopeBody at spelled
  obtain ⟨a, r1, rfl, -, spelled⟩ := List.map_eq_cons_iff.1 spelled
  obtain ⟨k, r2, rfl, -, spelled⟩ := List.map_eq_cons_iff.1 spelled
  obtain ⟨n, r3, rfl, count, spelled⟩ := List.map_eq_cons_iff.1 spelled
  have header : (a :: k :: n :: r3).take 3 = [a, k, n] := rfl
  unfold collect
  dsimp only
  rw [header, calm [a, k, n] (by simp), if_neg Bool.false_ne_true]
  dsimp only
  have whole : (a :: k :: n :: r3).take (3 + n.value.toNat + 2) = a :: k :: n :: r3 :=
    List.take_of_length_le (by rw [size, count, length])
  rw [whole, calm _ fun _ mem => mem, count, length, if_neg (show ¬ e.payload.length > Config.maxPayload from not_lt.2 short), if_neg Bool.false_ne_true,
    if_neg (by rw [size]; exact Nat.lt_irrefl _), List.drop_length]

theorem receiveAll_frame (short : e.payload.length ≤ 240) {bs : List RxByte} (spelled : bs.map RxByte.value = envelopeFrame e)
    (onTime : ∀ b ∈ bs.tail, b.gap ≤ gapLimit line) : receiveAll line bs = [{ bytes := bs }] := by
  unfold envelopeFrame at spelled
  rw [List.cons_append] at spelled
  obtain ⟨b, rest, rfl, start, body⟩ := List.map_eq_cons_iff.1 spelled
  have whole := collect_whole (line := line) short body onTime
  unfold receiveAll
  rw [List.length_cons, receive, if_neg (not_not.2 start), whole]
  dsimp only
  rw [receive_nil]

end Sys2Proof.Proofs
end


section
/-! PROOFS. Frames on the lines, settled: console commands (O12), the receiver and the ring (O13). -/

namespace Sys2Proof.Proofs

open Sys2Proof Sys2Proof.Machine Sys2Proof.Laws

variable {s : State} {line : Line} {e : Envelope} {f : RxFrame}

/-! ## Console commands (R157, R158, R195) -/

theorem argsFit_iff (args : List Byte) : argsFit args = true ↔ args.length ≤ 238 := decide_eq_true_iff

/-- A code outside the command set is no command's. -/
theorem commandStep_unknown {code : Byte} (unknown : knownCode code = false) (seq : Byte) (args : List Byte) :
    commandStep seq code args = .unknownCommand seq code args := by
  have outside : code.toNat = 0 ∨ 19 < code.toNat := by
    unfold knownCode at unknown
    simp at unknown
    omega
  unfold commandStep
  split
  on_goal 20 => rfl
  all_goals omega

/-- The command code, sequence number and arguments of a command are those of the step they make. -/
theorem command_step {i : Instr} {seq code : Byte} {args : List Byte} (wf : i.wf = true)
    (is : i.command = some (seq, code, args)) : args.length ≤ 238 ∧ commandStep seq code args = i := by
  cases i with
  | status | read | write | discard | commit | start | stop | hold | release | setRate | ack | pollCondition | mask
  | feedStart | feedStop | place | relay | setUser | restart =>
    cases is
    exact ⟨(argsFit_iff _).1 wf, rfl⟩
  | unknownCommand =>
    cases is
    obtain ⟨fit, unknown⟩ := Bool.and_eq_true_iff.1 wf
    exact ⟨(argsFit_iff _).1 fit, commandStep_unknown (by rwa [Bool.not_eq_true'] at unknown) _ _⟩
  | _ => exact nomatch is

/-- Settles O12: the frame of a command passes the checks, and its payload makes the step again. -/
theorem consoleDecodeAfterEncode : Obligations.ConsoleDecodeAfterEncode := by
  intro i bs wf encoded onTime
  obtain ⟨⟨seq, code, args⟩, is, frame⟩ := Option.map_eq_some_iff.1 encoded
  obtain ⟨fit, step⟩ := command_step wf is
  have passes := (frameEnvelope_iff .console { bytes := bs } { address := 0, kind := kindCommand, payload := seq :: code :: args
    }).2 ⟨Nat.add_le_add_right fit 2, frame.symm, onTime⟩
  unfold decodeConsole
  rw [passes]
  exact (if_pos ⟨rfl, rfl⟩).trans step

/-! ## The ring (R6, R193, R194) -/

theorem replyStep_poll {i : Slot} {k : ExchangeKind} (is : k = .sweepPoll i ∨ k = .outletPoll i) :
    s.replyStep k e f = if e.kind = 0x02 ∧ e.payload.length = (match (s.node i).kind with
      | .jack => 5
      | .outlet => 4
      | .sensor => 3) then .ringReport e.address e.payload else .ringFrameDiscard f := by
  rcases is with rfl | rfl
  · exact if_congr (and_congr Iff.rfl (parseReport_isSome_iff _ _)) rfl rfl
  · exact if_congr (and_congr Iff.rfl (parseReport_isSome_iff _ _)) rfl rfl

theorem replyStep_relay {i : RelayIx} {target : Slot} {tag : Nat} :
    let back := e.kind = 0x09 ∧ ∃ result, e.payload = u8 tag :: result ∧ result.length ≤ 64
    (back → s.replyStep (.relay i target tag) e f = .ringRelayBack e.address e.payload) ∧
    (¬ back → s.replyStep (.relay i target tag) e f = .ringFrameDiscard f) := by
  unfold State.replyStep
  cases payload : e.payload with
  | nil => exact ⟨fun ⟨_, _, no, _⟩ => (nomatch no), fun _ => rfl⟩
  | cons t result =>
    have same : (t = u8 tag ∧ result.length ≤ 64) ↔ ∃ x, t :: result = u8 tag :: x ∧ x.length ≤ 64 := by
      constructor
      · rintro ⟨rfl, short⟩
        exact ⟨result, rfl, short⟩
      · rintro ⟨_, is, short⟩
        cases is
        exact ⟨rfl, short⟩
    exact ⟨fun ⟨kind, h⟩ => if_pos ⟨kind, same.2 h⟩, fun h => if_neg fun ⟨kind, k⟩ => h ⟨kind, same.1 k⟩⟩

theorem ringStep_taken {x : Exchange} (passes : frameEnvelope .ring f = some e) (takes : s.Takes e.address x) :
    s.ringStep f = s.replyStep x.kind e f := by
  unfold State.ringStep
  rw [passes]
  dsimp only
  rw [(openWindow_iff s e.address x).2 takes]

theorem ringStep_untaken (passes : frameEnvelope .ring f = some e) (untaken : ∀ x, ¬ s.Takes e.address x) :
    s.ringStep f = .ringFrameDiscard f := by
  have none : s.openWindow e.address = none := by
    cases window : s.openWindow e.address with
    | none => rfl
    | some x => exact absurd ((openWindow_iff s e.address x).1 window) (untaken x)
  unfold State.ringStep
  rw [passes]
  dsimp only
  rw [none]

/-- Settles O13: what passes the checks, what is collected, and the step by the exchange whose window is open. -/
theorem receiverCollectsAFrame : Obligations.ReceiverCollectsAFrame := by
  have limits : ∀ line : Line, gapLimit line = (match line with
      | .ring => 2000
      | .console => 5000) := fun line => by cases line <;> rfl
  refine ⟨fun line e bs short spelled => ⟨fun onTime => ?_, fun ⟨b, mem, late⟩ => ?_⟩, fun line f e => ?_,
    fun s f => ⟨fun fails => ?_, fun e passes => ⟨fun untaken => ringStep_untaken passes untaken, fun x takes => ?_⟩⟩⟩
  · have inTime : ∀ b ∈ bs.tail, b.gap ≤ gapLimit line := fun b mem => (onTime b mem).trans (limits line).ge
    exact ⟨receiveAll_frame short spelled inTime, (frameEnvelope_iff line _ e).2 ⟨short, spelled, inTime⟩⟩
  · refine Option.eq_none_iff_forall_ne_some.2 fun e' passes => ?_
    have inTime := ((frameEnvelope_iff line _ e').1 passes).2.2 b mem
    exact absurd inTime (not_le.2 (late.trans_le' (limits line).le))
  · have taken := frameEnvelope_iff line f e
    cases line with
    | ring => exact taken
    | console => exact taken
  · unfold State.ringStep
    rw [fails]
  · rw [ringStep_taken passes takes]
    refine ⟨fun i is => ?_, fun i is => ?_, fun c i tag is => ?_, fun c i tag stray is => ?_, fun is => ?_,
      fun i target tag is => ?_⟩
    · rw [replyStep_poll is]
      exact ⟨fun h => if_pos h, fun h => if_neg h⟩
    · rw [is]
      exact ⟨fun h => if_pos h, fun h => if_neg h⟩
    · rw [is]
      exact ⟨fun h => if_pos h, fun h => if_neg h⟩
    · rw [is]
      exact ⟨fun h => if_pos h, fun h => if_neg h⟩
    · rw [is]
      rfl
    · rw [is]
      exact replyStep_relay

end Sys2Proof.Proofs
end


section
/-! PROOFS. READ, settled (O19): the target that the bytes name, and the fields of each. -/

namespace Sys2Proof.Proofs

open Sys2Proof Sys2Proof.Machine Sys2Proof.Laws

variable {s : State}

/-! ## The target (R162, R195) -/

theorem byte_of_toNat {b : Byte} {n : Nat} (h : b.toNat = n) : b = u8 n := h ▸ (u8_toNat b).symm

theorem index?_eq_some {n : Nat} {b : Byte} {k : Fin n} (h : index? n b = some k) : b = u8 k.val := by
  unfold index? at h
  split at h
  · rw [← Option.some_inj.1 h]
    exact (u8_toNat b).symm
  · exact nomatch h

theorem ofNum_eq_some {b : Byte} {c : Cond} (h : Cond.ofNum b.toNat = some c) : b = u8 c.num.val := by
  refine byte_of_toNat ?_
  unfold Cond.ofNum at h
  obtain ⟨short, rfl⟩ := List.getElem?_eq_some_iff.1 h
  have numbered : ∀ i (lt : i < Cond.all.length), (Cond.all[i]'lt).num.val = i := by decide
  exact (numbered _ short).symm

theorem channel?_eq_some {b : Byte} {c : Channel} (h : channel? b = some c) : b = channelCode c := by
  unfold channel? at h
  split at h
  · next zero => rw [← Option.some_inj.1 h, zero]; rfl
  · split at h
    · next one => rw [← Option.some_inj.1 h, one]; rfl
    · exact nomatch h

/-- The parser of READ's three argument bytes finds the target that they name. -/
theorem readTarget?_of_named {target : ReadTarget} {t i j : Byte} (h : target.NamedBy t i j) :
    readTarget? t i j = some target := by
  cases target with
  | node x | segment x | descriptor x | monitor x | marker x | agent x | parameter x | record x | wall x | relay x
  | monitorState x | markerState x | cycleResult x | agentCounters x =>
    obtain ⟨rfl, rfl⟩ := h
    exact congrArg (Option.map _) (index?_u8 x (by decide))
  | layer x p =>
    obtain ⟨rfl, rfl, rfl⟩ := h
    refine (congrArg (Option.bind · _) (index?_u8 x (by decide))).trans ?_
    exact congrArg (Option.map _) (index?_u8 p (by decide))
  | condition c =>
    obtain ⟨rfl, rfl⟩ := h
    exact congrArg (Option.map _) (ofNum_u8 c)
  | channel c =>
    cases c with
    | a =>
      obtain ⟨rfl, rfl⟩ := h
      rfl
    | b =>
      obtain ⟨rfl, rfl⟩ := h
      rfl

theorem named_of_readTarget? {target : ReadTarget} {t i j : Byte} (h : readTarget? t i j = some target) :
    target.NamedBy t i j := by
  unfold readTarget? at h
  split at h
  case h_10 is =>
    obtain ⟨k, first, h⟩ := Option.bind_eq_some_iff.1 h
    obtain ⟨p, second, rfl⟩ := Option.map_eq_some_iff.1 h
    exact ⟨byte_of_toNat is, index?_eq_some first, index?_eq_some second⟩
  case h_11 is =>
    obtain ⟨c, found, rfl⟩ := Option.map_eq_some_iff.1 h
    exact ⟨byte_of_toNat is, ofNum_eq_some found⟩
  case h_12 is =>
    obtain ⟨c, found, rfl⟩ := Option.map_eq_some_iff.1 h
    have code := channel?_eq_some found
    cases c <;> exact ⟨byte_of_toNat is, code⟩
  case h_18 => exact nomatch h
  all_goals
    next is =>
      obtain ⟨x, found, rfl⟩ := Option.map_eq_some_iff.1 h
      exact ⟨byte_of_toNat is, index?_eq_some found⟩

/-! ## The fields (R162) -/

theorem paramBytes_eq (i : ParamIx) (v : Nat) : paramBytes i v =
    if i = 0 ∨ i = 22 then u32 v
    else if i ∈ [(3 : ParamIx), 4, 7, 8, 9, 15, 16, 17, 18, 27, 28, 29, 30, 31] then [u8 v]
    else u16 v := by
  have widths : ∀ i : ParamIx, (i = 0 ∨ i = 22 ↔ 65535 < ((paramRange i).map Prod.snd).getD 6000) ∧
      (i ∈ [(3 : ParamIx), 4, 7, 8, 9, 15, 16, 17, 18, 27, 28, 29, 30, 31] ↔
        ((paramRange i).map Prod.snd).getD 6000 ≤ 255) := by decide
  have last : paramBytes i v = quantityBytes (((paramRange i).map Prod.snd).getD 6000) v := by
    unfold paramBytes
    cases paramRange i <;> rfl
  obtain ⟨wide, narrow⟩ := widths i
  rw [last, if_congr wide rfl (if_congr narrow rfl rfl)]
  unfold quantityBytes
  by_cases four : 65535 < ((paramRange i).map Prod.snd).getD 6000
  · rw [if_pos four, if_neg (by omega), if_neg (by omega)]
  · rw [if_neg four, if_pos (not_lt.1 four)]

theorem withBottoms_length (queue : List Layer) (base : Nat) : (withBottoms base queue).length = queue.length :=
  (List.length_map _).symm.trans (congrArg List.length (withBottoms_map_snd base queue))

theorem readFields_layer (k : SegmentIx) (p : Fin 16) : s.readFields (.layer k p) =
    ((withBottoms (s.wall k).base (s.wall k).queue)[p.val]?).map fun x =>
      plain (x.2.encode x.1 s.pourClock s.params.setAgeS) := rfl

/-- The targets whose record can be missing. -/
theorem readFields_none (target : ReadTarget) : s.readFields target = none ↔
    ((∃ k p, target = .layer k p ∧ (s.wall k).queue.length ≤ p.val) ∨
     (∃ r, target = .relay r ∧ s.relaySlot r = none) ∨ (∃ p, target = .cycleResult p ∧ s.level.latest = none)) := by
  cases target with
  | layer k p =>
    rw [readFields_layer, Option.map_eq_none_iff, List.getElem?_eq_none_iff, withBottoms_length]
    simp
  | relay r =>
    refine Option.map_eq_none_iff.trans ?_
    simp
  | cycleResult p =>
    refine Option.map_eq_none_iff.trans ?_
    simp
  | _ => exact iff_of_false nofun (by simp)

theorem cycleResult_fields (r : CycleResult) (p : Nat) : r.fields p = r.scalars ++ [.bytes
    (((List.zip (r.errors.drop p) (r.demands.drop p)).take 27).map fun x =>
      u8 x.1.slot.val :: (i32 x.1.error ++ u16 x.2.demand)).flatten] := by
  have zipped : List.zipWith participantBytes (r.errors.drop p) (r.demands.drop p) =
      (List.zip (r.errors.drop p) (r.demands.drop p)).map fun x => participantBytes x.1 x.2 :=
    (List.map_uncurry_zip_eq_zipWith ..).symm
  unfold CycleResult.fields
  rw [zipped, ← List.map_take]
  rfl

theorem nodeEntry_encode (e : NodeEntry) : e.encode = [if e.enabled then 1 else 0, u8 e.address, e.kind.code] ++
    (e.strokeMax.map u16).getD [] ++ (e.zero.map i32).getD [] := by
  unfold NodeEntry.encode
  cases e.strokeMax <;> cases e.zero <;> rfl

theorem descriptorEntry_encode (e : DescriptorEntry) : e.encode =
    [if e.enabled then 1 else 0, u8 e.segment.val, u8 e.outlet.val] ++ u16 e.litres ++ [(match e.next with
      | none => 255
      | some d => u8 d.val), if e.pauseAfter then 1 else 0, if e.mark then 1 else 0] := by
  unfold DescriptorEntry.encode
  cases e.next <;> rfl

theorem markerEntry_encode (e : MarkerEntry) : e.encode = (if e.enabled then 1 else 0) :: (u32 e.height ++
    (match e.action with
      | .hold => [0]
      | .rate v => 1 :: u16 v
      | .feedStop c => [2, channelCode c])) := by
  unfold MarkerEntry.encode
  cases e.action <;> rfl

theorem optBytes_eq (x : Option (List Byte)) : optBytes x = (match x with
    | none => [0]
    | some bs => 1 :: bs) := by
  cases x <;> rfl

theorem expectation_encode (e : Expectation) :
    e.encode = u8 e.tag :: (u16 e.demand ++ [if (!e.confirmed) = true then 1 else 0]) := by
  unfold Expectation.encode
  cases e.confirmed <;> rfl

theorem report_encode (x : Report) : x.encode = (match x with
    | .jack height tag fault => u32 height ++ [u8 tag, if fault then 1 else 0]
    | .outlet ready ended fault delivered tag =>
      [if ready then 1 else 0, if ended then 1 else 0, if fault then 1 else 0] ++ u16 delivered ++ [u8 tag]
    | .sensor value fault => i16 value ++ [if fault then 1 else 0]) := by
  cases x <;> rfl

theorem readRecord_eq (s : State) (i : Slot) : s.readRecord i = [
    .bytes ([(s.record i).state.code, u8 (s.record i).missCount] ++
      (match (s.record i).lastReport.map fun x => (match x with
          | .jack height tag fault => u32 height ++ [u8 tag, if fault then 1 else 0]
          | .outlet ready ended fault delivered tag =>
            [if ready then 1 else 0, if ended then 1 else 0, if fault then 1 else 0] ++ u16 delivered ++ [u8 tag]
          | .sensor value fault => i16 value ++ [if fault then 1 else 0] : List Byte) with
        | none => [0]
        | some bs => 1 :: bs) ++
      i32 (((s.record i).previousHeight.map fun (h : Nat) => (h : Int)).getD (-2147483648)) ++ [u8 (s.record i).shortCounter]),
    .time (s.record i).pollDue,
    .bytes (match (s.expectation i).map fun e => u8 e.tag :: (u16 e.demand ++ [if (!e.confirmed) = true then 1 else 0]) with
      | none => [0]
      | some bs => 1 :: bs)] := by
  have reports : Report.encode = _ := funext report_encode
  have expectations : Expectation.encode = _ := funext expectation_encode
  unfold State.readRecord
  dsimp only
  rw [optBytes_eq, optBytes_eq, reports, expectations]
  rfl

theorem channel_fields (x : ChannelContext) : x.fields = [
      .bytes ([x.state.code, (match x.current with
          | none => 255
          | some d => u8 d.val)] ++
        (match x.working.map fun w => [u8 w.segment.val, u8 w.outlet.val] ++ u16 w.litres with
          | none => [0]
          | some bs => 1 :: bs) ++ u16 x.delivered ++
        [u8 x.tag, if x.openConfirmed then 1 else 0, closeCauseCode x.closeCause, if x.closeSent then 1 else 0,
          if x.void then 1 else 0, x.blockReason.code]),
      .time x.blockedSince, .time x.blockTimer, .time x.dwellEndsAt] ++
    (match x.pause with
      | none => [.bytes [0]]
      | some p => [.bytes [1], .time (some p.endsAt), .bytes [p.kind.code]]) ++
    [.bytes (u8 x.deferred.length :: x.deferred.map fun d => u8 d.val)] := by
  unfold ChannelContext.fields listBytes
  rw [optBytes_eq, List.length_map]
  cases x.current <;> cases x.pause <;> rfl

theorem relay_fields (x : RelaySlot) : x.fields = [
    .bytes ([u8 x.tag, u8 x.target.val, x.state.code] ++ (match x.result.map fun r => u8 r.length :: r with
      | none => [0]
      | some bs => 1 :: bs)), .time x.completion] := by
  unfold RelaySlot.fields
  rw [optBytes_eq]
  rfl

theorem layer_encode (l : Layer) (bottom clock setAge : Nat) : l.encode bottom clock setAge =
    u32 l.top ++ u32 bottom ++ u32 l.placedAt ++ u32 (clock - l.placedAt) ++
      [(if decide (setAge ≤ clock - l.placedAt) = true then 1 else 0 : Byte)] ++ u32 l.litres ++
      [l.source.code, (match l.descriptor with
        | none => 255
        | some d => u8 d.val), if l.greenExited then 1 else 0] := by
  have green : (if l.unset clock setAge = true then (0 : Byte) else 1) =
      if decide (setAge ≤ clock - l.placedAt) = true then 1 else 0 := by
    by_cases old : setAge ≤ clock - l.placedAt
    · rw [decide_eq_true old, if_neg (mt (unset_iff _ _ _).1 (not_lt.2 old)), if_pos rfl]
    · rw [decide_eq_false old, if_pos ((unset_iff _ _ _).2 (not_le.1 old)), if_neg Bool.false_ne_true]
  unfold Layer.encode
  rw [green]
  cases l.descriptor <;> rfl

theorem readCondition_eq (s : State) (c : Cond) : s.readCondition c = [u8 c.num.val, c.cls.code, c.kind.code,
    (s.condition c).state.code, if (!(s.condition c).source) = true then 1 else 0, u8 ((s.condition c).detail.getD 255),
    u8 (s.condition c).count, if s.isMasked c then 1 else 0] := by
  unfold State.readCondition
  dsimp only
  cases (s.condition c).source <;> rfl

/-- A monitor's record as READ sends it: its last value and the time of it are free where there is none. -/
theorem readMonitor_eq (s : State) (i : MonitorIx) : ∃ value clock : List Byte, value.length = 2 ∧ clock.length = 4 ∧
    (∀ v, (s.monitorRecord i).lastValue = some v → value = i16 v) ∧
    (∀ c, (s.monitorRecord i).judgedAt = some c → clock = u32 c) ∧
    s.readMonitor i = [if (s.monitorRecord i).tripped then 1 else 0, tripCauseCode (s.monitorRecord i).cause] ++ value ++
      clock ++ i16 ((s.monitor i).levels.read (s.monitor i).select) := by
  refine ⟨_, _, ?_, ?_, fun v is => ?_, fun c is => ?_, rfl⟩
  · split <;> rfl
  · split <;> rfl
  · rw [is]
  · rw [is]

/-- Settles O19: the parser finds what the bytes name, and each target's record field by field. -/
theorem readReply : Obligations.ReadReply := by
  refine ⟨fun s seq t i j target running named => ?_, fun s seq args running unnamed => ?_,
    fun s target => readFields_none target, fun s => ?_, codesInOrder⟩
  · have taken : exec (.read seq [t, i, j]) s = .next (s.silenceReset.takeRead seq [t, i, j]) :=
      exec_command running (fun u => u.takeRead seq [t, i, j]) rfl
    rw [taken]
    generalize s.silenceReset = u
    refine ⟨_, rfl, ?_⟩
    unfold State.takeRead
    dsimp only
    rw [readTarget?_of_named named]
    dsimp only
    cases u.readFields target <;> exact ⟨rfl, rfl⟩
  · have taken : exec (.read seq args) s = .next (s.silenceReset.takeRead seq args) :=
      exec_command running (fun u => u.takeRead seq args) rfl
    rw [taken]
    generalize s.silenceReset = u
    unfold State.takeRead
    split
    · next t i j =>
      cases found : readTarget? t i j with
      | none => rfl
      | some target => exact absurd (named_of_readTarget? found) (unnamed t i j target rfl)
    · rfl
  · intro flag present descriptor signed
    refine ⟨fun i => ?_, fun i => rfl, fun i => ?_, fun i => rfl, fun i => ?_, fun i => rfl, fun i => ?_, fun i => ?_,
      fun k => rfl, fun k p l at_ => ?_, fun c => ?_, fun c => ?_, fun i x at_ => ?_, fun i => ?_, fun i => rfl,
      fun p r latest => ?_, fun i => rfl⟩
    · exact congrArg (fun bs => some [Field.bytes bs]) (nodeEntry_encode _)
    · exact congrArg (fun bs => some [Field.bytes bs]) (descriptorEntry_encode _)
    · exact congrArg (fun bs => some [Field.bytes bs]) (markerEntry_encode _)
    · exact congrArg (fun bs => some [Field.bytes bs]) (paramBytes_eq _ _)
    · exact congrArg some (readRecord_eq s i)
    · rw [readFields_layer, withBottoms_getElem? _ _ _ at_]
      exact congrArg (fun bs => some [Field.bytes bs]) (layer_encode _ _ _ _)
    · exact congrArg (fun bs => some [Field.bytes bs]) (readCondition_eq _ _)
    · exact congrArg some (channel_fields _)
    · exact (congrArg (Option.map RelaySlot.fields) at_).trans (congrArg some (relay_fields x))
    · obtain ⟨value, clock, short, long, last, judged, is⟩ := readMonitor_eq s i
      exact ⟨value, clock, short, long, last, judged, congrArg (fun bs => some [Field.bytes bs]) is⟩
    · have read : s.readFields (.cycleResult p) = some (r.fields p.val) := congrArg (Option.map _) latest
      rw [read, cycleResult_fields]
      rfl

end Sys2Proof.Proofs
end


section
/-! PROOFS. WRITE's argument bytes (O20): what each field's parser takes, and each table's, both ways. -/

namespace Sys2Proof.Proofs

open Sys2Proof Sys2Proof.Machine Sys2Proof.Laws

/-! ## Fields (R192) -/

theorem u32_natOfBytes (a b c d : Byte) : u32 (natOfBytes [a, b, c, d]) = [a, b, c, d] := by
  have := a.isLt; have := b.isLt; have := c.isLt; have := d.isLt
  simp only [u32, u8, natOfBytes, List.foldl_cons, List.foldl_nil, List.cons.injEq, and_true]
  refine ⟨?_, ?_, ?_, ?_⟩ <;> apply BitVec.eq_of_toNat_eq <;> simp only [BitVec.toNat_ofNat] <;> omega

theorem natOfBytes_u32 (n : Nat) (h : n ≤ 4294967295) : natOfBytes (u32 n) = n := by
  simp only [u32, u8, natOfBytes, List.foldl_cons, List.foldl_nil, BitVec.toNat_ofNat]
  omega

theorem intOfBytes16_within (bs : List Byte) : -32768 ≤ intOfBytes16 bs ∧ intOfBytes16 bs ≤ 32767 :=
  ⟨BitVec.le_toInt _, Int.lt_add_one_iff.1 (BitVec.toInt_lt (x := BitVec.ofNat 16 (natOfBytes bs)))⟩

theorem yesNo?_iff {b : Byte} {v : Bool} : yesNo? b = some v ↔ b = yesNoByte v := by
  revert b v
  decide

theorem nodeKind?_iff {b : Byte} {k : NodeKind} : nodeKind? b = some k ↔ b = k.code := by
  cases k <;> (revert b; decide)

theorem direction?_iff {b : Byte} {d : Direction} : direction? b = some d ↔ b = d.code := by
  cases d <;> (revert b; decide)

theorem monitorClass?_iff {b : Byte} {c : MonitorClass} : monitorClass? b = some c ↔ b = c.code := by
  cases c <;> (revert b; decide)

theorem matchKind?_iff {b : Byte} {k : MatchKind} : matchKind? b = some k ↔ b = k.code := by
  cases k <;> (revert b; decide)

theorem forwardForm?_iff {b : Byte} {f : Machine.ForwardForm} : forwardForm? b = some f ↔ b = f.code := by
  cases f <;> (revert b; decide)

theorem channel?_iff {b : Byte} {c : Channel} : channel? b = some c ↔ b = channelCode c :=
  ⟨channel?_eq_some, fun is => is ▸ channel?_channelCode c⟩

theorem index?_iff {n : Nat} {b : Byte} {i : Fin n} (h : n ≤ 256) : index? n b = some i ↔ b = u8 i.val :=
  ⟨index?_eq_some, fun is => is ▸ index?_u8 i h⟩

theorem optIndex?_iff {n : Nat} {b : Byte} {i : Option (Fin n)} (h : n ≤ 255) :
    optIndex? n b = some i ↔ b = optIndex i := by
  unfold optIndex?
  cases i with
  | none =>
    split
    · next last => exact iff_of_true rfl last
    · next other => exact iff_of_false (by simp) other
  | some i =>
    have below : optIndex (some i) ≠ 255 := fun is => by
      have value : i.val = 255 := (toNat_u8 i.val (by omega)).symm.trans (congrArg BitVec.toNat is)
      omega
    split
    · next last => exact iff_of_false (nomatch ·) fun is => below (is.symm.trans last)
    · rw [Option.map_eq_some_iff]
      exact ⟨fun ⟨_, found, same⟩ => Option.some_inj.1 same ▸ index?_eq_some found,
        fun is => ⟨i, (index?_iff (by omega)).2 is, rfl⟩⟩

theorem ranged?_iff {low high v x : Nat} : ranged? low high v = some x ↔ v = x ∧ low ≤ x ∧ x ≤ high := by
  unfold ranged?
  split
  · next inside => exact ⟨fun same => Option.some_inj.1 same ▸ ⟨rfl, inside⟩, fun same => congrArg some same.1⟩
  · next outside => exact iff_of_false nofun fun same => outside (same.1 ▸ same.2)

end Sys2Proof.Proofs
end


section
/-! PROOFS. WRITE's argument bytes (O20): the parser of an edit takes exactly the bytes that spell it, table by table. -/

namespace Sys2Proof.Proofs

open Sys2Proof Sys2Proof.Machine Sys2Proof.Laws

/-! ## The entries that the parsers give (R1, R60, R81, R142, R149, R161, R181) -/

theorem spelled_node {i : Slot} {e : NodeEntry} {fields : List Byte} (h : parseNode fields = some e) :
    (Edit.node i e).SpelledBy (0 :: u8 i.val :: fields) := by
  unfold parseNode at h
  split at h
  · next enabled address kind rest =>
    obtain ⟨en, first, h⟩ := Option.bind_eq_some_iff.1 h
    obtain ⟨ad, second, h⟩ := Option.bind_eq_some_iff.1 h
    obtain ⟨k, third, h⟩ := Option.bind_eq_some_iff.1 h
    obtain ⟨same, low, high⟩ := ranged?_iff.1 second
    have within := And.intro (Int.ofNat_le.2 low) (Int.ofNat_le.2 high)
    match k, rest, h with
    | .jack, [m1, m0, z1, z0], h =>
      obtain ⟨m, fourth, h⟩ := Option.bind_eq_some_iff.1 h
      cases h
      obtain ⟨rfl, least, most⟩ := ranged?_iff.1 fourth
      refine ⟨within, _, _, rfl, rfl, ⟨Int.ofNat_le.2 least, Int.ofNat_le.2 most⟩, intOfBytes16_within _, ?_⟩
      rw [u16_natOfBytes, i16_intOfBytes16, yesNo?_iff.1 first, nodeKind?_iff.1 third, ← same, u8_toNat]
      rfl
    | .outlet, [], h =>
      cases h
      refine ⟨within, rfl, rfl, ?_⟩
      rw [yesNo?_iff.1 first, nodeKind?_iff.1 third, ← same, u8_toNat]
      rfl
    | .sensor, [], h =>
      cases h
      refine ⟨within, rfl, rfl, ?_⟩
      rw [yesNo?_iff.1 first, nodeKind?_iff.1 third, ← same, u8_toNat]
      rfl
  · exact nomatch h

theorem spelled_segment {i : SegmentIx} {e : SegmentEntry} {fields : List Byte} (h : parseSegment fields = some e) :
    (Edit.segment i e).SpelledBy (1 :: u8 i.val :: fields) := by
  unfold parseSegment at h
  split at h
  · obtain ⟨en, first, h⟩ := Option.bind_eq_some_iff.1 h
    obtain ⟨area, second, h⟩ := Option.bind_eq_some_iff.1 h
    obtain ⟨top, third, h⟩ := Option.bind_eq_some_iff.1 h
    cases h
    obtain rfl := yesNo?_iff.1 first
    obtain ⟨rfl, least, most⟩ := ranged?_iff.1 second
    obtain ⟨rfl, low, high⟩ := ranged?_iff.1 third
    refine ⟨⟨Int.ofNat_le.2 least, Int.ofNat_le.2 most⟩, ⟨Int.ofNat_le.2 low, Int.ofNat_le.2 high⟩, ?_⟩
    rw [u32_natOfBytes, u32_natOfBytes]
    rfl
  · exact nomatch h

theorem spelled_descriptor {i : DescriptorIx} {e : DescriptorEntry} {fields : List Byte}
    (h : parseDescriptor fields = some e) : (Edit.descriptor i e).SpelledBy (2 :: u8 i.val :: fields) := by
  unfold parseDescriptor at h
  split at h
  · next flags =>
    obtain ⟨en, first, h⟩ := Option.bind_eq_some_iff.1 h
    obtain ⟨k, second, h⟩ := Option.bind_eq_some_iff.1 h
    obtain ⟨o, third, h⟩ := Option.bind_eq_some_iff.1 h
    obtain ⟨l, fourth, h⟩ := Option.bind_eq_some_iff.1 h
    obtain ⟨nx, fifth, h⟩ := Option.bind_eq_some_iff.1 h
    cases h
    obtain rfl := yesNo?_iff.1 first
    obtain rfl := index?_eq_some second
    obtain rfl := index?_eq_some third
    obtain ⟨rfl, least, most⟩ := ranged?_iff.1 fourth
    obtain rfl := (optIndex?_iff (by decide)).1 fifth
    refine ⟨⟨Int.ofNat_le.2 least, Int.ofNat_le.2 most⟩, flags, rfl, rfl, ?_⟩
    rw [u16_natOfBytes]
    cases nx <;> rfl
  · exact nomatch h

theorem spelled_monitor {i : MonitorIx} {e : MonitorEntry} {fields : List Byte} (h : parseMonitor fields = some e) :
    (Edit.monitor i e).SpelledBy (3 :: u8 i.val :: fields) := by
  unfold parseMonitor at h
  split at h
  · obtain ⟨en, first, h⟩ := Option.bind_eq_some_iff.1 h
    obtain ⟨slot, second, h⟩ := Option.bind_eq_some_iff.1 h
    obtain ⟨dr, third, h⟩ := Option.bind_eq_some_iff.1 h
    obtain ⟨sel, fourth, h⟩ := Option.bind_eq_some_iff.1 h
    obtain ⟨hy, fifth, h⟩ := Option.bind_eq_some_iff.1 h
    obtain ⟨cl, sixth, h⟩ := Option.bind_eq_some_iff.1 h
    cases h
    obtain rfl := yesNo?_iff.1 first
    obtain rfl := index?_eq_some second
    obtain rfl := direction?_iff.1 third
    obtain rfl := index?_eq_some fourth
    obtain ⟨rfl, least, most⟩ := ranged?_iff.1 fifth
    obtain rfl := monitorClass?_iff.1 sixth
    have level := intOfBytes16_within
    refine ⟨List.forall_mem_cons.2 ⟨level _, List.forall_mem_cons.2 ⟨level _, List.forall_mem_cons.2 ⟨level _,
      List.forall_mem_cons.2 ⟨level _, List.forall_mem_nil _⟩⟩⟩⟩, ⟨Int.ofNat_le.2 least, Int.ofNat_le.2 most⟩, ?_⟩
    dsimp only [List.map, Vector.toList, List.flatten]
    rw [u16_natOfBytes, i16_intOfBytes16, i16_intOfBytes16, i16_intOfBytes16, i16_intOfBytes16]
    cases dr <;> cases cl <;> rfl
  · exact nomatch h

theorem spelled_marker {i : MarkerIx} {e : MarkerEntry} {fields : List Byte} (h : parseMarker fields = some e) :
    (Edit.marker i e).SpelledBy (4 :: u8 i.val :: fields) := by
  unfold parseMarker at h
  split at h
  · obtain ⟨en, first, h⟩ := Option.bind_eq_some_iff.1 h
    obtain ⟨height, second, h⟩ := Option.bind_eq_some_iff.1 h
    have same := yesNo?_iff.1 first
    obtain ⟨rfl, low, high⟩ := ranged?_iff.1 second
    have within := And.intro (Int.ofNat_le.2 low) (Int.ofNat_le.2 high)
    dsimp only at h
    split at h
    · next is _ _ =>
      cases h
      refine ⟨within, ?_⟩
      rw [same, u32_natOfBytes, byte_of_toNat is]
      rfl
    · next is _ _ =>
      obtain ⟨act, third, h⟩ := Option.bind_eq_some_iff.1 h
      obtain ⟨v, fourth, rfl⟩ := Option.map_eq_some_iff.1 third
      cases h
      obtain ⟨rfl, least, most⟩ := ranged?_iff.1 fourth
      refine ⟨within, ⟨Int.ofNat_le.2 least, Int.ofNat_le.2 most⟩, ?_⟩
      rw [same, u32_natOfBytes, u16_natOfBytes, byte_of_toNat is]
      rfl
    · next is _ _ =>
      obtain ⟨act, third, h⟩ := Option.bind_eq_some_iff.1 h
      obtain ⟨c, fourth, rfl⟩ := Option.map_eq_some_iff.1 third
      cases h
      obtain rfl := channel?_iff.1 fourth
      refine ⟨within, ?_⟩
      rw [same, u32_natOfBytes, byte_of_toNat is]
      cases c <;> rfl
    · exact nomatch h
  · exact nomatch h

theorem spelled_agent {i : AgentIx} {e : AgentEntry} {fields : List Byte} (h : parseAgent fields = some e) :
    (Edit.agent i e).SpelledBy (5 :: u8 i.val :: fields) := by
  unfold parseAgent at h
  split at h
  · obtain ⟨en, first, h⟩ := Option.bind_eq_some_iff.1 h
    obtain ⟨k, second, h⟩ := Option.bind_eq_some_iff.1 h
    obtain ⟨lo, third, h⟩ := Option.bind_eq_some_iff.1 h
    obtain ⟨hi, fourth, h⟩ := Option.bind_eq_some_iff.1 h
    obtain ⟨n, fifth, h⟩ := Option.bind_eq_some_iff.1 h
    obtain ⟨f, sixth, h⟩ := Option.bind_eq_some_iff.1 h
    obtain ⟨r, seventh, h⟩ := Option.bind_eq_some_iff.1 h
    split at h
    · next ordered =>
      cases h
      obtain rfl := yesNo?_iff.1 first
      obtain rfl := matchKind?_iff.1 second
      obtain rfl := index?_eq_some third
      obtain rfl := index?_eq_some fourth
      obtain ⟨rfl, least, most⟩ := ranged?_iff.1 fifth
      obtain rfl := forwardForm?_iff.1 sixth
      obtain rfl := index?_eq_some seventh
      refine ⟨ordered, ⟨Int.ofNat_le.2 least, Int.ofNat_le.2 most⟩, ?_⟩
      rw [u8_toNat]
      cases k <;> cases f <;> rfl
    · exact nomatch h
  · exact nomatch h

/-- A parameter has the range that `writeRanges` names, and none where that one is empty. -/
theorem paramRange_eq : ∀ i : ParamIx, paramRange i = (writeRanges[i.val]?).filter fun r => decide (r.1 ≤ r.2) := by
  decide

theorem spelled_parameter {i : ParamIx} {v : Nat} {fields : List Byte} (h : parseParam i fields = some v) :
    (Edit.parameter i v).SpelledBy (6 :: u8 i.val :: fields) := by
  unfold parseParam at h
  split at h
  · obtain ⟨⟨first, last⟩, range, h⟩ := Option.bind_eq_some_iff.1 h
    obtain ⟨rfl, least, most⟩ := ranged?_iff.1 h
    rw [paramRange_eq, Option.filter_eq_some_iff] at range
    refine ⟨first, last, range.1, least, most, ?_⟩
    rw [u32_natOfBytes]
    rfl
  · exact nomatch h

theorem entry_of_bind {n : Nat} {b : Byte} {α : Type} {parse : Fin n → Option α} {make : Fin n → α → Edit} {e : Edit}
    (h : ((index? n b).bind fun i => (parse i).bind fun x => some (make i x)) = some e) :
    ∃ i x, b = u8 i.val ∧ parse i = some x ∧ make i x = e := by
  obtain ⟨i, first, h⟩ := Option.bind_eq_some_iff.1 h
  obtain ⟨x, second, h⟩ := Option.bind_eq_some_iff.1 h
  exact ⟨i, x, index?_eq_some first, second, Option.some_inj.1 h⟩

theorem spelled_of_parseEdit {e : Edit} {args : List Byte} (h : parseEdit args = some e) : e.SpelledBy args := by
  unfold parseEdit at h
  split at h
  · split at h
    · next is =>
      obtain ⟨i, x, rfl, found, rfl⟩ := entry_of_bind h
      exact byte_of_toNat is ▸ spelled_node found
    · next is =>
      obtain ⟨i, x, rfl, found, rfl⟩ := entry_of_bind h
      exact byte_of_toNat is ▸ spelled_segment found
    · next is =>
      obtain ⟨i, x, rfl, found, rfl⟩ := entry_of_bind h
      exact byte_of_toNat is ▸ spelled_descriptor found
    · next is =>
      obtain ⟨i, x, rfl, found, rfl⟩ := entry_of_bind h
      exact byte_of_toNat is ▸ spelled_monitor found
    · next is =>
      obtain ⟨i, x, rfl, found, rfl⟩ := entry_of_bind h
      exact byte_of_toNat is ▸ spelled_marker found
    · next is =>
      obtain ⟨i, x, rfl, found, rfl⟩ := entry_of_bind h
      exact byte_of_toNat is ▸ spelled_agent found
    · next is =>
      obtain ⟨i, x, rfl, found, rfl⟩ := entry_of_bind h
      exact byte_of_toNat is ▸ spelled_parameter found
    · exact nomatch h
  · exact nomatch h

end Sys2Proof.Proofs
end


section
/-! PROOFS. WRITE's argument bytes (O20): the bytes that spell an edit are read back as it, table by table. -/

namespace Sys2Proof.Proofs

open Sys2Proof Sys2Proof.Machine Sys2Proof.Laws

theorem bind_of_some {α β : Type} {o : Option α} {f : α → Option β} {a : α} {r : Option β} (found : o = some a)
    (rest : f a = r) : o.bind f = r := found ▸ rest

theorem bind_of_entry {n : Nat} {i : Fin n} {α : Type} {parse : Fin n → Option α} {make : Fin n → α → Edit} {x : α}
    (small : n ≤ 256) (found : parse i = some x) :
    ((index? n (u8 i.val)).bind fun i => (parse i).bind fun x => some (make i x)) = some (make i x) :=
  bind_of_some (index?_u8 i small) (bind_of_some found rfl)

theorem ranged?_of {low high x v : Nat} (read : v = x) (within : (low : Int) ≤ x ∧ (x : Int) ≤ high) :
    ranged? low high v = some x :=
  ranged?_iff.2 ⟨read, Int.ofNat_le.1 within.1, Int.ofNat_le.1 within.2⟩

/-! ## The entries of the tables -/

theorem parseEdit_node {i : Slot} {e : NodeEntry} {args : List Byte} (h : (Edit.node i e).SpelledBy args) :
    parseEdit args = some (.node i e) := by
  obtain ⟨address, h⟩ := h
  have read : (u8 e.address).toNat = e.address := toNat_u8 _ (by omega)
  obtain ⟨en, ad, kind, stroke, zero⟩ := e
  cases kind with
  | jack =>
    obtain ⟨m, z, rfl, rfl, strokes, ⟨least, most⟩, rfl⟩ := h
    refine bind_of_entry (parse := fun _ => parseNode _) (by decide) (bind_of_some (yesNo?_iff.2 rfl)
      (bind_of_some (ranged?_of read address) (bind_of_some (a := .jack) rfl ?_)))
    exact bind_of_some (ranged?_of (natOfBytes_u16 m (by omega)) strokes)
      (congrArg (fun z => some (NodeEntry.mk en ad .jack (some m) (some z))) (intOfBytes16_i16 z least most))
  | outlet =>
    obtain ⟨rfl, rfl, rfl⟩ := h
    exact bind_of_entry (parse := fun _ => parseNode _) (by decide) (bind_of_some (yesNo?_iff.2 rfl)
      (bind_of_some (ranged?_of read address) (bind_of_some (a := .outlet) rfl rfl)))
  | sensor =>
    obtain ⟨rfl, rfl, rfl⟩ := h
    exact bind_of_entry (parse := fun _ => parseNode _) (by decide) (bind_of_some (yesNo?_iff.2 rfl)
      (bind_of_some (ranged?_of read address) (bind_of_some (a := .sensor) rfl rfl)))

theorem parseEdit_segment {i : SegmentIx} {e : SegmentEntry} {args : List Byte} (h : (Edit.segment i e).SpelledBy args) :
    parseEdit args = some (.segment i e) := by
  obtain ⟨area, top, rfl⟩ := h
  exact bind_of_entry (parse := fun _ => parseSegment _) (by decide) (bind_of_some (yesNo?_iff.2 rfl)
    (bind_of_some (ranged?_of (natOfBytes_u32 e.area (by omega)) area)
      (bind_of_some (ranged?_of (natOfBytes_u32 e.startTop (by omega)) top) rfl)))

theorem parseEdit_descriptor {i : DescriptorIx} {e : DescriptorEntry} {args : List Byte}
    (h : (Edit.descriptor i e).SpelledBy args) : parseEdit args = some (.descriptor i e) := by
  obtain ⟨en, segment, outlet, litres, next, pauseAfter, mark⟩ := e
  obtain ⟨amount, flags, rfl, rfl, rfl⟩ := h
  have amount : (1 : Int) ≤ litres ∧ (litres : Int) ≤ 4000 := amount
  exact bind_of_entry (parse := fun _ => parseDescriptor _) (by decide) (bind_of_some (yesNo?_iff.2 rfl)
    (bind_of_some (index?_u8 segment (by decide)) (bind_of_some (index?_u8 outlet (by decide))
      (bind_of_some (ranged?_of (natOfBytes_u16 litres (by omega)) amount) 
        (bind_of_some (a := next) ((optIndex?_iff (by decide)).2 (by cases next <;> rfl)) rfl)))))

/-- A table of four levels, written out. -/
theorem levels_eq (t : Table Int 4) : t = #v[t[0], t[1], t[2], t[3]] := by
  refine Vector.ext fun j lt => ?_
  match j, lt with
  | 0, _ | 1, _ | 2, _ | 3, _ => rfl

theorem parseEdit_monitor {i : MonitorIx} {e : MonitorEntry} {args : List Byte}
    (h : (Edit.monitor i e).SpelledBy args) : parseEdit args = some (.monitor i e) := by
  obtain ⟨en, sensor, dir, levels, select, hysteresis, cls⟩ := e
  obtain ⟨within, hyst, rfl⟩ := h
  have hyst : (0 : Int) ≤ hysteresis ∧ (hysteresis : Int) ≤ 1000 := hyst
  rw [levels_eq levels] at within ⊢
  generalize levels[0] = a, levels[1] = b, levels[2] = c, levels[3] = d at within ⊢
  obtain ⟨⟨la, ua⟩, ⟨lb, ub⟩, ⟨lc, uc⟩, ld, ud⟩ : (_ ∧ _) ∧ (_ ∧ _) ∧ (_ ∧ _) ∧ _ ∧ _ := by
    simpa using within
  have levels : #v[intOfBytes16 (i16 a), intOfBytes16 (i16 b), intOfBytes16 (i16 c), intOfBytes16 (i16 d)] =
      #v[a, b, c, d] := by
    rw [intOfBytes16_i16 a la ua, intOfBytes16_i16 b lb ub, intOfBytes16_i16 c lc uc, intOfBytes16_i16 d ld ud]
  refine bind_of_entry (parse := fun _ => parseMonitor _) (by decide) (bind_of_some (yesNo?_iff.2 rfl)
    (bind_of_some (index?_u8 sensor (by decide)) (bind_of_some (a := dir) (direction?_iff.2 (by cases dir <;> rfl))
      (bind_of_some (index?_u8 select (by decide)) (bind_of_some (ranged?_of (natOfBytes_u16 hysteresis (by omega)) hyst)
        (bind_of_some (a := cls) (monitorClass?_iff.2 (by cases cls <;> rfl)) ?_))))))
  exact congrArg (fun l => some (MonitorEntry.mk en sensor dir l select hysteresis cls)) levels

theorem parseEdit_marker {i : MarkerIx} {e : MarkerEntry} {args : List Byte} (h : (Edit.marker i e).SpelledBy args) :
    parseEdit args = some (.marker i e) := by
  obtain ⟨en, height, action⟩ := e
  obtain ⟨within, h⟩ := h
  have within : (0 : Int) ≤ height ∧ (height : Int) ≤ 16777215 := within
  have read := ranged?_of (natOfBytes_u32 height (by omega)) within
  cases action with
  | hold =>
    obtain rfl := h
    exact bind_of_entry (parse := fun _ => parseMarker _) (by decide) (bind_of_some (yesNo?_iff.2 rfl)
      (bind_of_some read rfl))
  | rate v =>
    obtain ⟨rate, rfl⟩ := h
    exact bind_of_entry (parse := fun _ => parseMarker _) (by decide) (bind_of_some (yesNo?_iff.2 rfl)
      (bind_of_some read (bind_of_some (congrArg (Option.map MarkerAction.rate)
        (ranged?_of (natOfBytes_u16 v (by omega)) rate)) rfl)))
  | feedStop c =>
    cases c with
    | a =>
      obtain rfl := h
      exact bind_of_entry (parse := fun _ => parseMarker _) (by decide) (bind_of_some (yesNo?_iff.2 rfl)
        (bind_of_some read rfl))
    | b =>
      obtain rfl := h
      exact bind_of_entry (parse := fun _ => parseMarker _) (by decide) (bind_of_some (yesNo?_iff.2 rfl)
        (bind_of_some read rfl))

theorem parseEdit_agent {i : AgentIx} {e : AgentEntry} {args : List Byte} (h : (Edit.agent i e).SpelledBy args) :
    parseEdit args = some (.agent i e) := by
  obtain ⟨en, kind, low, high, everyN, form, rank⟩ := e
  obtain ⟨ordered, every, rfl⟩ := h
  have every : (1 : Int) ≤ everyN ∧ (everyN : Int) ≤ 255 := every
  exact bind_of_entry (parse := fun _ => parseAgent _) (by decide) (bind_of_some (yesNo?_iff.2 rfl)
    (bind_of_some (a := kind) (matchKind?_iff.2 (by cases kind <;> rfl)) (bind_of_some (index?_u8 low (by decide))
      (bind_of_some (index?_u8 high (by decide)) (bind_of_some (ranged?_of (toNat_u8 everyN (by omega)) every)
        (bind_of_some (a := form) (forwardForm?_iff.2 (by cases form <;> rfl)) (bind_of_some (index?_u8 rank (by decide))
          (if_pos ordered))))))))

theorem writeRanges_fit : ∀ r ∈ writeRanges, r.2 ≤ 4294967295 := by decide

theorem parseEdit_parameter {i : ParamIx} {v : Nat} {args : List Byte} (h : (Edit.parameter i v).SpelledBy args) :
    parseEdit args = some (.parameter i v) := by
  obtain ⟨first, last, range, least, most, rfl⟩ := h
  have fits : v ≤ 4294967295 := most.trans (writeRanges_fit _ (List.mem_of_getElem? range))
  have found : paramRange i = some (first, last) :=
    (paramRange_eq i).trans (Option.filter_eq_some_iff.2 ⟨range, decide_eq_true (least.trans most)⟩)
  exact bind_of_entry (parse := fun i => parseParam i _) (by decide)
    (bind_of_some found (ranged?_iff.2 ⟨natOfBytes_u32 v fits, least, most⟩))

/-- WRITE's parser takes exactly the bytes that spell an edit. -/
theorem parseEdit_iff {e : Edit} {args : List Byte} : parseEdit args = some e ↔ e.SpelledBy args := by
  refine ⟨spelled_of_parseEdit, fun h => ?_⟩
  cases e with
  | node i e => exact parseEdit_node h
  | segment i e => exact parseEdit_segment h
  | descriptor i e => exact parseEdit_descriptor h
  | monitor i e => exact parseEdit_monitor h
  | marker i e => exact parseEdit_marker h
  | agent i e => exact parseEdit_agent h
  | parameter i v => exact parseEdit_parameter h

end Sys2Proof.Proofs
end


section
/-! PROOFS. WRITE, settled (O20). -/

namespace Sys2Proof.Proofs

open Sys2Proof Sys2Proof.Machine Sys2Proof.Laws

/-- The staged list holds an edit for the table and index of the new one. -/
theorem anyKey_iff {staged : List Edit} {e : Edit} :
    staged.any (fun x => x.key == e.key) = true ↔ ∃ x ∈ staged, x.key = e.key := by
  simp only [List.any_eq_true, beq_iff_eq]

theorem stageEdit_replaces {staged : List Edit} {e : Edit} (h : ∃ x ∈ staged, x.key = e.key) :
    stageEdit staged e = staged.map (fun x => if x.key = e.key then e else x) := by
  unfold stageEdit
  rw [if_pos (anyKey_iff.2 h)]
  simp only [beq_iff_eq]

theorem stageEdit_appends {staged : List Edit} {e : Edit} (h : ∀ x ∈ staged, x.key ≠ e.key) :
    stageEdit staged e = staged ++ [e] :=
  if_neg fun found => let ⟨x, mem, same⟩ := anyKey_iff.1 found; h x mem same

section
variable {u : State} {seq : Byte} {args : List Byte} {e : Edit}

theorem takeWrite_busy (spelled : e.SpelledBy args) (pending : u.command.commitPending = true) :
    u.takeWrite seq args = u.refuse seq 0x03 .busy := by
  unfold State.takeWrite
  rw [parseEdit_iff.2 spelled]
  exact if_pos pending

theorem takeWrite_stages (spelled : e.SpelledBy args) (free : u.command.commitPending = false)
    (room : (∃ x ∈ u.command.staged, x.key = e.key) ∨ u.command.staged.length < 32) :
    u.takeWrite seq args = (u.withCommand { u.command with staged := stageEdit u.command.staged e }).replyOk seq 0x03
      [u8 (stageEdit u.command.staged e).length] := by
  unfold State.takeWrite
  rw [parseEdit_iff.2 spelled]
  exact (if_neg (by rw [free]; decide)).trans (if_pos (room.imp_left anyKey_iff.2))

theorem takeWrite_full (spelled : e.SpelledBy args) (free : u.command.commitPending = false)
    (new : ∀ x ∈ u.command.staged, x.key ≠ e.key) (full : 32 ≤ u.command.staged.length) :
    u.takeWrite seq args = u.refuse seq 0x03 .full := by
  unfold State.takeWrite
  rw [parseEdit_iff.2 spelled]
  refine (if_neg (by rw [free]; decide)).trans (if_neg ?_)
  rintro (found | room)
  · obtain ⟨x, mem, same⟩ := anyKey_iff.1 found
    exact new x mem same
  · exact absurd room (not_lt.2 full)

end

/-- Settles O20: WRITE's parser takes the bytes that spell an edit and no others, and the edit is staged by its key. -/
theorem writeStages : Obligations.WriteStages := by
  refine ⟨fun s seq args running none => ?_, fun s seq args e running spelled => ?_⟩
  · have unread : parseEdit args = .none := Option.eq_none_iff_forall_ne_some.2 fun e is => none e (parseEdit_iff.1 is)
    have taken : exec (.write seq args) s = .next (s.silenceReset.takeWrite seq args) :=
      exec_command running (fun u => u.takeWrite seq args) rfl
    rw [taken, takeWrite_malformed _ seq (Option.isNone_iff_eq_none.2 unread)]
    rfl
  · have taken : exec (.write seq args) s = .next (s.silenceReset.takeWrite seq args) :=
      exec_command running (fun u => u.takeWrite seq args) rfl
    rw [taken]
    generalize s.silenceReset = u
    refine ⟨_, rfl, ?_⟩
    cases free : u.command.commitPending with
    | true =>
      rw [takeWrite_busy spelled free]
      exact ⟨rfl, rfl, fun _ => ⟨rfl, rfl⟩, nofun, nofun, nofun⟩
    | false =>
      by_cases known : ∃ x ∈ u.command.staged, x.key = e.key
      · rw [takeWrite_stages spelled free (.inl known), stageEdit_replaces known]
        refine ⟨rfl, rfl, nofun, fun _ _ => ⟨rfl, ?_⟩, fun _ new => ?_, fun _ new => ?_⟩
        · rw [List.length_map]
          rfl
        · exact absurd known fun ⟨x, mem, same⟩ => new x mem same
        · exact absurd known fun ⟨x, mem, same⟩ => new x mem same
      · have new : ∀ x ∈ u.command.staged, x.key ≠ e.key := fun x mem same => known ⟨x, mem, same⟩
        by_cases room : u.command.staged.length < 32
        · rw [takeWrite_stages spelled free (.inr room), stageEdit_appends new]
          refine ⟨rfl, rfl, nofun, fun _ old => absurd old known, fun _ _ _ => ⟨rfl, ?_⟩,
            fun _ _ full => absurd room (not_lt.2 full)⟩
          rw [List.length_append]
          rfl
        · rw [takeWrite_full spelled free new (not_lt.1 room)]
          exact ⟨rfl, rfl, nofun, fun _ old => absurd old known, fun _ _ few => absurd few room,
            fun _ _ _ => ⟨rfl, rfl⟩⟩

end Sys2Proof.Proofs
end


section
/-! PROOFS. RESTART's closures (O35, R103): the placements that they make, the CLOSEs that they leave, and the whole
state after RESTART. -/

namespace Sys2Proof.Proofs

open Sys2Proof Sys2Proof.Machine Sys2Proof.Laws

variable {s v : State}

/-! ## Placements on the same ground

A closure's placement is made after the silence timer and the withdrawn exchanges; the wall it leaves is the one that it
leaves on the state before them. -/

/-- Two states that a closure cannot tell apart, but for what it does to conditions and mode. -/
structure SameGround (s v : State) : Prop where
  walls : v.walls = s.walls
  segments : v.segments = s.segments
  pourClock : v.pourClock = s.pourClock
  params : v.params = s.params
  placementSeen : v.placementSeen = s.placementSeen
  channel : ∀ c, v.channel c = s.channel c
  descriptors : v.feed.descriptors = s.feed.descriptors

theorem SameGround.wall (h : SameGround s v) (k : SegmentIx) : v.wall k = s.wall k := wall_congr h.walls k

theorem SameGround.segment (h : SameGround s v) (k : SegmentIx) : v.segment k = s.segment k :=
  congrArg (Table.read · k) h.segments

theorem setWall_walls_congr (h : v.walls = s.walls) (k : SegmentIx) (x : SegmentLive) :
    (v.setWall k x).walls = (s.setWall k x).walls := congrArg (Table.write · k x) h

theorem checkYoungest_walls_congr (walls : v.walls = s.walls) (clock : v.pourClock = s.pourClock) (params : v.params = s.params)
    (seen : v.placementSeen = s.placementSeen) (k : SegmentIx) : (v.checkYoungest k).walls = (s.checkYoungest k).walls := by
  unfold State.checkYoungest
  dsimp only
  rw [seen, wall_congr walls k, clock, params]
  cases s.placementSeen.bind CycleResult.bottom with
  | none => exact walls
  | some b =>
    cases (withBottoms (s.wall k).base (s.wall k).queue).getLast? with
    | none => exact walls
    | some youngest =>
      dsimp only
      split
      · rw [raiseGreen_walls, raiseGreen_walls]
        exact setWall_walls_congr walls k _
      · exact walls

theorem takePlacement_walls_congr (h : SameGround s v) (k : SegmentIx) (n : Nat) (source : LayerSource)
    (d : Option DescriptorIx) : (v.takePlacement k n source d).walls = (s.takePlacement k n source d).walls := by
  unfold State.takePlacement
  dsimp only
  rw [h.segment, h.wall, h.pourClock]
  split
  · split
    · exact setWall_walls_congr h.walls k _
    · exact checkYoungest_walls_congr (setWall_walls_congr h.walls k _) h.pourClock h.params h.placementSeen k
  · exact h.walls

/-- What changes the wall, the conditions and the mode alone leaves the same ground but for the wall. -/
theorem SameGround.of_frames {p q : State} (h : SameGround s v) (first : WallFrame s p) (second : WallFrame v q)
    (walls : q.walls = p.walls) : SameGround p q := by
  obtain ⟨w, k, m, r, rfl⟩ : ∃ w k m r, p = (((s.withWalls w).withConditions k).withMode m).withTransit r :=
    ⟨_, _, _, _, first⟩
  obtain ⟨w', k', m', r', rfl⟩ : ∃ w k m r, q = (((v.withWalls w).withConditions k).withMode m).withTransit r :=
    ⟨_, _, _, _, second⟩
  exact ⟨walls, h.segments, h.pourClock, h.params, h.placementSeen, fun c => h.channel c, h.descriptors⟩

/-! ## The closure of one channel -/

/-- The placement of a closure: what the opening has delivered, if it has. -/
def placedAtRestart (s : State) (c : Channel) : State :=
  if ((s.channel c).state = .opened ∨ (s.channel c).state = .closing) ∧ 0 < (s.channel c).delivered then
    match (s.channel c).working with
    | some w => s.takePlacement w.segment (s.channel c).delivered (sourceOf c) (s.closureDescriptor c)
    | none => s
  else s

/-- The CLOSE that a closure leaves. -/
def closesAtRestart (s : State) (c : Channel) : List FeedExchange :=
  match (s.channel c).state, (s.channel c).working with
  | .opened, some w => [s.closeOf c w true]
  | .closing, some w => [s.closeOf c w true]
  | _, _ => []

theorem placedAtRestart_frame (s : State) (c : Channel) : WallFrame s (placedAtRestart s c) := by
  unfold placedAtRestart
  split
  · split
    · exact takePlacement_frame _ _ _ _ _
    · exact .refl s
  · exact .refl s

theorem placedAtRestart_takes {c : Channel} {w : WorkingCopy}
    (opening : (s.channel c).state = .opened ∨ (s.channel c).state = .closing) (working : (s.channel c).working = some w)
    (delivered : 0 < (s.channel c).delivered) : placedAtRestart s c =
      s.takePlacement w.segment (s.channel c).delivered (sourceOf c) (s.closureDescriptor c) := by
  unfold placedAtRestart
  rw [if_pos ⟨opening, delivered⟩, working]

theorem placedAtRestart_rests {c : Channel} (h : ¬ ((s.channel c).state = .opened ∨ (s.channel c).state = .closing) ∨
    (s.channel c).delivered = 0 ∨ ∀ w, (s.channel c).working = some w → (s.segment w.segment).enabled = false) :
    placedAtRestart s c = s := by
  unfold placedAtRestart
  split
  · next acts =>
    rcases h with closed | none | disabled
    · exact absurd acts.1 closed
    · exact absurd none acts.2.ne'
    · cases working : (s.channel c).working with
      | none => rfl
      | some w => exact takePlacement_disabled _ _ _ _ _ (disabled w working)
  · rfl

theorem closureDescriptor_congr (h : SameGround s v) (c : Channel) : v.closureDescriptor c = s.closureDescriptor c := by
  unfold State.closureDescriptor State.descriptor
  rw [h.channel, h.descriptors]

theorem placedAtRestart_same (h : SameGround s v) (c : Channel) :
    SameGround (placedAtRestart s c) (placedAtRestart v c) := by
  refine h.of_frames (placedAtRestart_frame s c) (placedAtRestart_frame v c) ?_
  unfold placedAtRestart
  rw [h.channel, closureDescriptor_congr h]
  split
  · split
    · exact takePlacement_walls_congr h _ _ _ _
    · exact h.walls
  · exact h.walls

theorem closesAtRestart_congr {c : Channel} (channel : v.channel c = s.channel c) (now : v.now = s.now) :
    closesAtRestart v c = closesAtRestart s c := by
  unfold closesAtRestart State.closeOf
  rw [channel, now]

theorem closesAtRestart_one {c : Channel} {w : WorkingCopy}
    (opening : (s.channel c).state = .opened ∨ (s.channel c).state = .closing) (working : (s.channel c).working = some w) :
    closesAtRestart s c = [s.closeOf c w true] := by
  unfold closesAtRestart
  rw [working]
  rcases opening with is | is <;> rw [is]

theorem closesAtRestart_none {c : Channel} (opened : ∀ w, (s.channel c).state = .opened → (s.channel c).working = some w → False)
    (closing : ∀ w, (s.channel c).state = .closing → (s.channel c).working = some w → False) : closesAtRestart s c = [] := by
  unfold closesAtRestart
  split
  · next is working => exact (opened _ is working).elim
  · next is working => exact (closing _ is working).elim
  · rfl

/-- The closure with a working copy: the placement, then the CLOSE. -/
theorem restartClosure_eq {c : Channel} {w : WorkingCopy}
    (opening : (s.channel c).state = .opened ∨ (s.channel c).state = .closing) (working : (s.channel c).working = some w) :
    s.restartClosure c (s.channel c) w = (placedAtRestart s c).withFeed
      { s.feed with waiting := s.feed.waiting ++ [s.closeOf c w true] } := by
  unfold State.restartClosure
  dsimp only
  split
  · next none =>
    rw [placedAtRestart_rests (.inr (.inl none))]
    rfl
  · next some_ =>
    rw [placedAtRestart_takes opening working (Nat.pos_of_ne_zero some_)]
    obtain ⟨x, k, m, r, taken⟩ : ∃ x k m r, s.takePlacement w.segment (s.channel c).delivered (sourceOf c)
        (s.closureDescriptor c) = (((s.withWalls x).withConditions k).withMode m).withTransit r :=
      ⟨_, _, _, _, takePlacement_frame _ _ _ _ _⟩
    rw [taken]
    cases c <;> rfl

theorem closeAtRestart_eq (s : State) (c : Channel) : s.closeAtRestart c = (placedAtRestart s c).withFeed
    { s.feed with waiting := s.feed.waiting ++ closesAtRestart s c } := by
  unfold State.closeAtRestart
  dsimp only
  split
  · next opened working =>
    rw [closesAtRestart_one (.inl opened) working]
    exact restartClosure_eq (.inl opened) working
  · next closing working =>
    rw [closesAtRestart_one (.inr closing) working]
    exact restartClosure_eq (.inr closing) working
  · next notOpened notClosing =>
    have rests : placedAtRestart s c = s := by
      unfold placedAtRestart
      split
      · next acts =>
        cases working : (s.channel c).working with
        | none => rfl
        | some w => exact (acts.1.elim (fun is => notOpened w is working) fun is => notClosing w is working).elim
      · rfl
    rw [rests, closesAtRestart_none notOpened notClosing, List.append_nil]
    rfl

end Sys2Proof.Proofs
end


section
/-! PROOFS. The whole state after RESTART (O35, R174). -/

namespace Sys2Proof.Proofs

open Sys2Proof Sys2Proof.Machine Sys2Proof.Laws

/-- Both channels' own exchanges are withdrawn: what stays is stray. -/
theorem withdrawn_eq (u : State) : (u.withdrawExchanges .a).withdrawExchanges .b =
    u.withFeed { u.feed with waiting := u.feed.waiting.filter fun x => x.stray } := by
  have stray : ∀ x : FeedExchange, ((decide (x.channel ≠ .b) || x.stray) && (decide (x.channel ≠ .a) || x.stray)) = x.stray := by
    intro x
    cases x.channel <;> cases x.stray <;> rfl
  have both : (u.feed.waiting.filter fun x => decide (x.channel ≠ .a) || x.stray).filter
      (fun x => decide (x.channel ≠ .b) || x.stray) = u.feed.waiting.filter fun x => x.stray := by
    rw [List.filter_filter]
    exact List.filter_congr fun x _ => stray x
  unfold State.withdrawExchanges
  exact congrArg (fun q => u.withFeed { u.feed with waiting := q }) both

/-- What one closure leaves: the wall of its placement, and its CLOSE behind the waiting exchanges. -/
theorem closure_step (v : State) (c : Channel) : ∃ w k m r, w = (placedAtRestart v c).walls ∧ v.closeAtRestart c =
    ((((v.withWalls w).withConditions k).withMode m).withTransit r).withFeed
      { v.feed with waiting := v.feed.waiting ++ closesAtRestart v c } := by
  refine ⟨_, (placedAtRestart v c).conditions, (placedAtRestart v c).mode, (placedAtRestart v c).transit, rfl, ?_⟩
  rw [closeAtRestart_eq]
  exact congrArg (State.withFeed · _) (placedAtRestart_frame v c)

theorem closeAtRestart_ground {s v : State} (h : SameGround s v) (c : Channel) :
    SameGround (placedAtRestart s c) (v.closeAtRestart c) := by
  have placed := placedAtRestart_same h c
  have feed : (placedAtRestart v c).feed = v.feed := by
    rw [placedAtRestart_frame v c]
    rfl
  rw [closeAtRestart_eq, ← feed]
  generalize placedAtRestart v c = p at placed
  exact ⟨placed.walls, placed.segments, placed.pourClock, placed.params, placed.placementSeen,
    fun d => (by cases d <;> rfl : _ = p.channel d).trans (placed.channel d), placed.descriptors⟩

theorem placedAtRestart_channel (s : State) (c d : Channel) : (placedAtRestart s c).channel d = s.channel d := by
  rw [placedAtRestart_frame s c]
  cases d <;> rfl

theorem closeAtRestart_now (v : State) (c : Channel) : (v.closeAtRestart c).now = v.now := by
  rw [closeAtRestart_eq]
  show (placedAtRestart v c).now = v.now
  rw [placedAtRestart_frame v c]
  rfl

/-- Both closures, channel A's before B's: the placements leave the wall that they leave without the withdrawn exchanges,
and the CLOSEs join the stray ones. -/
theorem closures_eq (u : State) : ∃ w k m r, w = (placedAtRestart (placedAtRestart u .a) .b).walls ∧
    (((u.withdrawExchanges .a).withdrawExchanges .b).closeAtRestart .a).closeAtRestart .b =
      ((((u.withWalls w).withConditions k).withMode m).withTransit r).withFeed { u.feed with
        waiting := (u.feed.waiting.filter fun x => x.stray) ++ closesAtRestart u .a ++ closesAtRestart u .b } := by
  rw [withdrawn_eq]
  generalize hv : u.withFeed { u.feed with waiting := u.feed.waiting.filter fun x => x.stray } = v
  have ground : SameGround u v := by
    rw [← hv]
    exact ⟨rfl, rfl, rfl, rfl, rfl, fun c => by cases c <;> rfl, rfl⟩
  have second := (placedAtRestart_same (closeAtRestart_ground ground .a) .b).walls
  have closesA : closesAtRestart v .a = closesAtRestart u .a := closesAtRestart_congr (ground.channel .a) (by rw [← hv]; rfl)
  obtain ⟨wa, ka, ma, ra, -, first⟩ := closure_step v .a
  rw [closesA] at first
  have closesB : closesAtRestart (v.closeAtRestart .a) .b = closesAtRestart u .b := by
    refine closesAtRestart_congr ?_ ?_
    · exact ((closeAtRestart_ground ground .a).channel .b).trans (placedAtRestart_channel u .a .b)
    · rw [closeAtRestart_now, ← hv]
      rfl
  obtain ⟨wb, kb, mb, rb, walls, last⟩ := closure_step (v.closeAtRestart .a) .b
  refine ⟨wb, kb, mb, rb, walls.trans second, ?_⟩
  rw [last, closesB, first, ← hv]
  simp only [State.withFeed, State.withWalls, State.withConditions, State.withMode, State.withTransit]

/-- The state after RESTART, but for its reply, with the wall and the feed that the closures leave. -/
def afterRestart (s : State) (walls : Table SegmentLive 32) (feed : Feed) (transit : Transit) : State :=
  { s with
    records := Table.tabulate fun i => (s.record i).restarted (s.node i).enabled
    expectations := Table.const 128 none
    sweep := { s.sweep with running := false, dueAt := s.now, cursor := none, replies := [] }
    ring := s.ring.map Exchange.voided
    dispatch := s.dispatch.restarted
    mode := .idle
    level := LevelUnit.initial
    placementSeen := none
    conditions := Conditions.initial
    markers := { s.markers with spent := Table.const 24 false, latest := none }
    command := { s.command with staged := [], commitPending := false, commitSeq := none, startCause := .restart }
    agents := { s.agents with counters := Table.const 16 0, drops := Table.const 16 0 }
    console := s.console.restarted s.now
    relays := { slots := Table.const 4 none, discards := 0 }
    transit := transit
    jobs := []
    walls := walls
    feed := feed }

theorem restarted_of_feed {u : State} {walls : Table SegmentLive 32} {feed : Feed} {k : Conditions} {m : RiseMode}
    {r : Transit} (h : u.restartFeed =
      ((((u.withWalls walls).withConditions k).withMode m).withTransit r).withFeed feed) :
    u.restarted = afterRestart u walls feed r.restarted := by
  unfold State.restarted
  rw [h]
  simp only [State.withFeed, State.withWalls, State.withConditions, State.withMode, State.withTransit,
    State.record, State.node, afterRestart]

/-- The wall after RESTART: what the closures leave of it, with no claim. -/
def wallAfterRestart (s : State) : Table SegmentLive 32 :=
  Table.tabulate fun k => { (placedAtRestart (placedAtRestart s .a) .b).wall k with claim := none }

/-- The feed after RESTART (R103). -/
def feedAfterRestart (s : State) : Feed :=
  { s.feed with
    channelA := s.feed.channelA.restarted, channelB := s.feed.channelB.restarted, outletClaims := Table.const 128 none
    note := none, seen := none
    waiting := (s.feed.waiting.filter fun x => x.stray) ++ closesAtRestart s .a ++ closesAtRestart s .b }

theorem restartFeed_eq (u : State) : ∃ k m r, u.restartFeed =
    ((((u.withWalls (wallAfterRestart u)).withConditions k).withMode m).withTransit r).withFeed (feedAfterRestart u) := by
  obtain ⟨w, k, m, r, walls, closed⟩ := closures_eq u
  refine ⟨k, m, r, ?_⟩
  have wall : wallAfterRestart u = Table.tabulate fun i => { Table.read w i with claim := none } := by
    rw [walls]
    rfl
  rw [wall]
  unfold State.restartFeed
  dsimp only
  rw [closed]
  rfl

/-- RESTART as the model takes it. -/
theorem restarted_eq (u : State) : u.restarted = afterRestart u (wallAfterRestart u) (feedAfterRestart u)
    { Transit.initial with retirements := u.transit.retirements ++ u.transit.placementResults } := by
  obtain ⟨k, m, r, feed⟩ := restartFeed_eq u
  have whole := restarted_of_feed feed
  have handed : r.restarted = _ := (congrArg State.transit whole).symm.trans (restarted_handoffs u)
  rw [whole, handed]

theorem silenceReset_modes (s : State) : ModesOnly s s.silenceReset := by
  cases source : (s.condition .consoleSilent).source with
  | false =>
    rw [silenceReset_inactive source]
    rfl
  | true =>
    rw [silenceReset_active source]
    unfold State.clear State.conditionReturned
    dsimp only
    split
    · split
      · exact ModesOnly.trans (t := (State.heard s).setCondition .consoleSilent _) rfl (changeMode_modes _ _)
      · rfl
    · rfl

/-- The silence timer that the command restarts is of no account. -/
theorem restarted_silenceReset (s : State) : s.silenceReset.restarted =
    afterRestart s (wallAfterRestart s) (feedAfterRestart s)
      { Transit.initial with retirements := s.transit.retirements ++ s.transit.placementResults } := by
  have handed : ModesOnly s s.silenceReset := silenceReset_modes s
  obtain ⟨k, m, r, frame⟩ : ∃ k m r, s.silenceReset = (((s.withConsole { s.console with
      silence := { s.console.silence with latestValid := s.now } }).withConditions k).withMode m).withTransit r :=
    ⟨_, _, _, silenceReset_frame s⟩
  have ground : SameGround s s.silenceReset := by
    rw [frame]
    exact ⟨rfl, rfl, rfl, rfl, rfl, fun c => by cases c <;> rfl, rfl⟩
  have walls : wallAfterRestart s.silenceReset = wallAfterRestart s :=
    congrArg Table.tabulate (funext fun k => by
      rw [(placedAtRestart_same (placedAtRestart_same ground .a) .b).wall k])
  have feed : feedAfterRestart s.silenceReset = feedAfterRestart s := by
    unfold feedAfterRestart
    rw [closesAtRestart_congr (ground.channel .a) (silenceReset_now s),
      closesAtRestart_congr (ground.channel .b) (silenceReset_now s), frame]
    rfl
  rw [restarted_eq, walls, feed, handed, frame]
  generalize wallAfterRestart s = w, feedAfterRestart s = f
  simp only [State.withConsole, State.withConditions, State.withMode, State.withTransit, State.record, State.node,
    Console.restarted, afterRestart]

end Sys2Proof.Proofs
end


section
/-! PROOFS. RESTART, settled (O35). -/

namespace Sys2Proof.Proofs

open Sys2Proof Sys2Proof.Machine Sys2Proof.Laws

variable {s : State}

/-- The console traffic after RESTART, with its reply. -/
def consoleAfterRestart (s : State) (seq : Byte) : Console :=
  { Console.initial s.now with replies := [.reply seq 0x13 .ok []], tx := s.console.tx.map ConsoleTx.restarted }

/-- What RESTART leaves. -/
def restartedWith (s : State) (seq : Byte) : State :=
  (afterRestart s (wallAfterRestart s) (feedAfterRestart s)
    { Transit.initial with retirements := s.transit.retirements ++ s.transit.placementResults }).withConsole
    (consoleAfterRestart s seq)

theorem restart_taken (running : s.running = true) (seq : Byte) :
    exec (.restart seq []) s = .next (restartedWith s seq) := by
  have taken : exec (.restart seq []) s = .next (s.silenceReset.restarted.reply seq 0x13 .ok []) :=
    exec_command running (fun u => u.takeRestart seq []) rfl
  rw [taken, restarted_silenceReset]
  rfl

theorem restartedWith_wall (s : State) (seq : Byte) (k : SegmentIx) : (restartedWith s seq).wall k =
    { (placedAtRestart (placedAtRestart s .a) .b).wall k with claim := none } := table_read_tabulate _ k

theorem tx_restarted (x : ConsoleTx) : x.restarted = { x with kind := match x.kind with
    | .beacon first last _ => .beacon first last false
    | .reply => .reply
    | .forward => .forward } := by
  obtain ⟨kind, _⟩ := x
  cases kind <;> rfl

/-! ## The walls -/

/-- What a placement leaves of the segments, whatever the form of the queue. -/
theorem takePlacement_segment {k : SegmentIx} (v : Nat) (source : LayerSource) (d : Option DescriptorIx)
    (enabled : (s.segment k).enabled = true) : let x := s.wall k
    let y := (s.takePlacement k v source d).wall k
    y.remainder = x.numerator v % (s.segment k).area ∧ y.placedTotal = min 4294967295 (x.placedTotal + v) ∧
      y.top = x.top + x.gain (s.segment k).area v ∧ y.base = x.base ∧
      (x.gain (s.segment k).area v = 0 → y.queue = x.queue) := by
  intro x y
  have placed : y = { x.placed (s.segment k).area v s.pourClock source d with queue := y.queue } :=
    takePlacement_wall s k v source d enabled
  refine ⟨by rw [placed]; rfl, by rw [placed]; rfl, by rw [placed]; rfl, by rw [placed]; rfl, fun flat => ?_⟩
  show ((s.takePlacement k v source d).wall k).queue = _
  rw [takePlacement_flat v source d enabled flat, wall_setWall_same]

/-- One opening with litres, the other channel without: the closures place these alone. -/
theorem placed_alone {c : Channel} {w : WorkingCopy}
    (opening : (s.channel c).state = .opened ∨ (s.channel c).state = .closing) (working : (s.channel c).working = some w)
    (delivered : 0 < (s.channel c).delivered)
    (alone : (s.channel (otherChannel c)).state = .opened ∨ (s.channel (otherChannel c)).state = .closing →
      (s.channel (otherChannel c)).delivered = 0) : placedAtRestart (placedAtRestart s .a) .b =
        s.takePlacement w.segment (s.channel c).delivered (sourceOf c) (s.closureDescriptor c) := by
  have rests : ¬ ((s.channel (otherChannel c)).state = .opened ∨ (s.channel (otherChannel c)).state = .closing) ∨
      (s.channel (otherChannel c)).delivered = 0 := (Classical.em _).elim (fun opens => .inr (alone opens)) .inl
  cases c with
  | a =>
    have none := placedAtRestart_rests (s := placedAtRestart s .a) (c := .b) (by
      rw [placedAtRestart_channel]
      exact rests.imp_right .inl)
    rw [none, placedAtRestart_takes opening working delivered]
  | b =>
    rw [placedAtRestart_rests (c := .a) (rests.imp_right .inl), placedAtRestart_takes opening working delivered]

/-- The closure of a channel on the ground of a state: a placement as R67 to R70 say, or none. -/
theorem placedAtRestart_places {u : State} {c : Channel} (channel : u.channel c = s.channel c)
    (segments : u.segments = s.segments) (descriptors : u.feed.descriptors = s.feed.descriptors)
    (form : ∀ w, (s.channel c).state = .opened ∨ (s.channel c).state = .closing → (s.channel c).working = some w →
      (u.wall w.segment).Form u.pourClock) :
    (∀ w, ((s.channel c).state = .opened ∨ (s.channel c).state = .closing) → (s.channel c).working = some w →
      0 < (s.channel c).delivered → (s.segment w.segment).enabled = true →
      u.Places w.segment (s.channel c).delivered (sourceOf c) (s.closureDescriptor c) (placedAtRestart u c)) ∧
    (¬ ((s.channel c).state = .opened ∨ (s.channel c).state = .closing) ∨ (s.channel c).delivered = 0 ∨
      (∀ w, (s.channel c).working = some w → (s.segment w.segment).enabled = false) → placedAtRestart u c = u) := by
  have segment (k : SegmentIx) : u.segment k = s.segment k := congrArg (Table.read · k) segments
  have descriptor : u.closureDescriptor c = s.closureDescriptor c := by
    unfold State.closureDescriptor State.descriptor
    rw [channel, descriptors]
  refine ⟨fun w opening working delivered enabled => ?_, fun rests => ?_⟩
  · rw [placedAtRestart_takes (channel ▸ opening) (channel ▸ working) (channel ▸ delivered), channel, descriptor]
    exact takePlacement_places _ _ _ (by rw [segment]; exact enabled) (form w opening working)
  · refine placedAtRestart_rests ?_
    rw [channel]
    exact rests.imp_right (Or.imp_right fun disabled w working => by rw [segment]; exact disabled w working)

theorem placedAtRestart_formKept (s : State) (c : Channel) : FormKept s (placedAtRestart s c) := by
  unfold placedAtRestart
  split
  · split
    · exact takePlacement_formKept _ _ _ _ _
    · exact .refl s
  · exact .refl s

/-! ## Block by block -/

theorem restart_keeps (s : State) (seq : Byte) : let t := restartedWith s seq
    t.power = s.power ∧ t.now = s.now ∧ t.pending = s.pending ∧ t.nodes = s.nodes ∧ t.segments = s.segments ∧
      t.feed.descriptors = s.feed.descriptors ∧ t.monitors = s.monitors ∧ t.markers.entries = s.markers.entries ∧
      t.params = s.params ∧ t.agents.entries = s.agents.entries ∧ t.pourClock = s.pourClock ∧
      t.command.user = s.command.user ∧ t.feed.tagCounter = s.feed.tagCounter := by
  simp only [restartedWith, State.withConsole, afterRestart, feedAfterRestart, and_self]

/-- Settles O35: the blocks as they are reset, the closures of both channels in turn, and one closure alone. -/
theorem restartKeepsAndResets : Obligations.RestartKeepsAndResets := by
  intro s seq running
  refine ⟨restartedWith s seq, restart_taken running seq, restart_keeps s seq,
    ⟨rfl, rfl, fun c => ⟨table_read_const _ _ _, table_read_const _ _ _⟩, fun i => table_read_const _ _ _, rfl⟩,
    ⟨rfl, rfl, rfl, rfl⟩, fun a => ⟨table_read_const _ _ _, table_read_const _ _ _⟩, ⟨rfl, ?_⟩,
    ⟨fun i => table_read_const _ _ _, rfl, rfl, rfl, rfl⟩, ⟨rfl, rfl, rfl, rfl, rfl, rfl⟩,
    fun i => ⟨table_read_const _ _ _, table_read_const _ _ _, fun enabled => ?_, fun disabled => ?_⟩,
    ⟨fun c => by cases c <;> rfl, rfl, rfl, ?_⟩, fun k => by rw [restartedWith_wall], fun idle k => ?_, fun form => ?_,
    fun c w opening working delivered alone => ?_⟩
  · exact congrArg (Option.map · s.console.tx) (funext tx_restarted)
  · exact (table_read_tabulate _ _).trans (if_pos enabled)
  · exact (table_read_tabulate _ _).trans (if_neg (by rw [disabled]; decide))
  · rfl
  · have rests (c : Channel) : ¬ ((s.channel c).state = .opened ∨ (s.channel c).state = .closing) ∨
        (s.channel c).delivered = 0 := (Classical.em _).elim (fun opens => .inr (idle c opens)) .inl
    rw [restartedWith_wall, placedAtRestart_rests (c := .a) ((rests .a).imp_right .inl),
      placedAtRestart_rests (c := .b) ((rests .b).imp_right .inl)]
  · have kept := placedAtRestart_formKept s .a
    have ground := placedAtRestart_frame s .a
    refine ⟨placedAtRestart s .a, placedAtRestart (placedAtRestart s .a) .b,
      placedAtRestart_places rfl rfl rfl fun w opening working => form .a w opening working,
      placedAtRestart_places (placedAtRestart_channel s .a .b) (by rw [ground]; rfl) (by rw [ground]; rfl)
        fun w opening working => ?_, restartedWith_wall s seq⟩
    rw [kept.clock]
    exact kept.form _ (form .b w opening working)
  · intro d live area num gain
    simp only [restartedWith_wall, placed_alone opening working delivered alone]
    refine ⟨fun k elsewhere => ?_, fun enabled => ?_⟩
    · by_cases same : k = w.segment
      · rw [takePlacement_disabled _ _ _ _ _ (elsewhere.elim (absurd same) (same ▸ ·))]
      · rw [takePlacement_wall_other _ _ _ _ same]
    · obtain ⟨remainder, total, top, base, flat⟩ := takePlacement_segment d (sourceOf c) (s.closureDescriptor c) enabled
      refine ⟨remainder, total, top, base, flat, fun gains room form => ?_⟩
      rw [(takePlacement_room d _ _ enabled form gains.ne' room).1]
      unfold BottomBelow
      rw [Bool.and_comm]
      cases c <;> rfl

end Sys2Proof.Proofs
end
